-- ==== Sys2Proof/Word.lean ====
section
/-! DEFINITION. The word types and their plainest arithmetic (R3: byte order little-endian, bit 0 the
least significant). -/

namespace Sys2Proof

/-- One byte of memory. -/
abbrev Byte := BitVec 8

/-- A register value: a 32-bit register occupies the low half (R7). -/
abbrev Word := BitVec 64

/-- A cell of the Bivin protocol, 80 bytes (R257). -/
abbrev CellBits := BitVec 640

/-- A command, 32 bytes (R13). -/
abbrev CmdBits := BitVec 256

end Sys2Proof
end

