-- ==== Sys2Proof/Syntax.lean ====
section
/-! DEFINITION. The commands and events of the RU4100: one constructor for each row of
spec/opcode_table.json, with the operands the row's rule gives it.

Conventions. `p` is the host port a register access arrives at (0 A, 1 B).  `g` is a flag set: 0 to 23
the tiles, 24 the device set (R124).  `q` is a queue number over all sets, `5 * set + number` (R116).
`n` is a link FL00 to FL23.  A cell is its 640 bits, cell bit `k` being bit `k` (R257).  A 16th-tick
time is a fabric time in units of 1/16 tick (R349). -/

namespace Sys2Proof

/-- A queue: `5 * set + number`, the sets being the 24 tiles and the device set (R116). -/
abbrev QId := Fin 125

/-- A flag set: tile 0 to 23, or 24 for the device set (R124). -/
abbrev SetId := Fin 25

/-- A tile (R16). -/
abbrev TileId := Fin 24

/-- A fabric link FL00 to FL23 (R246). -/
abbrev LinkId := Fin 24

/-- A host port, 0 for A and 1 for B (R362). -/
abbrev PortId := Fin 2

/-- The bindings that carry MCTP: PCIe port A, PCIe port B, SMBus (R414). -/
inductive Binding where
  | portA | portB | smbus
  deriving DecidableEq, Repr

/-- The supplies, numbered as R474 numbers the rails. -/
abbrev Rail := Fin 11

/-- A compute domain C0 to C3 (R461). -/
abbrev Domain := Fin 4

/-- What a host configuration write changes (R362, R365, R369, R386, R391). -/
inductive ConfigWrite where
  | busMaster (en : Bool)          -- Bus Master Enable
  | powerState (d3hot : Bool)      -- D0 or D3hot
  | msix (enable mask : Bool)      -- MSI-X Enable and Function Mask
  | bar4Size (code : Fin 7)        -- Resizable BAR control, 64 GiB times 2 to the code
  | memorySpace (en : Bool)        -- Memory Space Enable
  | relaxedOrdering (en : Bool)    -- Device Control
  deriving DecidableEq, Repr

/-- The outcome of a Status read over AVSBus (R455). -/
inductive AvsStatus where
  | warning                        -- over-current, over-temperature or under-voltage
  | fault                          -- regulator fault or output off
  | lostSetpoint
  | normal                         -- none of these
  deriving DecidableEq, Repr

/-- What the FEC decoder met since the last cell: corrected codewords, corrected symbols and uncorrectable
codewords (R251). -/
structure Fec where
  cw : Nat
  sym : Nat
  ucw : Nat
  deriving DecidableEq, Repr

/-- The RU4100's commands and events, one constructor a row of the opcode table. -/
inductive Instr where
  -- Queue control (R117): the queue whose head command this is
  | nop (q : QId)
  | launch (q : QId)
  | baseadd (q : QId)
  | setpred (q : QId)
  | stepend (q : QId)
  | post (q : QId)
  | parkpoint (q : QId)
  | call (q : QId)
  -- Matrix (R63): tile, engine, the ACLK cycle of issue, and the cycles by which its first Fantail fill may precede its first
  -- load: since its WAIT was met or it was fetched (R69; log entry 57)
  | mmf (t : TileId) (m : Fin 2) (cyc : Nat) (fill : Nat)
  | mmbi (t : TileId) (m : Fin 2) (cyc : Nat) (fill : Nat)
  | mmbw (t : TileId) (m : Fin 2) (cyc : Nat) (fill : Nat)
  -- Element (R89): tile, and the ACLK cycle of its issue, from which its bank reads are timed (R80)
  | erun (t : TileId) (cyc : Nat)
  | estamp (t : TileId)
  -- Flume (R194): tile, and the engine, 0 Flume-in and 1 Flume-out
  | fcopy (t : TileId) (f : Fin 2)
  | fmove (t : TileId) (f : Fin 2)
  | ftint (t : TileId) (f : Fin 2)
  | fmirsync (t : TileId) (f : Fin 2)
  -- Wheels (R317): the axis, 0 T, 1 S, 2 P, 3 D
  | allreduce (a : Fin 4)
  | redscat (a : Fin 4)
  | allgather (a : Fin 4)
  | bcast (a : Fin 4)
  | alltoall (a : Fin 4)
  | shift (a : Fin 4)
  | permute (a : Fin 4)
  -- Resident routines of QMGT (R416)
  | telemSnap
  | eventMark
  | whlseqSet
  | shareSet
  | gateSet
  | ovfClr
  -- What a queue does of itself
  | waitMet (q : QId)
  | commandRetire (q : QId)
  | sluiceOpen (q : QId)
  | preWake (q : QId)
  | stepAdvance (g : SetId)
  | waitLimitExpiry (q : QId)
  | queuePark (q : QId)
  -- QUE_CTRL (R151)
  | start (p : PortId) (q : QId)
  | resume (p : PortId) (q : QId)
  | parkreq (p : PortId) (q : QId) (on : Bool)
  | thaw (p : PortId) (q : QId)
  | thawnext (p : PortId) (q : QId)
  | qreset (p : PortId) (q : QId)
  -- Datapath faults: how many groups or lines the command had begun to write
  | matrixParityFault (t : TileId) (m : Fin 2) (begun : Nat)
  | elementParityFault (t : TileId) (begun : Nat)
  | flumeParityFault (t : TileId) (f : Fin 2) (begun : Nat)
  | ballastRampDown (t : TileId) (m : Fin 2)
  -- Tile gating (R24 to R27)
  | tileClockGate (t : TileId)
  | tilePowerGateEntry (t : TileId)
  | tileIsolation (t : TileId)
  | tilePowerGateComplete (t : TileId)
  | tileWake (t : TileId)
  | tileWakeComplete (t : TileId)
  | tilGateWake (p : PortId) (t : TileId)
  -- Register writes with a row of their own
  | glbJobseedCommit (p : PortId) (v : BitVec 32)
  | tilOvfClr (p : PortId) (t : TileId) (i : Fin 64)
  | mxeCntClr (p : PortId) (t : TileId) (m : Fin 2)
  | eleCntClr (p : PortId) (t : TileId)
  | flmCntClr (p : PortId) (t : TileId) (f : Fin 2)
  | hbcCntClr (p : PortId) (lpc : Bool)
  | tilFlagWrite (p : PortId) (g : SetId) (f : Fin 512) (v : BitVec 16)
  | tilFlagadd (p : PortId) (g : SetId) (f : Fin 512) (v : BitVec 8)
  -- Loader (R158 to R175): `v` is the word written to TIL_LDCTRL or QUE_DLDCTRL
  | go (p : PortId) (g : SetId) (v : BitVec 32)
  | loadDone (g : SetId)
  | save (p : PortId) (g : SetId) (v : BitVec 32)
  | saveDone (g : SetId)
  | parkall (p : PortId) (g : SetId)
  -- Memory (R191, R207, R211): a line address, and the symbol errors (position, difference) it has taken
  | patrolScrub (addr : BitVec 48) (errs : List (Fin 68 × BitVec 8))
  | mirRegionEnable (p : PortId) (r : Fin 16)
  | mirctlEn (p : PortId) (en : Bool)
  -- Links (R246 to R282)
  | linkEn (p : PortId) (n : LinkId) (en : Bool)
  | retrain (p : PortId) (n : LinkId)
  | park (p : PortId) (n : LinkId) (on : Bool)
  | lpm (p : PortId) (n : LinkId) (on : Bool)
  | lnkCntClr (p : PortId) (n : LinkId)
  | lnkTest (p : PortId) (n : LinkId) (v : BitVec 32) (errs : Nat)
  | lnkPlanWrite (p : PortId) (n : LinkId) (v : BitVec 64)
  | linkTrained (n : LinkId)
  | trainingTimeout (n : LinkId)
  | absentRetry (n : LinkId)
  | helloTimeout (n : LinkId)
  | helloSend (n : LinkId)
  | lockLost (n : LinkId)
  | failedHoldExpiry (n : LinkId)
  | replayTimeout (n : LinkId)
  | cellSend (n : LinkId)
  | idle (n : LinkId) (fec : Fec) (cell : BitVec 640)
  | hello (n : LinkId) (cell : BitVec 640)
  | link (n : LinkId) (cell : BitVec 640)
  | check (p : PortId)
  | arm (p : PortId)
  | disarm (p : PortId)
  | prtProtoWrite (p : PortId) (v : BitVec 32)
  | glbCoordWrite (p : PortId) (v : BitVec 32)
  | routingTableWrite (p : PortId) (dark : Bool) (d : Fin 65536) (v : BitVec 32)
  -- Routed cells arriving on a link (R257, R293)
  | segf (n : LinkId) (fec : Fec) (cell : BitVec 640)
  | seg (n : LinkId) (fec : Fec) (cell : BitVec 640)
  -- A delivered segment, named by its source, class code and MSG
  | segWrite (src : BitVec 16) (cls : Nat) (msg : BitVec 10)
  | segRead (src : BitVec 16) (cls : Nat) (msg : BitVec 10)
  | segRdata (src : BitVec 16) (cls : Nat) (msg : BitVec 10)
  | segAdd (src : BitVec 16) (cls : Nat) (msg : BitVec 10)
  | segMirror (src : BitVec 16) (cls : Nat) (msg : BitVec 10)
  | grant (n : LinkId) (cell : BitVec 640)
  | signal (n : LinkId) (cell : BitVec 640)
  | notice (n : LinkId) (cell : BitVec 640)
  | noticeFull (n : LinkId) (cell : BitVec 640)
  | noticeAborted (n : LinkId) (cell : BitVec 640)
  | refuse (n : LinkId) (cell : BitVec 640)
  | flush (n : LinkId) (cell : BitVec 640)
  | adaptiveFallback
  | transportResend (dst : BitVec 16) (cls : Nat) (msg : BitVec 10)
  | transportGiveUp (dst : BitVec 16) (cls : Nat) (msg : BitVec 10)
  -- Shades (R302 to R305)
  | open_ (p : PortId)
  | stamp (p : PortId) (dark : Bool)
  | retire (p : PortId)
  | flrep (p : PortId) (on : Bool)
  | flclr (p : PortId)
  | rteCntClr (p : PortId)
  | flushReportSend
  | flushGuardExpiry
  -- Ethernet personality (R306 to R310): frames as byte strings in transmission order
  | ethFrameSend (n : LinkId) (cls : Nat) (gw : BitVec 8)
  | ethFrameReceive (n : LinkId) (frame : List (BitVec 8))
  | pfcFrameReceive (n : LinkId) (prio : Fin 8) (quanta : BitVec 16)
  | pfcRepeat (n : LinkId) (cls : Nat)
  | lldpSend (n : LinkId)
  | lldpReceive (n : LinkId) (pdu : List (BitVec 8))
  -- Wheels (R315 to R341)
  | colChunk (n : LinkId) (cells : List (BitVec 640))
  | colGrant (n : LinkId) (cell : BitVec 640)
  | close (n : LinkId) (cell : BitVec 640)
  | colAbort (n : LinkId) (cell : BitVec 640)
  | chunkResend (a : Fin 4)
  | progressTimeout (a : Fin 4)
  | collectiveComplete (a : Fin 4)
  | whlAbort (p : PortId) (a : Fin 4)
  | whlCntClr (p : PortId) (a : Fin 4)
  -- Fabric time (R342 to R361): `t` is the local reading in 1/16 tick
  | timeRequestSend (n : LinkId)
  | timeRequest (n : LinkId) (cell : BitVec 640) (t : Nat)
  | timeReply (n : LinkId) (cell : BitVec 640) (t : Nat)
  | parentUnusable
  | timePpsInEdge (t : Nat)
  | ppsLoss
  | timePpsOutPulse
  | capt (p : PortId)
  | ftmLoad (p : PortId)
  | ftmCntClr (p : PortId)
  -- Host ports (R362 to R396)
  | perst (port : PortId)
  | functionLevelReset (port : PortId)
  | surpriseRemoval (port : PortId)
  | bar4Access (port : PortId) (off : BitVec 42) (write : Bool) (len : Nat) (data : List (BitVec 8)) (ep : Bool)
  | hstClaim (port : PortId)
  | hstRelease (port : PortId)
  | hstSeize (port : PortId)
  | hstViolrecRead (p : PortId) (port : PortId)
  | hstPortthaw (port : PortId)
  | dbl (p : PortId) (g : SetId) (f : Fin 512) (v : BitVec 32)
  | mbxPost (p : PortId) (k : Fin 8)
  | postwaitExpiry (p : PortId) (k : Fin 8)
  | mbxCons (p : PortId) (m : Fin 48) (v : BitVec 16)
  | mbxclr (p : PortId)
  | hstFwatchArm (p : PortId) (w : Fin 1984) (v : BitVec 64)
  | dmaProd (p : PortId) (port : PortId) (c : Fin 16) (v : BitVec 16)
  | dmaCfgEn (p : PortId) (port : PortId) (c : Fin 16) (v : BitVec 32)
  | dmaDescriptorComplete (port : PortId) (c : Fin 16)
  | quePostrecRead (p : PortId) (q : QId)
  | lpcMirunmirRead (p : PortId)
  | hstPostrecRead (p : PortId) (port : PortId)
  | mgtRepdropRead (p : PortId)
  -- Management core (R397 to R421)
  | watchdogReset
  | telemetrySample (load : Fin 101) (vals : List (BitVec 32))
  | mbxTelemetry
  | mbxCertificates
  | mbxTagArea (ok : Bool)
  | mbxUpdate
  | mbxMeasurements
  | replyRetry
  | getVersion (b : Binding) (req : List (BitVec 8))
  | getCapabilities (b : Binding) (req : List (BitVec 8))
  | negotiateAlgorithms (b : Binding) (req : List (BitVec 8))
  | getDigests (b : Binding) (req : List (BitVec 8))
  | getCertificate (b : Binding) (req : List (BitVec 8))
  | challenge (b : Binding) (req : List (BitVec 8))
  | getMeasurements (b : Binding) (req : List (BitVec 8))
  | respondIfReady (b : Binding) (req : List (BitVec 8))
  | spdmUnsupportedRequest (b : Binding) (req : List (BitVec 8))
  | setEndpointId (b : Binding) (eid : BitVec 8)
  | gettid (b : Binding)
  | settid (b : Binding) (tid : BitVec 8)
  | getpldmversion (b : Binding) (ty : BitVec 8)
  | getpldmtypes (b : Binding)
  | getpldmcommands (b : Binding) (ty : BitVec 8)
  | getsensorreading (b : Binding) (sensor : BitVec 16)
  | getstatesensorreadings (b : Binding) (sensor : BitVec 16)
  | seteventreceiver (b : Binding) (eid : BitVec 8)
  | pdrRepository (b : Binding) (req : List (BitVec 8))
  | pldmFruData (b : Binding) (write : Bool) (data : List (BitVec 8)) (ok : Bool)
  | pldmInvalidType (b : Binding) (ty : BitVec 8)
  | requestupdate (b : Binding) (size : Nat)
  | updateImageData (off : Nat) (data : List (BitVec 8))
  | updateFlashDone (ok : Bool)
  | activatefirmware (b : Binding)
  | recoveryUpdateTimeout
  | secSvncommit (p : PortId) (v : BitVec 8)
  | svnFuseDone
  -- Resets and boot (R400, R401, R431 to R434)
  | coldReset
  | deviceReset (p : PortId) (key : BitVec 8)
  | tileReset (p : PortId) (t : TileId)
  | bootRomCheck
  | firmwareStart
  | memoryInitialisation (refused : List (Fin 20))
  | memoryClear
  | deviceReady (ms : BitVec 16)
  -- Event recorder (R422 to R444)
  | eventRecord (code : BitVec 16) (source : BitVec 16) (detail : BitVec 64)
  | redFlashCopy (ok : Bool)
  | redEscalation
  | tokenRefill
  | evrFaultClear (p : PortId)
  | evrCntClr (p : PortId)
  | bridgeError (b : Fin 8)
  -- Power and thermal (R450 to R474)
  | supplyLoss (r : Rail)
  | supplyDip (r : Rail)
  | thermalTrip (sensor : Fin 6)
  | junctionThrottle (d : Domain) (temp : BitVec 16)
  | prochotNAssert
  | prochotNRelease
  | currentCap (d : Domain) (mean : BitVec 16)
  | throttleStep (d : Domain)
  | pwrForce (p : PortId) (d : Domain) (v : BitVec 4)
  | pwrCntClr (p : PortId)
  | avsCurrentRead (iface : Fin 2) (reading : Option (List (BitVec 16)))
  | avsStatusAlert (r : Fin 5) (st : AvsStatus)
  | avsWriteRetry (r : Fin 5) (tries : Nat) (confirmed : Bool)
  | memoryOvertemp (u : Fin 20) (temp : BitVec 16)
  -- Test access port (R471): the boundary-scan pattern where one is driven
  | bypass
  | idcode
  | samplePreload (pattern : BitVec 64)
  | extest
  | extestPulse
  | extestTrain
  -- The remaining rows
  | registerWrite (p : PortId) (bar2 : Bool) (off : BitVec 26) (bytes : Nat) (v : BitVec 64)
  | discardedCell (n : LinkId) (cell : BitVec 640) (uncorrectable : Bool)
  | supplyValid (r : Rail)
  | resetNRise (straps : BitVec 3)
  | perstDeassertion (port : PortId)
  | configurationRequest (port : PortId) (w : ConfigWrite)
  | hostPortLinkUp (port : PortId)
  | hostReadCompletion (port : PortId) (tag : Nat) (ok : Bool) (data : List (BitVec 8)) (ep : Bool)
  | completionTimeout (port : PortId) (tag : Nat)
  | duplicateKeyExpiry (src : BitVec 16) (cls : Nat) (msg : BitVec 10)
  | doubledRefresh (k : Fin 16) (temp : BitVec 16)
  | mbxReservedService (m : Fin 11)
  deriving DecidableEq, Repr

end Sys2Proof
end

