-- ==== Sys2Proof/Decode.lean ====
section
/-! DEFINITION. The commands that words of the opcode table spell.  No row of spec/opcode_table.json gives bits:
the commands of a queue are decoded from their 256-bit words by the meanings (R13, R117, R64, R90, R196), and the
other rows are register accesses, cells and events of the surroundings. -/

namespace Sys2Proof

/-- The command a word spells by the table's bits: none, since the table gives no row any bits. -/
def decodeTableWord (_nbits _w : Nat) : Option Instr := none

end Sys2Proof
end

