-- ==== Sys2Proof/Machine/Num.lean ====
section
/-! DEFINITION. Number formats, exact values, rounding, saturation and block scales (02_number_formats.md,
R33 to R55).  Every value is exact: a dyadic number, an infinity or NaN. -/

namespace Sys2Proof.Machine

/-- An exact value: `(-1)^neg * mag * 2^exp`, an infinity, or NaN (R34, R36: every NaN is alike). -/
inductive Val where
  | fin (neg : Bool) (mag : Nat) (exp : Int)
  | inf (neg : Bool)
  | nan
  deriving DecidableEq, Repr

/-- How a floating-point format uses its all-ones exponent (R35). -/
inductive Special where
  | ieee      -- infinity and NaN
  | e4m3      -- only the all-ones encoding is NaN
  | finite    -- neither
  deriving DecidableEq, Repr

/-- A floating-point layout: exponent and significand widths, and its special encodings (R34). -/
structure FloatFmt where
  eb : Nat
  p : Nat
  special : Special
  deriving DecidableEq, Repr

/-- The format codes of R33. -/
abbrev fFP32 : Nat := 0
abbrev fBF16 : Nat := 1
abbrev fFP16 : Nat := 2
abbrev fE4M3 : Nat := 3
abbrev fE5M2 : Nat := 4
abbrev fINT8 : Nat := 5
abbrev fINT32 : Nat := 6
abbrev fBE4M3 : Nat := 7
abbrev fBE5M2 : Nat := 8
abbrev fBE2M1 : Nat := 9

/-- The layout of a floating-point code, or of the elements of a block-scaled one (R34, R35). -/
def floatFmt : Nat → FloatFmt
  | 0 => ⟨8, 23, .ieee⟩
  | 1 => ⟨8, 7, .ieee⟩
  | 2 => ⟨5, 10, .ieee⟩
  | 3 => ⟨4, 3, .e4m3⟩
  | 7 => ⟨4, 3, .e4m3⟩
  | 9 => ⟨2, 1, .finite⟩
  | _ => ⟨5, 2, .ieee⟩

def FloatFmt.bias (f : FloatFmt) : Int := 2 ^ (f.eb - 1) - 1

/-- Width of a format's element in bits (R33). -/
def fmtBits (c : Nat) : Nat :=
  if c = 0 ∨ c = 6 then 32 else if c = 1 ∨ c = 2 then 16 else if c = 9 then 4 else 8

/-- The block-scaled formats (R33). -/
def fmtIsBlock (c : Nat) : Bool := c == 7 || c == 8 || c == 9
/-- The integer formats. -/
def fmtIsInt (c : Nat) : Bool := c == 5 || c == 6
/-- The codes R33 reserves. -/
def fmtReserved (c : Nat) : Bool := 10 ≤ c

/-- The largest finite magnitude as an encoding (R35). -/
def FloatFmt.maxFinite (f : FloatFmt) : Nat :=
  match f.special with
  | .ieee => (2 ^ f.eb - 1) * 2 ^ f.p - 1
  | .e4m3 => 2 ^ (f.eb + f.p) - 2
  | .finite => 2 ^ (f.eb + f.p) - 1

/-- The encoding of +infinity, where the format has one (R35). -/
def FloatFmt.infBits (f : FloatFmt) : Nat := (2 ^ f.eb - 1) * 2 ^ f.p

/-- The canonical NaN (R35, R36). -/
def FloatFmt.nanBits (f : FloatFmt) : Nat :=
  match f.special with
  | .e4m3 => 2 ^ (f.eb + f.p) - 1
  | _ => (2 ^ f.eb - 1) * 2 ^ f.p + 2 ^ (f.p - 1)

/-- The value of an encoding (R34, R35). -/
def FloatFmt.decode (f : FloatFmt) (bits : Nat) : Val :=
  let neg := bits / 2 ^ (f.eb + f.p) % 2 == 1
  let e := bits / 2 ^ f.p % 2 ^ f.eb
  let m := bits % 2 ^ f.p
  if f.special = .ieee ∧ e = 2 ^ f.eb - 1 then (if m = 0 then .inf neg else .nan)
  else if f.special = .e4m3 ∧ e = 2 ^ f.eb - 1 ∧ m = 2 ^ f.p - 1 then .nan
  else if e = 0 then .fin neg m (1 - f.bias - f.p)
  else .fin neg (m + 2 ^ f.p) ((e : Int) - f.bias - f.p)

/-- The value of an unscaled element of format `c`: floating point or two's complement (R34). -/
def decodeElem (c bits : Nat) : Val :=
  if c = 5 then (if bits % 256 < 128 then .fin false (bits % 256) 0 else .fin true (256 - bits % 256) 0)
  else if c = 6 then
    (if bits % 2 ^ 32 < 2 ^ 31 then .fin false (bits % 2 ^ 32) 0 else .fin true (2 ^ 32 - bits % 2 ^ 32) 0)
  else (floatFmt c).decode (bits % 2 ^ fmtBits c)

/-- An element of a block with scale byte `e8` (R40). -/
def decodeScaled (c e8 bits : Nat) : Val :=
  if e8 = 255 then .nan
  else match (floatFmt c).decode (bits % 2 ^ fmtBits c) with
    | .fin n m e => .fin n m (e + e8 - 127)
    | v => v

/-- Rounding modes (R46). -/
inductive Rnd where
  | nearest | zero | stochastic (d : Nat)     -- the 16-bit draw D of R49
  deriving DecidableEq, Repr

/-- A magnitude `m * 2^e` in whole quanta `2^q`, rounded by R47 and R48. -/
def roundQuanta (rnd : Rnd) (m : Nat) (e q : Int) : Nat :=
  if q ≤ e then m * 2 ^ (e - q).toNat
  else
    let d := (q - e).toNat
    let t := m / 2 ^ d
    let r := m % 2 ^ d
    match rnd with
    | .nearest => if 2 * r > 2 ^ d ∨ (2 * r = 2 ^ d ∧ t % 2 = 1) then t + 1 else t
    | .zero => t
    | .stochastic D => if r * 65536 / 2 ^ d + D ≥ 65536 then t + 1 else t

/-- What one conversion did: its encoding and what it counts (R52, R53). -/
structure Conv where
  bits : Nat
  sat : Bool := false
  nan : Bool := false
  inf : Bool := false
  unf : Bool := false
  deriving DecidableEq, Repr

/-- The quantum exponent of a non-zero magnitude in a format, with no upper bound (R47). -/
def FloatFmt.quantum (f : FloatFmt) (m : Nat) (e : Int) : Int :=
  max ((Nat.log2 m : Int) + e) (1 - f.bias) - f.p

/-- Convert an exact value to a floating-point format (R47, R52, R53). -/
def FloatFmt.convert (f : FloatFmt) (rnd : Rnd) (sat : Bool) (v : Val) : Conv :=
  let sign (n : Bool) : Nat := if n then 2 ^ (f.eb + f.p) else 0
  match v with
  | .nan => { bits := f.nanBits, nan := true }
  | .inf n =>
      match f.special with
      | .ieee => { bits := sign n + f.infBits, inf := true }
      | _ => { bits := f.nanBits, inf := true }
  | .fin n m e =>
      if m = 0 then { bits := sign n }
      else
        let q := f.quantum m e
        let r := roundQuanta rnd m e q
        let b := ((q + f.p + f.bias - 1) * 2 ^ f.p + r).toNat
        if b > f.maxFinite then
          if sat ∨ rnd = .zero ∨ f.special = .finite then { bits := sign n + f.maxFinite, sat := true }
          else match f.special with
            | .ieee => { bits := sign n + f.infBits, inf := true }
            | _ => { bits := f.nanBits, nan := true }
        else { bits := sign n + b, unf := r == 0 }

/-- Convert an exact value to a two's complement integer of `w` bits (R47, R52, R53). -/
def convertInt (w : Nat) (rnd : Rnd) (v : Val) : Conv :=
  match v with
  | .nan => { bits := 0, nan := true }
  | .inf n => { bits := if n then 2 ^ (w - 1) else 2 ^ (w - 1) - 1, inf := true }
  | .fin n m e =>
      let r := roundQuanta rnd m e 0
      if n then
        if r > 2 ^ (w - 1) then { bits := 2 ^ (w - 1), sat := true }
        else { bits := (2 ^ w - r) % 2 ^ w, unf := m != 0 && r == 0 }
      else
        if r > 2 ^ (w - 1) - 1 then { bits := 2 ^ (w - 1) - 1, sat := true }
        else { bits := r, unf := m != 0 && r == 0 }

/-- Convert to an unscaled format code. -/
def convertElem (c : Nat) (rnd : Rnd) (sat : Bool) (v : Val) : Conv :=
  if c = 5 then convertInt 8 rnd v
  else if c = 6 then convertInt 32 rnd v
  else (floatFmt c).convert rnd sat v

/-! ### Exact arithmetic -/

def Val.neg : Val → Val
  | .fin n m e => .fin (!n) m e
  | .inf n => .inf (!n)
  | .nan => .nan

def Val.abs : Val → Val
  | .fin _ m e => .fin false m e
  | .inf _ => .inf false
  | .nan => .nan

def Val.isZero : Val → Bool
  | .fin _ m _ => m == 0
  | _ => false

def Val.isFinite : Val → Bool
  | .fin _ _ _ => true
  | _ => false

def Val.isNeg : Val → Bool
  | .fin n _ _ => n
  | .inf n => n
  | .nan => false

def Val.zero : Val := .fin false 0 0
def Val.one : Val := .fin false 1 0

/-- The signed integer `m * 2^(e - q)` of a magnitude, for `q ≤ e`. -/
def scaledInt (n : Bool) (m : Nat) (e q : Int) : Int :=
  let k : Int := m * 2 ^ (e - q).toNat
  if n then -k else k

/-- Exact sum; the sign of a zero sum follows R37. -/
def Val.add : Val → Val → Val
  | .nan, _ => .nan
  | _, .nan => .nan
  | .inf a, .inf b => if a = b then .inf a else .nan
  | .inf a, _ => .inf a
  | _, .inf b => .inf b
  | .fin n m e, .fin n' m' e' =>
      let q := min e e'
      let k := scaledInt n m e q + scaledInt n' m' e' q
      if k = 0 then .fin (n && n' && m == 0 && m' == 0) 0 0
      else .fin (k < 0) k.natAbs q

def Val.sub (a b : Val) : Val := a.add b.neg

/-- Exact product. -/
def Val.mul : Val → Val → Val
  | .nan, _ => .nan
  | _, .nan => .nan
  | .inf a, .inf b => .inf (a != b)
  | .inf a, .fin n m _ => if m = 0 then .nan else .inf (a != n)
  | .fin n m _, .inf b => if m = 0 then .nan else .inf (n != b)
  | .fin n m e, .fin n' m' e' => .fin (n != n') (m * m') (e + e')

/-- `a < b` on numbers; false when either is NaN; zeros are equal. -/
def Val.lt : Val → Val → Bool
  | .nan, _ => false
  | _, .nan => false
  | .inf a, .inf b => a && !b
  | .inf a, _ => a
  | _, .inf b => !b
  | .fin n m e, .fin n' m' e' =>
      let q := min e e'
      decide (scaledInt n m e q < scaledInt n' m' e' q)

/-- Multiply by `2^k`. -/
def Val.scale (v : Val) (k : Int) : Val :=
  match v with
  | .fin n m e => .fin n m (e + k)
  | v => v

/-- The FP32 encoding of a value, nearest even, overflow to infinity: the units' internal rounding (R43). -/
def f32Round (v : Val) : Nat := ((floatFmt 0).convert .nearest false v).bits
/-- The value of an FP32 encoding. -/
def f32 (bits : Nat) : Val := (floatFmt 0).decode bits

/-- A magnitude rounded toward zero to FP32 with sign 0, capped at the largest finite (W4 of R57). -/
def f32Mag (v : Val) : Nat :=
  match v with
  | .fin _ m e => ((floatFmt 0).convert .zero true (.fin false m e)).bits
  | _ => 0

/-! ### Conversion control (R46) -/

/-- CVT's fields. -/
structure Cvt where
  ori : Nat
  fmt : Nat
  scm : Bool
  ovfNf : Bool
  sat : Bool
  rnd : Nat
  deriving DecidableEq, Repr

def Cvt.ofBits (v : Nat) : Cvt :=
  ⟨v / 1024 % 64, v / 64 % 16, v / 32 % 2 == 1, v / 16 % 2 == 1, v / 8 % 2 == 1, v % 4⟩

/-- Whether R46 lets the Bolter accept a CVT of a unit with `recs` overflow records. -/
def cvtLegal (v recs : Nat) : Bool :=
  let c := Cvt.ofBits v
  c.rnd != 3 && v / 4 % 2 == 0 && !(c.scm && !fmtIsBlock c.fmt) && decide (c.ori < recs) && !fmtReserved c.fmt

/-- The rounding of an element whose draw is `d`. -/
def Cvt.mode (c : Cvt) (d : Nat) : Rnd :=
  if c.rnd = 2 then .stochastic d else if c.rnd = 1 then .zero else .nearest

/-! ### Counting (R52 to R59) -/

/-- What a run of conversions has counted. -/
structure Tally where
  sat : Nat := 0
  nan : Nat := 0
  inf : Nat := 0
  unf : Nat := 0
  maxAbs : Nat := 0
  nf : Bool := false
  first : Option Nat := none      -- element index of the first event
  deriving DecidableEq, Repr

/-- Count one conversion of input `v` at element index `idx` (R52, R53, R57, R59). -/
def Tally.count (t : Tally) (ovfNf : Bool) (idx : Nat) (v : Val) (c : Conv) : Tally :=
  { sat := t.sat + c.sat.toNat, nan := t.nan + c.nan.toNat, inf := t.inf + c.inf.toNat,
    unf := t.unf + c.unf.toNat, maxAbs := max t.maxAbs (f32Mag v),
    nf := t.nf || c.nan || c.inf || (c.sat && ovfNf),
    first := if c.sat || c.nan || c.inf then t.first.or (some idx) else t.first }

/-- Two tallies of one record, the first one earlier. -/
def Tally.join (a b : Tally) : Tally :=
  ⟨a.sat + b.sat, a.nan + b.nan, a.inf + b.inf, a.unf + b.unf, max a.maxAbs b.maxAbs, a.nf || b.nf,
   a.first.or b.first⟩

/-- Convert one value to an unscaled target, counting it; `seen` says that its overflow or non-finite input has been
counted at its widening, and no value counts twice for one reason (R53). -/
def cvtElem (c : Cvt) (draw : Nat → Nat) (idx : Nat) (v : Val) (t : Tally) (seen : Bool := false) : Nat × Tally :=
  let r := convertElem c.fmt (c.mode (if c.rnd = 2 then draw idx else 0)) c.sat v
  (r.bits, if seen then t else t.count c.ovfNf idx v r)

/-- The largest magnitude of a list of finite values. -/
def amax (vs : List Val) : Val :=
  vs.foldl (fun a v => if a.lt v.abs then v.abs else a) Val.zero

/-- The block scale of R55 for finite values: `E8`. -/
def blockScale (c : Nat) (scm : Bool) (vs : List Val) : Nat :=
  match amax vs with
  | .fin _ m e =>
      if m = 0 then 127
      else
        let p : Int := (Nat.log2 m : Int) + e
        let q : Int := if c = 7 then 8 else if c = 8 then 15 else 2
        let f := floatFmt c
        let g := f.decode f.maxFinite
        let floor := p - q
        -- the smallest E with amax / 2^E at most G is the floor or one above it (R55)
        let E := if scm && g.lt (Val.fin false m (e - floor)) then floor + 1 else floor
        (min (max (E + 127) 0) 254).toNat
  | _ => 255

/-- A block of values with their element indices, converted to a block-scaled target: scale byte, element
encodings and counts (R53, R55).  Positions beyond K are not in the list and are written +0 (R41).  `seen` picks the
element indices whose value has been counted at its widening. -/
def cvtBlock (c : Cvt) (draw : Nat → Nat) (vs : List (Nat × Val)) (t : Tally) (seen : Nat → Bool := fun _ => false) :
    Nat × List Nat × Tally :=
  if vs.all (·.2.isFinite) then
    let e8 := blockScale c.fmt c.scm (vs.map (·.2))
    let r := vs.foldl (fun (acc : List Nat × Tally) iv =>
      let cv := (floatFmt c.fmt).convert (c.mode (if c.rnd = 2 then draw iv.1 else 0)) c.sat
        (iv.2.scale (127 - e8))
      let cnt := if seen iv.1 then acc.2 else acc.2.count c.ovfNf iv.1 iv.2 cv
      (acc.1 ++ [cv.bits], cnt)) ([], t)
    (e8, r.1, r.2)
  else
    let t1 := vs.foldl (fun (a : Tally) iv =>
      if seen iv.1 then a else
      match iv.2 with
      | .nan => a.count c.ovfNf iv.1 iv.2 { bits := 0, nan := true }
      | .inf _ => a.count c.ovfNf iv.1 iv.2 { bits := 0, inf := true }
      | .fin _ _ _ => { a with maxAbs := max a.maxAbs (f32Mag iv.2) }) t
    (255, vs.map (fun _ => 0), { t1 with nan := t1.nan + 1, nf := true })

/-- Widen an element to FP32 under a CVT (R54): exact but for a scaled element beyond the FP32 range, which overflows as R52
states and counts, and INT32, which rounds by RND, both with the element's draw: the value, the counts, and whether it
counted here. -/
def widenIn (c : Cvt) (draw : Nat → Nat) (idx : Nat) (v : Val) (t : Tally) : Val × Tally × Bool :=
  let r := (floatFmt fFP32).convert (c.mode (if c.rnd = 2 then draw idx else 0)) c.sat v
  if v.isFinite && (r.sat || r.inf || r.nan) then (f32 r.bits, t.count c.ovfNf idx v r, true) else (f32 r.bits, t, false)

end Sys2Proof.Machine
end

