-- ==== Sys2Proof/Machine/Codes.lean ====
section
/-! DEFINITION. The published codes the spec calls for: AES-128 (R49, FIPS 197), the cell and tint CRCs
(R241, R259), CRC-32 (R327, R410), SHA-256 (R166, FIPS 180-4), RSASSA-PSS verification (R404, RFC 8017),
the Reed-Solomon line code (R186 to R188) and the shift-register generators (R82, R263). -/

namespace Sys2Proof.Machine

/-! ### Bytes (R3) -/

/-- `n` bytes of a number, least significant first. -/
def leBytes : Nat → Nat → List Nat
  | 0, _ => []
  | n + 1, v => v % 256 :: leBytes n (v / 256)

/-- The number whose bytes, least significant first, are given. -/
def leNat : List Nat → Nat
  | [] => 0
  | b :: bs => b % 256 + 256 * leNat bs

/-- `n` bytes of a number, most significant first. -/
def beBytes (n v : Nat) : List Nat := (leBytes n v).reverse
def beNat (bs : List Nat) : Nat := leNat bs.reverse

/-! ### AES-128 -/

def aesSboxTable : Nat :=
  0x16BB54B00F2D99416842E6BF0D89A18CDF2855CEE9871E9B948ED9691198F8E19E1DC186B95735610EF6034866B53E708A8BBD4B1F74DDE8C6B4A61C2E2578BA08AE7A65EAF4566CA94ED58D6D37C8E779E4959162ACD3C25C2406490A3A32E0DB0B5EDE14B8EE4688902A22DC4F816073195D643D7EA7C41744975FEC130CCDD2F3FF1021DAB6BCF5389D928F40A351A89F3C507F02F94585334D43FBAAEFD0CF584C4A39BECB6A5BB1FC20ED00D153842FE329B3D63B52A05A6E1B1A2C830975B227EBE28012079A059618C323C7041531D871F1E5A534CCF73F362693FDB7C072A49CAFA2D4ADF04759FA7DC982CA76ABD7FE2B670130C56F6BF27B777C63
def aesSbox (x : Nat) : Nat := aesSboxTable >>> (8 * x) % 256

/-- Multiplication by x in AES's field. -/
def aesXtime (a : Nat) : Nat := if a < 128 then 2 * a else (2 * a) % 256 ^^^ 0x1B

/-- The next round key, as four words of four bytes. -/
def aesNextKey (rcon : Nat) (k : List (List Nat)) : List (List Nat) :=
  match k with
  | [w0, w1, w2, w3] =>
      let t := match w3 with
        | [a, b, c, d] => [aesSbox b ^^^ rcon, aesSbox c, aesSbox d, aesSbox a]
        | w => w
      let x (u v : List Nat) := List.zipWith (· ^^^ ·) u v
      let v0 := x w0 t
      let v1 := x w1 v0
      let v2 := x w2 v1
      [v0, v1, v2, x w3 v2]
  | k => k

/-- MixColumns on one column. -/
def aesMix : List Nat → List Nat
  | [a, b, c, d] =>
      [aesXtime a ^^^ (aesXtime b ^^^ b) ^^^ c ^^^ d, a ^^^ aesXtime b ^^^ (aesXtime c ^^^ c) ^^^ d,
       a ^^^ b ^^^ aesXtime c ^^^ (aesXtime d ^^^ d), (aesXtime a ^^^ a) ^^^ b ^^^ c ^^^ aesXtime d]
  | w => w

/-- SubBytes and ShiftRows of a state of four columns. -/
def aesSubShift (s : List (List Nat)) : List (List Nat) :=
  (List.range 4).map fun c => (List.range 4).map fun r => aesSbox ((s.getD ((c + r) % 4) []).getD r 0)

def aesAddKey (s k : List (List Nat)) : List (List Nat) :=
  List.zipWith (List.zipWith (· ^^^ ·)) s k

/-- The rounds after the first key addition, one for each round constant; the last mixes no columns. -/
def aesRounds : List Nat → List (List Nat) → List (List Nat) → List (List Nat)
  | [], _, s => s
  | rc :: rest, k, s =>
      let k' := aesNextKey rc k
      let s' := aesSubShift s
      aesRounds rest k' (aesAddKey (if rest.isEmpty then s' else s'.map aesMix) k')

/-- Cut a list into groups of `n`; `fuel` bounds the number of groups. -/
def chunks (fuel n : Nat) (l : List Nat) : List (List Nat) :=
  match fuel with
  | 0 => []
  | k + 1 => if l.isEmpty then [] else l.take n :: chunks k n (l.drop n)

/-- AES-128 encryption of 16 bytes. -/
def aes128 (key block : List Nat) : List Nat :=
  let k := chunks 4 4 key
  (aesRounds [1, 2, 4, 8, 16, 32, 64, 128, 0x1B, 0x36] k (aesAddKey (chunks 4 4 block) k)).flatten

/-- The generator's 128 output bits for a counter block (R49). -/
def rngBlock (seed stream step elem : Nat) : Nat :=
  leNat (aes128 (leBytes 16 seed) (leBytes 8 (elem / 8 * 8) ++ leBytes 3 stream ++ leBytes 5 step))

/-- The 16-bit draw D of element index `elem` (R49). -/
def rngDraw (seed stream step elem : Nat) : Nat :=
  rngBlock seed stream step elem >>> (16 * (elem % 8)) % 65536

/-! ### CRCs -/

/-- `n` more bits of a CRC register of width `w`, most significant bit of `v` first. -/
def crcBits (w poly : Nat) : Nat → Nat → Nat → Nat
  | 0, _, c => c
  | n + 1, v, c =>
      let top := (c >>> (w - 1) ^^^ v >>> n) % 2
      crcBits w poly n v (if top = 1 then (2 * c) % 2 ^ w ^^^ poly else (2 * c) % 2 ^ w)

/-- A CRC with its register starting at 0, bytes entering most significant bit first. -/
def crcMsb (w poly : Nat) (bytes : List Nat) : Nat :=
  bytes.foldl (fun c b => crcBits w poly 8 b c) 0

/-- The cell CRC (R259). -/
def crc16 (bytes : List Nat) : Nat := crcMsb 16 0x8BB7 bytes
/-- The tint CRC, CRC-64/ECMA-182 (R241). -/
def crc64 (bytes : List Nat) : Nat := crcMsb 64 0x42F0E1EBA9EA3693 bytes

/-- One bit step of the reflected CRC-32. -/
def crc32Bit : Nat → Nat → Nat
  | 0, c => c
  | n + 1, c => crc32Bit n (if c % 2 = 1 then c / 2 ^^^ 0xEDB88320 else c / 2)

/-- CRC-32 of IEEE 802.3 (R327). -/
def crc32 (bytes : List Nat) : Nat :=
  bytes.foldl (fun c b => crc32Bit 8 (c ^^^ b)) 0xFFFFFFFF ^^^ 0xFFFFFFFF

/-! ### SHA-256 -/

def shaKTable : Nat :=
  0xC67178F2BEF9A3F7A4506CEB90BEFFFA8CC7020884C8781478A5636F748F82EE682E6FF35B9CCA4F4ED8AA4A391C0CB334B0BCB52748774C1E376C0819A4C116106AA070F40E3585D6990624D192E819C76C51A3C24B8B70A81A664BA2BFE8A192722C8581C2C92E766A0ABB650A735453380D134D2C6DFC2E1B213827B70A851429296706CA6351D5A79147C6E00BF3BF597FC7B00327C8A831C66D983E515276F988DA5CB0A9DC4A7484AA2DE92C6F240CA1CC0FC19DC6EFBE4786E49B69C1C19BF1749BDC06A780DEB1FE72BE5D74550C7DC3243185BE12835B01D807AA98AB1C5ED5923F82A459F111F13956C25BE9B5DBA5B5C0FBCF71374491428A2F98
def shaK (t : Nat) : Nat := shaKTable >>> (32 * t) % 2 ^ 32
def shaInit : List Nat := [0x6A09E667, 0xBB67AE85, 0x3C6EF372, 0xA54FF53A, 0x510E527F, 0x9B05688C, 0x1F83D9AB, 0x5BE0CD19]

def rotr32 (n x : Nat) : Nat := (x >>> n ||| x <<< (32 - n)) % 2 ^ 32

/-- `n` more words of the message schedule, newest first. -/
def shaSchedule : Nat → List Nat → List Nat
  | 0, w => w
  | n + 1, w =>
      let a := w.getD 1 0
      let b := w.getD 14 0
      let s1 := rotr32 17 a ^^^ rotr32 19 a ^^^ a >>> 10
      let s0 := rotr32 7 b ^^^ rotr32 18 b ^^^ b >>> 3
      shaSchedule n ((s1 + w.getD 6 0 + s0 + w.getD 15 0) % 2 ^ 32 :: w)

def shaRound (h : List Nat) (kw : Nat) : List Nat :=
  match h with
  | [a, b, c, d, e, f, g, x] =>
      let s1 := rotr32 6 e ^^^ rotr32 11 e ^^^ rotr32 25 e
      let ch := (e &&& f) ^^^ ((0xFFFFFFFF - e) &&& g)
      let t1 := x + s1 + ch + kw
      let s0 := rotr32 2 a ^^^ rotr32 13 a ^^^ rotr32 22 a
      let mj := (a &&& b) ^^^ (a &&& c) ^^^ (b &&& c)
      [(t1 + s0 + mj) % 2 ^ 32, a, b, c, (d + t1) % 2 ^ 32, e, f, g]
  | h => h

/-- One 64-byte block. -/
def shaBlock (h : List Nat) (block : List Nat) : List Nat :=
  let w := (shaSchedule 48 ((chunks 16 4 block).map beNat).reverse).reverse
  let r := (List.range 64).foldl (fun s t => shaRound s (shaK t + w.getD t 0)) h
  List.zipWith (fun x y => (x + y) % 2 ^ 32) h r

/-- SHA-256 of a byte string. -/
def sha256 (msg : List Nat) : List Nat :=
  let n := msg.length
  let padded := msg ++ [0x80] ++ List.replicate ((119 - n % 64) % 64) 0 ++ beBytes 8 (8 * n)
  ((chunks (n / 64 + 2) 64 padded).foldl shaBlock shaInit).flatMap (beBytes 4)

/-! ### RSASSA-PSS verification (R404) -/

/-- `b ^ e mod m`, `fuel` bits of `e`. -/
def powMod (m : Nat) : Nat → Nat → Nat → Nat
  | 0, _, _ => 1 % m
  | k + 1, b, e =>
      let h := powMod m k (b * b % m) (e / 2)
      if e % 2 = 1 then h * b % m else h

/-- MGF1 with SHA-256, `n` bytes. -/
def mgf1 (seed : List Nat) (n : Nat) : List Nat :=
  ((List.range ((n + 31) / 32)).flatMap fun c => sha256 (seed ++ beBytes 4 c)).take n

/-- EMSA-PSS-VERIFY for a 3072-bit modulus with a 32-byte salt, then the RSA public operation. -/
def pssVerify (modulus exponent : Nat) (msg sig : List Nat) : Bool :=
  let s := beNat sig
  let em := beBytes 384 (powMod modulus 32 s exponent)
  let masked := em.take 351
  let h := (em.drop 351).take 32
  let db := List.zipWith (· ^^^ ·) masked (mgf1 h 351)
  let db := match db with
    | b :: r => b % 128 :: r
    | [] => []
  let salt := db.drop 319
  decide (s < modulus) && sig.length == 384 && em.getD 383 0 == 0xBC && decide (masked.getD 0 0 < 128)
    && db.take 318 == List.replicate 318 0 && db.getD 318 0 == 1
    && sha256 (List.replicate 8 0 ++ sha256 msg ++ salt) == h

/-! ### The Reed-Solomon line code (R186 to R188) -/

/-- Multiplication by alpha in GF(2^8) on x^8 + x^4 + x^3 + x^2 + 1. -/
def gfAlpha (a : Nat) : Nat := if a < 128 then 2 * a else (2 * a) % 256 ^^^ 0x1D

/-- `a * alpha^n`. -/
def gfAlphaPow : Nat → Nat → Nat
  | 0, a => a
  | n + 1, a => gfAlphaPow n (gfAlpha a)

/-- What a controller makes of the syndromes of a line (R187). -/
inductive LineResult where
  | clean | poisoned
  | corrected (pos : Nat)                -- symbol position, 0 to 3 the check bytes, 4 + i data byte i
  | poisonedCorrected (pos : Nat)
  | uncorrectable
  deriving DecidableEq, Repr

/-- The four syndromes of an error pattern: positions and differences. -/
def syndromes (errs : List (Nat × Nat)) : List Nat :=
  (List.range 4).map fun i => errs.foldl (fun s pe => s ^^^ gfAlphaPow (i * pe.1) pe.2) 0

/-- The error pattern of R188's poison: the check bytes XOR 0xA5, 0x5A, 0xC3, 0x3C. -/
def poisonPattern : List (Nat × Nat) := [(0, 0xA5), (1, 0x5A), (2, 0xC3), (3, 0x3C)]

/-- The position a syndrome vector shows a single symbol error at, if any. -/
def singleError (s : List Nat) : Option Nat :=
  let s0 := s.getD 0 0
  if s0 = 0 then none
  else (List.range 68).find? fun p => syndromes [(p, s0)] == s

/-- R187's outcome for syndromes `s` of a tier line. -/
def lineOutcome (s : List Nat) : LineResult :=
  let ps := syndromes poisonPattern
  let dx := List.zipWith (· ^^^ ·) s ps
  if s = [0, 0, 0, 0] then .clean
  else if s = ps then .poisoned
  else match singleError dx with
    | some p => .poisonedCorrected p
    | none => match singleError s with
      | some p => .corrected p
      | none => .uncorrectable

/-- R189's outcome for a scratchpad line, which keeps its poison in a bit of its own. -/
def padOutcome (poison : Bool) (s : List Nat) : LineResult :=
  if s = [0, 0, 0, 0] then (if poison then .poisoned else .clean)
  else match singleError s with
    | some p => if poison then .poisonedCorrected p else .corrected p
    | none => .uncorrectable

/-! ### Shift-register generators -/

/-- One step of the ballast generator x^32 + x^22 + x^2 + x + 1 (R82). -/
def ballastStep (s : BitVec 32) : BitVec 32 :=
  let b := s[31]! ^^ s[21]! ^^ s[1]! ^^ s[0]!
  (s <<< 1) ||| (if b then 1 else 0)

def ballastRun : Nat → BitVec 32 → BitVec 32
  | 0, s => s
  | n + 1, s => ballastRun n (ballastStep s)

end Sys2Proof.Machine
end

