-- ==== Sys2Proof/Config.lean ====
section
/-! DEFINITION. What an implementation fixes and the values the spec leaves free.  Each is a constant with
no body: nothing proved here can depend on its value. -/

namespace Sys2Proof.Config

/-- The n-th value of `w` bits that the spec leaves undefined (log entry 1). -/
opaque freeValue : (w n : Nat) → BitVec w

/-- GLB_SERIAL: the part's serial number (R419). -/
opaque serial : BitVec 64
/-- GLB_DIEID_n (R419). -/
opaque dieId : Nat → BitVec 64
/-- GLB_STACKID_n (R419). -/
opaque stackId : Nat → BitVec 64
/-- The fused hash of the signing key, SEC_KEYHASH_k (R404, R421). -/
opaque keyHash : Nat → BitVec 32
/-- The Olzel OUI of RTE_LLDP (R310). -/
opaque oui : BitVec 24

/-- The DRAM row, within its package, of a second-tier line: the controller's own mapping (R182, R192). -/
opaque lpddrRow : Nat → Nat
/-- The first local address of such a row. -/
opaque lpddrRowAddr : Nat → Nat

/-- Where in a cell of width 2^q, the k-th from 0 on a side of it, the function unit `unit` puts its values, in 1/256 of the
cell: the spec gives its functions and an accuracy, not their bits (R77, R97, R99; log entry 56). -/
opaque unitPoint : (unit : Nat) → Bool × Nat × Int → BitVec 8

/-- The fused setpoint of a rail that AVSBus sets, in mV: 0 to 3 the compute dies, 4 the edge dies (R454). -/
opaque setpoint : Nat → BitVec 16
/-- The JTAG identification code (R471). -/
opaque idcode : BitVec 32
/-- The version of the resident routine library of an image (R416): it is the image's own. -/
opaque libVersion : (fwver : Nat) → BitVec 16
/-- FWVER of the image a part leaves the factory with (R475). -/
opaque factoryFwver : BitVec 32
/-- SHA-256 of that image's signed bytes (R412). -/
opaque factoryDigest : Nat → BitVec 8
/-- Byte `i` of the user tag area a part leaves the factory with (R475). -/
opaque emptyTag : Nat → BitVec 8
/-- The certificate chain of SPDM slot 0: its length, its bytes, and whether it parses (R409). -/
opaque chainLength : BitVec 16
opaque chainByte : Nat → BitVec 8
opaque chainParses : Bool

end Sys2Proof.Config
end

