-- ==== Sys2Proof/Machine/RegMap.lean ====
section
/-! DEFINITION. The register map: the address and the fields of every register of R476, and the table
that gives each field its access code, reset value and reserved encodings (R8, R10, R12).

A register's key is its BAR0 offset.  The BAR2 registers that BAR0 does not present (R478) are keyed
`0x0800_0000 + port * 0x0100_0000 +` BAR2 offset.  Names are the manual's: `aX` is the address of register
X, `X_F` its field F. -/

namespace Sys2Proof.Machine

/-- A field of a register: the register's address, the field's lowest bit and its width. -/
structure FRef where
  addr : Nat
  lo : Nat
  width : Nat
  deriving DecidableEq, Repr

/-- The access codes of R8. -/
inductive Acc where
  | rw | ro | wo | w1c | w1s | rcl
  deriving DecidableEq, Repr

/-- One field of a field map: its bits, access, reset value and reserved encodings (closed ranges). -/
structure FieldRow where
  hi : Nat
  lo : Nat
  acc : Acc
  rst : Nat
  bad : List (Nat × Nat)
  deriving DecidableEq, Repr

/-- One row of the register index: base, replication (count and stride, largest stride first), whether it
is 64 bits wide, the grey event of its block (R10), and its fields. -/
structure RegRow where
  base : Nat
  dims : List (Nat × Nat)
  wide : Bool
  grey : Nat
  fields : List FieldRow
  deriving DecidableEq, Repr

/-- Base of the block of queue `q` (R32, R151): the tiles' queues, QCOL_T to QCOL_D, QMGT. -/
def queBase (q : Nat) : Nat :=
  if q < 120 then 0x01080000 + q / 5 * 0x100000 + q % 5 * 0x10000
  else if q < 124 then 0xF00000 + (q - 120) * 0x10000 else 0x1F0000

/-- Base of the flag set and loader registers of set `g` (R152, R175). -/
def setBase (g : Nat) : Nat := if g < 24 then 0x01000000 + g * 0x100000 else 0xF80000

/-- Base of tile `t`'s overflow record `i` (R57). -/
def tileOvfBase (t i : Nat) : Nat := 0x01008000 + t * 0x100000 + i * 0x20

/-- Base of wheel `a`'s overflow record `i` (R56, R341). -/
def wheelOvfBase (a i : Nat) : Nat := 0x508000 + a * 0x10000 + i * 0x20

/-- Address of TIL_GATE (R27). -/
def aTIL_GATE (t : Nat) : Nat := 0x1000010 + t * 0x100000
@[inline] def TIL_GATE_STATE (t : Nat) : FRef := ⟨aTIL_GATE t, 30, 2⟩
@[inline] def TIL_GATE_WAKE (t : Nat) : FRef := ⟨aTIL_GATE t, 29, 1⟩
@[inline] def TIL_GATE_PG_EN (t : Nat) : FRef := ⟨aTIL_GATE t, 24, 1⟩
@[inline] def TIL_GATE_PG_IDLE (t : Nat) : FRef := ⟨aTIL_GATE t, 12, 12⟩
@[inline] def TIL_GATE_CG_IDLE (t : Nat) : FRef := ⟨aTIL_GATE t, 0, 10⟩
/-- Address of GLB_JOBSEED (R50). -/
def aGLB_JOBSEED (n : Nat) : Nat := 0x200 + n * 0x4
@[inline] def GLB_JOBSEED_SEED (n : Nat) : FRef := ⟨aGLB_JOBSEED n, 0, 32⟩
/-- Address of TIL_OVF_W0 (R57). -/
def aTIL_OVF_W0 (b : Nat) : Nat := b + 0x0
@[inline] def TIL_OVF_W0_SAT_COUNT (b : Nat) : FRef := ⟨aTIL_OVF_W0 b, 0, 32⟩
/-- Address of TIL_OVF_W1 (R57). -/
def aTIL_OVF_W1 (b : Nat) : Nat := b + 0x4
@[inline] def TIL_OVF_W1_NAN_COUNT (b : Nat) : FRef := ⟨aTIL_OVF_W1 b, 0, 32⟩
/-- Address of TIL_OVF_W2 (R57). -/
def aTIL_OVF_W2 (b : Nat) : Nat := b + 0x8
@[inline] def TIL_OVF_W2_INF_COUNT (b : Nat) : FRef := ⟨aTIL_OVF_W2 b, 0, 32⟩
/-- Address of TIL_OVF_W3 (R57). -/
def aTIL_OVF_W3 (b : Nat) : Nat := b + 0xC
@[inline] def TIL_OVF_W3_UNF_COUNT (b : Nat) : FRef := ⟨aTIL_OVF_W3 b, 0, 32⟩
/-- Address of TIL_OVF_W4 (R57). -/
def aTIL_OVF_W4 (b : Nat) : Nat := b + 0x10
@[inline] def TIL_OVF_W4_MAX_ABS (b : Nat) : FRef := ⟨aTIL_OVF_W4 b, 0, 32⟩
/-- Address of TIL_OVF_W5 (R57). -/
def aTIL_OVF_W5 (b : Nat) : Nat := b + 0x14
@[inline] def TIL_OVF_W5_FIRST_QUEUE (b : Nat) : FRef := ⟨aTIL_OVF_W5 b, 29, 3⟩
@[inline] def TIL_OVF_W5_FIRST_CMD (b : Nat) : FRef := ⟨aTIL_OVF_W5 b, 16, 13⟩
@[inline] def TIL_OVF_W5_FIRST_STEP (b : Nat) : FRef := ⟨aTIL_OVF_W5 b, 0, 16⟩
/-- Address of TIL_OVF_W6 (R57). -/
def aTIL_OVF_W6 (b : Nat) : Nat := b + 0x18
@[inline] def TIL_OVF_W6_FIRST_ELEM (b : Nat) : FRef := ⟨aTIL_OVF_W6 b, 0, 32⟩
/-- Address of TIL_OVF_W7 (R57). -/
def aTIL_OVF_W7 (b : Nat) : Nat := b + 0x1C
@[inline] def TIL_OVF_W7_CLR (b : Nat) : FRef := ⟨aTIL_OVF_W7 b, 31, 1⟩
@[inline] def TIL_OVF_W7_AUTOCLR (b : Nat) : FRef := ⟨aTIL_OVF_W7 b, 30, 1⟩
@[inline] def TIL_OVF_W7_FIRSTV (b : Nat) : FRef := ⟨aTIL_OVF_W7 b, 1, 1⟩
@[inline] def TIL_OVF_W7_NF (b : Nat) : FRef := ⟨aTIL_OVF_W7 b, 0, 1⟩
/-- Address of MXE_CTRL (R87). -/
def aMXE_CTRL (t m : Nat) : Nat := 0x1010000 + t * 0x100000 + m * 0x10000
@[inline] def MXE_CTRL_CNT_CLR (t m : Nat) : FRef := ⟨aMXE_CTRL t m, 3, 1⟩
@[inline] def MXE_CTRL_ELE_CHK (t m : Nat) : FRef := ⟨aMXE_CTRL t m, 1, 1⟩
@[inline] def MXE_CTRL_HAZ_FREEZE (t m : Nat) : FRef := ⟨aMXE_CTRL t m, 0, 1⟩
/-- Address of MXE_STAT (R87). -/
def aMXE_STAT (t m : Nat) : Nat := 0x1010004 + t * 0x100000 + m * 0x10000
@[inline] def MXE_STAT_ARRAY (t m : Nat) : FRef := ⟨aMXE_STAT t m, 30, 2⟩
@[inline] def MXE_STAT_STV (t m : Nat) : FRef := ⟨aMXE_STAT t m, 29, 1⟩
@[inline] def MXE_STAT_LEVEL (t m : Nat) : FRef := ⟨aMXE_STAT t m, 16, 10⟩
@[inline] def MXE_STAT_ABORT (t m : Nat) : FRef := ⟨aMXE_STAT t m, 3, 1⟩
@[inline] def MXE_STAT_ELEHAZ (t m : Nat) : FRef := ⟨aMXE_STAT t m, 2, 1⟩
@[inline] def MXE_STAT_HAZ (t m : Nat) : FRef := ⟨aMXE_STAT t m, 0, 1⟩
/-- Address of MXE_HAZREC (R87). -/
def aMXE_HAZREC (t m : Nat) : Nat := 0x1010008 + t * 0x100000 + m * 0x10000
@[inline] def MXE_HAZREC_STEP (t m : Nat) : FRef := ⟨aMXE_HAZREC t m, 48, 16⟩
@[inline] def MXE_HAZREC_QUEUE (t m : Nat) : FRef := ⟨aMXE_HAZREC t m, 29, 3⟩
@[inline] def MXE_HAZREC_CMD (t m : Nat) : FRef := ⟨aMXE_HAZREC t m, 16, 13⟩
@[inline] def MXE_HAZREC_BANK (t m : Nat) : FRef := ⟨aMXE_HAZREC t m, 15, 1⟩
@[inline] def MXE_HAZREC_KIND (t m : Nat) : FRef := ⟨aMXE_HAZREC t m, 14, 1⟩
@[inline] def MXE_HAZREC_ROW (t m : Nat) : FRef := ⟨aMXE_HAZREC t m, 0, 11⟩
/-- Address of MXE_DGCTRL (R87). -/
def aMXE_DGCTRL (t m : Nat) : Nat := 0x1010010 + t * 0x100000 + m * 0x10000
@[inline] def MXE_DGCTRL_HOLD (t m : Nat) : FRef := ⟨aMXE_DGCTRL t m, 16, 6⟩
@[inline] def MXE_DGCTRL_RAMP (t m : Nat) : FRef := ⟨aMXE_DGCTRL t m, 0, 8⟩
/-- Address of MXE_DGCNT (R87). -/
def aMXE_DGCNT (t m : Nat) : Nat := 0x1010018 + t * 0x100000 + m * 0x10000
@[inline] def MXE_DGCNT_CNT (t m : Nat) : FRef := ⟨aMXE_DGCNT t m, 0, 64⟩
/-- Address of MXE_STRMCNT (R87). -/
def aMXE_STRMCNT (t m : Nat) : Nat := 0x1010020 + t * 0x100000 + m * 0x10000
@[inline] def MXE_STRMCNT_CNT (t m : Nat) : FRef := ⟨aMXE_STRMCNT t m, 0, 64⟩
/-- Address of MXE_LOADCNT (R87). -/
def aMXE_LOADCNT (t m : Nat) : Nat := 0x1010028 + t * 0x100000 + m * 0x10000
@[inline] def MXE_LOADCNT_CNT (t m : Nat) : FRef := ⟨aMXE_LOADCNT t m, 0, 64⟩
/-- Address of MXE_BVAL0 (R87). -/
def aMXE_BVAL0 (t m n : Nat) : Nat := 0x1010040 + t * 0x100000 + m * 0x10000 + n * 0x4
@[inline] def MXE_BVAL0_VALID (t m n : Nat) : FRef := ⟨aMXE_BVAL0 t m n, 0, 32⟩
/-- Address of MXE_BVAL1 (R87). -/
def aMXE_BVAL1 (t m n : Nat) : Nat := 0x1010050 + t * 0x100000 + m * 0x10000 + n * 0x4
@[inline] def MXE_BVAL1_VALID (t m n : Nat) : FRef := ⟨aMXE_BVAL1 t m n, 0, 32⟩
/-- Address of ELE_CTRL (R115). -/
def aELE_CTRL (t : Nat) : Nat := 0x1030000 + t * 0x100000
@[inline] def ELE_CTRL_PSN_FREEZE (t : Nat) : FRef := ⟨aELE_CTRL t, 2, 1⟩
@[inline] def ELE_CTRL_CNT_CLR (t : Nat) : FRef := ⟨aELE_CTRL t, 0, 1⟩
/-- Address of ELE_STAT (R115). -/
def aELE_STAT (t : Nat) : Nat := 0x1030004 + t * 0x100000
@[inline] def ELE_STAT_STATE (t : Nat) : FRef := ⟨aELE_STAT t, 30, 2⟩
@[inline] def ELE_STAT_SLOT (t : Nat) : FRef := ⟨aELE_STAT t, 16, 4⟩
@[inline] def ELE_STAT_PSN (t : Nat) : FRef := ⟨aELE_STAT t, 2, 1⟩
@[inline] def ELE_STAT_ABORT (t : Nat) : FRef := ⟨aELE_STAT t, 0, 1⟩
/-- Address of ELE_ABORTREC (R115). -/
def aELE_ABORTREC (t : Nat) : Nat := 0x1030008 + t * 0x100000
@[inline] def ELE_ABORTREC_STEP (t : Nat) : FRef := ⟨aELE_ABORTREC t, 48, 16⟩
@[inline] def ELE_ABORTREC_CMD (t : Nat) : FRef := ⟨aELE_ABORTREC t, 16, 13⟩
@[inline] def ELE_ABORTREC_VALID (t : Nat) : FRef := ⟨aELE_ABORTREC t, 0, 1⟩
/-- Address of ELE_BUSYCNT (R115). -/
def aELE_BUSYCNT (t : Nat) : Nat := 0x1030010 + t * 0x100000
@[inline] def ELE_BUSYCNT_CNT (t : Nat) : FRef := ⟨aELE_BUSYCNT t, 0, 64⟩
/-- Address of ELE_ELEMCNT (R115). -/
def aELE_ELEMCNT (t : Nat) : Nat := 0x1030018 + t * 0x100000
@[inline] def ELE_ELEMCNT_CNT (t : Nat) : FRef := ⟨aELE_ELEMCNT t, 0, 64⟩
/-- Address of ELE_PROG (R115). -/
def aELE_PROG (t s u : Nat) : Nat := 0x1031000 + t * 0x100000 + s * 0x80 + u * 0x4
@[inline] def ELE_PROG_UOP (t s u : Nat) : FRef := ⟨aELE_PROG t s u, 0, 32⟩
/-- Address of QUE_CTRL (R151). -/
def aQUE_CTRL (q : Nat) : Nat := queBase q + 0x0
@[inline] def QUE_CTRL_QRESET (q : Nat) : FRef := ⟨aQUE_CTRL q, 6, 1⟩
@[inline] def QUE_CTRL_THAWNEXT (q : Nat) : FRef := ⟨aQUE_CTRL q, 5, 1⟩
@[inline] def QUE_CTRL_THAW (q : Nat) : FRef := ⟨aQUE_CTRL q, 4, 1⟩
@[inline] def QUE_CTRL_PARKREQ (q : Nat) : FRef := ⟨aQUE_CTRL q, 3, 1⟩
@[inline] def QUE_CTRL_RESUME (q : Nat) : FRef := ⟨aQUE_CTRL q, 2, 1⟩
@[inline] def QUE_CTRL_START (q : Nat) : FRef := ⟨aQUE_CTRL q, 1, 1⟩
/-- Address of QUE_STAT (R151). -/
def aQUE_STAT (q : Nat) : Nat := queBase q + 0x4
@[inline] def QUE_STAT_STATE (q : Nat) : FRef := ⟨aQUE_STAT q, 29, 3⟩
@[inline] def QUE_STAT_PC (q : Nat) : FRef := ⟨aQUE_STAT q, 16, 13⟩
@[inline] def QUE_STAT_INLIB (q : Nat) : FRef := ⟨aQUE_STAT q, 15, 1⟩
@[inline] def QUE_STAT_WHY (q : Nat) : FRef := ⟨aQUE_STAT q, 13, 2⟩
@[inline] def QUE_STAT_WFLAG (q : Nat) : FRef := ⟨aQUE_STAT q, 0, 9⟩
/-- Address of QUE_PROG (R151). -/
def aQUE_PROG (q : Nat) : Nat := queBase q + 0x8
@[inline] def QUE_PROG_LEN (q : Nat) : FRef := ⟨aQUE_PROG q, 0, 14⟩
/-- Address of QUE_PASSLIM (R151). -/
def aQUE_PASSLIM (q : Nat) : Nat := queBase q + 0xC
@[inline] def QUE_PASSLIM_PASSES (q : Nat) : FRef := ⟨aQUE_PASSLIM q, 0, 32⟩
/-- Address of QUE_PASS (R151). -/
def aQUE_PASS (q : Nat) : Nat := queBase q + 0x10
@[inline] def QUE_PASS_PASS (q : Nat) : FRef := ⟨aQUE_PASS q, 0, 32⟩
/-- Address of QUE_WAITLIM (R151). -/
def aQUE_WAITLIM (q : Nat) : Nat := queBase q + 0x14
@[inline] def QUE_WAITLIM_LIMIT (q : Nat) : FRef := ⟨aQUE_WAITLIM q, 0, 24⟩
/-- Address of QUE_POSTREC (R151). -/
def aQUE_POSTREC (q : Nat) : Nat := queBase q + 0x18
@[inline] def QUE_POSTREC_LAST (q : Nat) : FRef := ⟨aQUE_POSTREC q, 28, 4⟩
@[inline] def QUE_POSTREC_ABORTCNT (q : Nat) : FRef := ⟨aQUE_POSTREC q, 0, 16⟩
/-- Address of QUE_FREEZEREC (R151). -/
def aQUE_FREEZEREC (q : Nat) : Nat := queBase q + 0x20
@[inline] def QUE_FREEZEREC_CODE (q : Nat) : FRef := ⟨aQUE_FREEZEREC q, 48, 16⟩
@[inline] def QUE_FREEZEREC_STEP (q : Nat) : FRef := ⟨aQUE_FREEZEREC q, 32, 16⟩
@[inline] def QUE_FREEZEREC_VALID (q : Nat) : FRef := ⟨aQUE_FREEZEREC q, 31, 1⟩
@[inline] def QUE_FREEZEREC_RESUME (q : Nat) : FRef := ⟨aQUE_FREEZEREC q, 30, 1⟩
@[inline] def QUE_FREEZEREC_INLIB (q : Nat) : FRef := ⟨aQUE_FREEZEREC q, 29, 1⟩
@[inline] def QUE_FREEZEREC_CMD (q : Nat) : FRef := ⟨aQUE_FREEZEREC q, 16, 13⟩
@[inline] def QUE_FREEZEREC_FLAG (q : Nat) : FRef := ⟨aQUE_FREEZEREC q, 0, 9⟩
/-- Address of QUE_CMDCNT (R151). -/
def aQUE_CMDCNT (q : Nat) : Nat := queBase q + 0x28
@[inline] def QUE_CMDCNT_CNT (q : Nat) : FRef := ⟨aQUE_CMDCNT q, 0, 64⟩
/-- Address of QUE_WAITCNT (R151). -/
def aQUE_WAITCNT (q : Nat) : Nat := queBase q + 0x30
@[inline] def QUE_WAITCNT_CNT (q : Nat) : FRef := ⟨aQUE_WAITCNT q, 0, 64⟩
/-- Address of QUE_PARK (R175). -/
def aQUE_PARK (q : Nat) : Nat := queBase q + 0x38
@[inline] def QUE_PARK_ANY (q : Nat) : FRef := ⟨aQUE_PARK q, 0, 1⟩
/-- Address of QUE_BASE (R151). -/
def aQUE_BASE (q n : Nat) : Nat := queBase q + 0x100 + n * 0x8
@[inline] def QUE_BASE_BR (q n : Nat) : FRef := ⟨aQUE_BASE q n, 0, 64⟩
/-- Address of QUE_BSTART (R151). -/
def aQUE_BSTART (q n : Nat) : Nat := queBase q + 0x180 + n * 0x8
@[inline] def QUE_BSTART_START (q n : Nat) : FRef := ⟨aQUE_BSTART q n, 0, 64⟩
/-- Address of QUE_BINC (R151). -/
def aQUE_BINC (q n : Nat) : Nat := queBase q + 0x200 + n * 0x8
@[inline] def QUE_BINC_INC (q n : Nat) : FRef := ⟨aQUE_BINC q n, 0, 48⟩
/-- Address of QUE_BMOD (R151). -/
def aQUE_BMOD (q n : Nat) : Nat := queBase q + 0x280 + n * 0x4
@[inline] def QUE_BMOD_IDX (q n : Nat) : FRef := ⟨aQUE_BMOD q n, 16, 16⟩
@[inline] def QUE_BMOD_MOD (q n : Nat) : FRef := ⟨aQUE_BMOD q n, 0, 16⟩
/-- Address of TIL_PRED (R152). -/
def aTIL_PRED (g : Nat) : Nat := setBase g + 0x20
@[inline] def TIL_PRED_P (g : Nat) : FRef := ⟨aTIL_PRED g, 0, 64⟩
/-- Address of TIL_STEP (R152). -/
def aTIL_STEP (g : Nat) : Nat := setBase g + 0x28
@[inline] def TIL_STEP_STEP (g : Nat) : FRef := ⟨aTIL_STEP g, 0, 40⟩
/-- Address of TIL_FLAG (R152). -/
def aTIL_FLAG (g n : Nat) : Nat := setBase g + 0x1000 + n * 0x4
@[inline] def TIL_FLAG_VALUE (g n : Nat) : FRef := ⟨aTIL_FLAG g n, 0, 16⟩
/-- Address of TIL_FLAGADD (R152). -/
def aTIL_FLAGADD (g n : Nat) : Nat := setBase g + 0x2000 + n * 0x4
@[inline] def TIL_FLAGADD_ADD (g n : Nat) : FRef := ⟨aTIL_FLAGADD g n, 0, 8⟩
/-- Address of TIL_FPER (R152). -/
def aTIL_FPER (g n : Nat) : Nat := setBase g + 0x3000 + n * 0x4
@[inline] def TIL_FPER_PER (g n : Nat) : FRef := ⟨aTIL_FPER g n, 0, 16⟩
/-- Address of TIL_FLAGLINK (R152). -/
def aTIL_FLAGLINK (g k : Nat) : Nat := setBase g + 0x4000 + k * 0x8
@[inline] def TIL_FLAGLINK_DSTDEV (g k : Nat) : FRef := ⟨aTIL_FLAGLINK g k, 48, 16⟩
@[inline] def TIL_FLAGLINK_RGEN (g k : Nat) : FRef := ⟨aTIL_FLAGLINK g k, 32, 16⟩
@[inline] def TIL_FLAGLINK_EN (g k : Nat) : FRef := ⟨aTIL_FLAGLINK g k, 31, 1⟩
@[inline] def TIL_FLAGLINK_DSET (g k : Nat) : FRef := ⟨aTIL_FLAGLINK g k, 30, 1⟩
@[inline] def TIL_FLAGLINK_DTILE (g k : Nat) : FRef := ⟨aTIL_FLAGLINK g k, 25, 5⟩
@[inline] def TIL_FLAGLINK_DFLAG (g k : Nat) : FRef := ⟨aTIL_FLAGLINK g k, 16, 9⟩
@[inline] def TIL_FLAGLINK_UNREACH (g k : Nat) : FRef := ⟨aTIL_FLAGLINK g k, 1, 1⟩
@[inline] def TIL_FLAGLINK_STALE (g k : Nat) : FRef := ⟨aTIL_FLAGLINK g k, 0, 1⟩
/-- Address of TIL_LDCTRL (R175). -/
def aTIL_LDCTRL (g : Nat) : Nat := setBase g + 0x100
@[inline] def TIL_LDCTRL_PARKALL (g : Nat) : FRef := ⟨aTIL_LDCTRL g, 7, 1⟩
@[inline] def TIL_LDCTRL_SAVE (g : Nat) : FRef := ⟨aTIL_LDCTRL g, 6, 1⟩
@[inline] def TIL_LDCTRL_GO (g : Nat) : FRef := ⟨aTIL_LDCTRL g, 5, 1⟩
@[inline] def TIL_LDCTRL_AUTOSTART (g : Nat) : FRef := ⟨aTIL_LDCTRL g, 4, 1⟩
@[inline] def TIL_LDCTRL_MEAS (g : Nat) : FRef := ⟨aTIL_LDCTRL g, 3, 1⟩
@[inline] def TIL_LDCTRL_MODE (g : Nat) : FRef := ⟨aTIL_LDCTRL g, 0, 2⟩
/-- Address of TIL_LDSTAT (R175). -/
def aTIL_LDSTAT (g : Nat) : Nat := setBase g + 0x104
@[inline] def TIL_LDSTAT_STATE (g : Nat) : FRef := ⟨aTIL_LDSTAT g, 29, 3⟩
@[inline] def TIL_LDSTAT_MV (g : Nat) : FRef := ⟨aTIL_LDSTAT g, 28, 1⟩
@[inline] def TIL_LDSTAT_REFUSE (g : Nat) : FRef := ⟨aTIL_LDSTAT g, 24, 4⟩
@[inline] def TIL_LDSTAT_PASSCNT (g : Nat) : FRef := ⟨aTIL_LDSTAT g, 0, 16⟩
/-- Address of TIL_LDLEN (R175). -/
def aTIL_LDLEN (g : Nat) : Nat := setBase g + 0x108
@[inline] def TIL_LDLEN_LEN (g : Nat) : FRef := ⟨aTIL_LDLEN g, 0, 32⟩
/-- Address of TIL_LDLIM (R175). -/
def aTIL_LDLIM (g : Nat) : Nat := setBase g + 0x10C
@[inline] def TIL_LDLIM_CMDLIM (g : Nat) : FRef := ⟨aTIL_LDLIM g, 0, 12⟩
/-- Address of TIL_LDSRC (R175). -/
def aTIL_LDSRC (g : Nat) : Nat := setBase g + 0x110
@[inline] def TIL_LDSRC_SRC (g : Nat) : FRef := ⟨aTIL_LDSRC g, 0, 48⟩
/-- Address of TIL_LDRSM (R175). -/
def aTIL_LDRSM (g : Nat) : Nat := setBase g + 0x118
@[inline] def TIL_LDRSM_RSM (g : Nat) : FRef := ⟨aTIL_LDRSM g, 0, 48⟩
/-- Address of TIL_LDREJ (R175). -/
def aTIL_LDREJ (g : Nat) : Nat := setBase g + 0x120
@[inline] def TIL_LDREJ_CODE (g : Nat) : FRef := ⟨aTIL_LDREJ g, 48, 16⟩
@[inline] def TIL_LDREJ_QUEUE (g : Nat) : FRef := ⟨aTIL_LDREJ g, 45, 3⟩
@[inline] def TIL_LDREJ_INDEX (g : Nat) : FRef := ⟨aTIL_LDREJ g, 32, 13⟩
/-- Address of TIL_LDDET (R175). -/
def aTIL_LDDET (g : Nat) : Nat := setBase g + 0x128
@[inline] def TIL_LDDET_DET (g : Nat) : FRef := ⟨aTIL_LDDET g, 0, 64⟩
/-- Address of TIL_LDMEAS (R175). -/
def aTIL_LDMEAS (g k : Nat) : Nat := setBase g + 0x140 + k * 0x4
@[inline] def TIL_LDMEAS_DIGEST (g k : Nat) : FRef := ⟨aTIL_LDMEAS g k, 0, 32⟩
/-- Address of TIL_GRANTBASE (R175). -/
def aTIL_GRANTBASE (t w : Nat) : Nat := 0x1000200 + t * 0x100000 + w * 0x10
@[inline] def TIL_GRANTBASE_BASE (t w : Nat) : FRef := ⟨aTIL_GRANTBASE t w, 12, 36⟩
@[inline] def TIL_GRANTBASE_W (t w : Nat) : FRef := ⟨aTIL_GRANTBASE t w, 1, 1⟩
@[inline] def TIL_GRANTBASE_R (t w : Nat) : FRef := ⟨aTIL_GRANTBASE t w, 0, 1⟩
/-- Address of TIL_GRANTLIM (R175). -/
def aTIL_GRANTLIM (t w : Nat) : Nat := 0x1000208 + t * 0x100000 + w * 0x10
@[inline] def TIL_GRANTLIM_LIMIT (t w : Nat) : FRef := ⟨aTIL_GRANTLIM t w, 12, 36⟩
/-- Address of FLM_CTRL (R214). -/
def aFLM_CTRL (t f : Nat) : Nat := 0x1040000 + t * 0x100000 + f * 0x10000
@[inline] def FLM_CTRL_PSN_FREEZE (t f : Nat) : FRef := ⟨aFLM_CTRL t f, 2, 1⟩
@[inline] def FLM_CTRL_CNT_CLR (t f : Nat) : FRef := ⟨aFLM_CTRL t f, 0, 1⟩
/-- Address of FLM_STAT (R214). -/
def aFLM_STAT (t f : Nat) : Nat := 0x1040004 + t * 0x100000 + f * 0x10000
@[inline] def FLM_STAT_STATE (t f : Nat) : FRef := ⟨aFLM_STAT t f, 30, 2⟩
@[inline] def FLM_STAT_INFL (t f : Nat) : FRef := ⟨aFLM_STAT t f, 4, 4⟩
@[inline] def FLM_STAT_TPSN (t f : Nat) : FRef := ⟨aFLM_STAT t f, 3, 1⟩
@[inline] def FLM_STAT_PSN (t f : Nat) : FRef := ⟨aFLM_STAT t f, 2, 1⟩
@[inline] def FLM_STAT_ABORT (t f : Nat) : FRef := ⟨aFLM_STAT t f, 0, 1⟩
/-- Address of FLM_ABORTREC (R214). -/
def aFLM_ABORTREC (t f : Nat) : Nat := 0x1040008 + t * 0x100000 + f * 0x10000
@[inline] def FLM_ABORTREC_STEP (t f : Nat) : FRef := ⟨aFLM_ABORTREC t f, 48, 16⟩
@[inline] def FLM_ABORTREC_CMD (t f : Nat) : FRef := ⟨aFLM_ABORTREC t f, 16, 13⟩
@[inline] def FLM_ABORTREC_VALID (t f : Nat) : FRef := ⟨aFLM_ABORTREC t f, 0, 1⟩
/-- Address of FLM_BYTECNT (R214). -/
def aFLM_BYTECNT (t f : Nat) : Nat := 0x1040010 + t * 0x100000 + f * 0x10000
@[inline] def FLM_BYTECNT_CNT (t f : Nat) : FRef := ⟨aFLM_BYTECNT t f, 0, 64⟩
/-- Address of FLM_MIRCNT (R214). -/
def aFLM_MIRCNT (t f : Nat) : Nat := 0x1040018 + t * 0x100000 + f * 0x10000
@[inline] def FLM_MIRCNT_CNT (t f : Nat) : FRef := ⟨aFLM_MIRCNT t f, 0, 64⟩
/-- Address of FLM_TINT (R214). -/
def aFLM_TINT (t f n : Nat) : Nat := 0x1040100 + t * 0x100000 + f * 0x10000 + n * 0x8
@[inline] def FLM_TINT_TINT (t f n : Nat) : FRef := ⟨aFLM_TINT t f n, 0, 64⟩
/-- Address of FLM_TORG (R214). -/
def aFLM_TORG (t f n : Nat) : Nat := 0x1040140 + t * 0x100000 + f * 0x10000 + n * 0x8
@[inline] def FLM_TORG_ORIGIN (t f n : Nat) : FRef := ⟨aFLM_TORG t f n, 0, 48⟩
/-- Address of HBC_CTRL (R215). -/
def aHBC_CTRL : Nat := 0x3000000
@[inline] def HBC_CTRL_CNT_CLR : FRef := ⟨aHBC_CTRL, 2, 1⟩
@[inline] def HBC_CTRL_WBACK : FRef := ⟨aHBC_CTRL, 1, 1⟩
@[inline] def HBC_CTRL_SCRUB_EN : FRef := ⟨aHBC_CTRL, 0, 1⟩
/-- Address of HBC_SCRUB (R215). -/
def aHBC_SCRUB : Nat := 0x3000004
@[inline] def HBC_SCRUB_PERIOD : FRef := ⟨aHBC_SCRUB, 0, 8⟩
/-- Address of HBC_ERRTHR (R215). -/
def aHBC_ERRTHR : Nat := 0x3000008
@[inline] def HBC_ERRTHR_THR : FRef := ⟨aHBC_ERRTHR, 0, 8⟩
/-- Address of HBC_SHARE (R215). -/
def aHBC_SHARE (c : Nat) : Nat := 0x3000020 + c * 0x4
@[inline] def HBC_SHARE_WEIGHT (c : Nat) : FRef := ⟨aHBC_SHARE c, 0, 6⟩
/-- Address of HBC_STAT (R215). -/
def aHBC_STAT (s : Nat) : Nat := 0x3001000 + s * 0x40
@[inline] def HBC_STAT_STATE (s : Nat) : FRef := ⟨aHBC_STAT s, 30, 2⟩
@[inline] def HBC_STAT_EXT (s : Nat) : FRef := ⟨aHBC_STAT s, 29, 1⟩
/-- Address of HBC_CECNT (R215). -/
def aHBC_CECNT (s : Nat) : Nat := 0x3001008 + s * 0x40
@[inline] def HBC_CECNT_CNT (s : Nat) : FRef := ⟨aHBC_CECNT s, 0, 64⟩
/-- Address of HBC_UECNT (R215). -/
def aHBC_UECNT (s : Nat) : Nat := 0x3001010 + s * 0x40
@[inline] def HBC_UECNT_CNT (s : Nat) : FRef := ⟨aHBC_UECNT s, 0, 64⟩
/-- Address of HBC_LASTERR (R215). -/
def aHBC_LASTERR (s : Nat) : Nat := 0x3001018 + s * 0x40
@[inline] def HBC_LASTERR_KIND (s : Nat) : FRef := ⟨aHBC_LASTERR s, 62, 2⟩
@[inline] def HBC_LASTERR_ADDR (s : Nat) : FRef := ⟨aHBC_LASTERR s, 0, 48⟩
/-- Address of LPC_CTRL (R216). -/
def aLPC_CTRL : Nat := 0x3400000
@[inline] def LPC_CTRL_CNT_CLR : FRef := ⟨aLPC_CTRL, 2, 1⟩
@[inline] def LPC_CTRL_WBACK : FRef := ⟨aLPC_CTRL, 1, 1⟩
@[inline] def LPC_CTRL_SCRUB_EN : FRef := ⟨aLPC_CTRL, 0, 1⟩
/-- Address of LPC_SCRUB (R216). -/
def aLPC_SCRUB : Nat := 0x3400004
@[inline] def LPC_SCRUB_PERIOD : FRef := ⟨aLPC_SCRUB, 0, 8⟩
/-- Address of LPC_ERRTHR (R216). -/
def aLPC_ERRTHR : Nat := 0x3400008
@[inline] def LPC_ERRTHR_THR : FRef := ⟨aLPC_ERRTHR, 0, 8⟩
/-- Address of LPC_SHARE (R216). -/
def aLPC_SHARE (c : Nat) : Nat := 0x3400020 + c * 0x4
@[inline] def LPC_SHARE_WEIGHT (c : Nat) : FRef := ⟨aLPC_SHARE c, 0, 6⟩
/-- Address of LPC_STAT (R216). -/
def aLPC_STAT (k : Nat) : Nat := 0x3401000 + k * 0x40
@[inline] def LPC_STAT_STATE (k : Nat) : FRef := ⟨aLPC_STAT k, 30, 2⟩
/-- Address of LPC_CECNT (R216). -/
def aLPC_CECNT (k : Nat) : Nat := 0x3401008 + k * 0x40
@[inline] def LPC_CECNT_CNT (k : Nat) : FRef := ⟨aLPC_CECNT k, 0, 64⟩
/-- Address of LPC_UECNT (R216). -/
def aLPC_UECNT (k : Nat) : Nat := 0x3401010 + k * 0x40
@[inline] def LPC_UECNT_CNT (k : Nat) : FRef := ⟨aLPC_UECNT k, 0, 64⟩
/-- Address of LPC_LASTERR (R216). -/
def aLPC_LASTERR (k : Nat) : Nat := 0x3401018 + k * 0x40
@[inline] def LPC_LASTERR_KIND (k : Nat) : FRef := ⟨aLPC_LASTERR k, 62, 2⟩
@[inline] def LPC_LASTERR_ADDR (k : Nat) : FRef := ⟨aLPC_LASTERR k, 0, 48⟩
/-- Address of LPC_MIRCTL (R216). -/
def aLPC_MIRCTL : Nat := 0x3400100
@[inline] def LPC_MIRCTL_LOCK : FRef := ⟨aLPC_MIRCTL, 1, 1⟩
@[inline] def LPC_MIRCTL_EN : FRef := ⟨aLPC_MIRCTL, 0, 1⟩
/-- Address of LPC_MIRPART (R216). -/
def aLPC_MIRPART : Nat := 0x3400108
@[inline] def LPC_MIRPART_PARTNER : FRef := ⟨aLPC_MIRPART, 48, 16⟩
@[inline] def LPC_MIRPART_PRGEN : FRef := ⟨aLPC_MIRPART, 32, 16⟩
@[inline] def LPC_MIRPART_INSRC : FRef := ⟨aLPC_MIRPART, 16, 16⟩
/-- Address of LPC_MIRSTAT (R216). -/
def aLPC_MIRSTAT : Nat := 0x3400110
@[inline] def LPC_MIRSTAT_LOST : FRef := ⟨aLPC_MIRSTAT, 31, 1⟩
@[inline] def LPC_MIRSTAT_REFUSED : FRef := ⟨aLPC_MIRSTAT, 30, 1⟩
@[inline] def LPC_MIRSTAT_ACTIVE : FRef := ⟨aLPC_MIRSTAT, 0, 16⟩
/-- Address of LPC_MIRUNMIR (R216). -/
def aLPC_MIRUNMIR : Nat := 0x3400114
@[inline] def LPC_MIRUNMIR_CNT : FRef := ⟨aLPC_MIRUNMIR, 0, 32⟩
/-- Address of LPC_MIRBASE (R216). -/
def aLPC_MIRBASE (r : Nat) : Nat := 0x3400200 + r * 0x20
@[inline] def LPC_MIRBASE_BASE (r : Nat) : FRef := ⟨aLPC_MIRBASE r, 12, 36⟩
@[inline] def LPC_MIRBASE_EN (r : Nat) : FRef := ⟨aLPC_MIRBASE r, 0, 1⟩
/-- Address of LPC_MIRLIM (R216). -/
def aLPC_MIRLIM (r : Nat) : Nat := 0x3400208 + r * 0x20
@[inline] def LPC_MIRLIM_LIMIT (r : Nat) : FRef := ⟨aLPC_MIRLIM r, 12, 36⟩
/-- Address of LPC_MIRDST (R216). -/
def aLPC_MIRDST (r : Nat) : Nat := 0x3400210 + r * 0x20
@[inline] def LPC_MIRDST_DST (r : Nat) : FRef := ⟨aLPC_MIRDST r, 12, 26⟩
/-- Address of LPC_MIRDONE (R216). -/
def aLPC_MIRDONE (r : Nat) : Nat := 0x3400218 + r * 0x20
@[inline] def LPC_MIRDONE_VALID (r : Nat) : FRef := ⟨aLPC_MIRDONE r, 63, 1⟩
@[inline] def LPC_MIRDONE_STEP (r : Nat) : FRef := ⟨aLPC_MIRDONE r, 0, 40⟩
/-- Address of LNK_CTRL (R281). -/
def aLNK_CTRL (n : Nat) : Nat := 0x400000 + n * 0x1000
@[inline] def LNK_CTRL_CNT_CLR (n : Nat) : FRef := ⟨aLNK_CTRL n, 7, 1⟩
@[inline] def LNK_CTRL_LPM (n : Nat) : FRef := ⟨aLNK_CTRL n, 6, 1⟩
@[inline] def LNK_CTRL_AUTORETRAIN (n : Nat) : FRef := ⟨aLNK_CTRL n, 5, 1⟩
@[inline] def LNK_CTRL_RETRAIN (n : Nat) : FRef := ⟨aLNK_CTRL n, 4, 1⟩
@[inline] def LNK_CTRL_PARK (n : Nat) : FRef := ⟨aLNK_CTRL n, 3, 1⟩
@[inline] def LNK_CTRL_EN (n : Nat) : FRef := ⟨aLNK_CTRL n, 0, 1⟩
/-- Address of LNK_STAT (R281). -/
def aLNK_STAT (n : Nat) : Nat := 0x400004 + n * 0x1000
@[inline] def LNK_STAT_STATE (n : Nat) : FRef := ⟨aLNK_STAT n, 29, 3⟩
@[inline] def LNK_STAT_REASON (n : Nat) : FRef := ⟨aLNK_STAT n, 25, 4⟩
@[inline] def LNK_STAT_FCAUSE (n : Nat) : FRef := ⟨aLNK_STAT n, 22, 3⟩
@[inline] def LNK_STAT_FLAPS (n : Nat) : FRef := ⟨aLNK_STAT n, 16, 3⟩
@[inline] def LNK_STAT_NPV (n : Nat) : FRef := ⟨aLNK_STAT n, 12, 4⟩
@[inline] def LNK_STAT_LOCK (n : Nat) : FRef := ⟨aLNK_STAT n, 11, 1⟩
@[inline] def LNK_STAT_LP (n : Nat) : FRef := ⟨aLNK_STAT n, 10, 1⟩
/-- Address of LNK_CFG (R281). -/
def aLNK_CFG (n : Nat) : Nat := 0x400008 + n * 0x1000
@[inline] def LNK_CFG_PORT (n : Nat) : FRef := ⟨aLNK_CFG n, 8, 4⟩
@[inline] def LNK_CFG_MEDIA (n : Nat) : FRef := ⟨aLNK_CFG n, 1, 1⟩
@[inline] def LNK_CFG_RATE (n : Nat) : FRef := ⟨aLNK_CFG n, 0, 1⟩
/-- Address of LNK_VCTHR (R281). -/
def aLNK_VCTHR (n : Nat) : Nat := 0x40000C + n * 0x1000
@[inline] def LNK_VCTHR_XON (n : Nat) : FRef := ⟨aLNK_VCTHR n, 16, 6⟩
@[inline] def LNK_VCTHR_XOFF (n : Nat) : FRef := ⟨aLNK_VCTHR n, 0, 6⟩
/-- Address of LNK_RETRY (R281). -/
def aLNK_RETRY (n : Nat) : Nat := 0x400010 + n * 0x1000
@[inline] def LNK_RETRY_MAX (n : Nat) : FRef := ⟨aLNK_RETRY n, 24, 4⟩
@[inline] def LNK_RETRY_HOLD (n : Nat) : FRef := ⟨aLNK_RETRY n, 16, 8⟩
@[inline] def LNK_RETRY_TMO (n : Nat) : FRef := ⟨aLNK_RETRY n, 0, 16⟩
/-- Address of LNK_FECTHR (R281). -/
def aLNK_FECTHR (n : Nat) : Nat := 0x400014 + n * 0x1000
@[inline] def LNK_FECTHR_UCW (n : Nat) : FRef := ⟨aLNK_FECTHR n, 16, 16⟩
@[inline] def LNK_FECTHR_UCWFAIL (n : Nat) : FRef := ⟨aLNK_FECTHR n, 15, 1⟩
@[inline] def LNK_FECTHR_SYM (n : Nat) : FRef := ⟨aLNK_FECTHR n, 0, 15⟩
/-- Address of LNK_TEST (R281). -/
def aLNK_TEST (n : Nat) : Nat := 0x400018 + n * 0x1000
@[inline] def LNK_TEST_LOOP (n : Nat) : FRef := ⟨aLNK_TEST n, 3, 1⟩
@[inline] def LNK_TEST_CHK (n : Nat) : FRef := ⟨aLNK_TEST n, 2, 1⟩
@[inline] def LNK_TEST_PATTERN (n : Nat) : FRef := ⟨aLNK_TEST n, 0, 2⟩
/-- Address of LNK_PLAN (R281). -/
def aLNK_PLAN (n : Nat) : Nat := 0x400020 + n * 0x1000
@[inline] def LNK_PLAN_STATE (n : Nat) : FRef := ⟨aLNK_PLAN n, 62, 2⟩
@[inline] def LNK_PLAN_EXPLINK (n : Nat) : FRef := ⟨aLNK_PLAN n, 51, 5⟩
@[inline] def LNK_PLAN_EXPLPORT (n : Nat) : FRef := ⟨aLNK_PLAN n, 48, 3⟩
@[inline] def LNK_PLAN_EXPCOORD (n : Nat) : FRef := ⟨aLNK_PLAN n, 24, 24⟩
/-- Address of LNK_PLANSER (R281). -/
def aLNK_PLANSER (n : Nat) : Nat := 0x400028 + n * 0x1000
@[inline] def LNK_PLANSER_SERIAL (n : Nat) : FRef := ⟨aLNK_PLANSER n, 0, 64⟩
/-- Address of LNK_NBR (R281). -/
def aLNK_NBR (n : Nat) : Nat := 0x400030 + n * 0x1000
@[inline] def LNK_NBR_DEVID (n : Nat) : FRef := ⟨aLNK_NBR n, 48, 16⟩
@[inline] def LNK_NBR_COORD (n : Nat) : FRef := ⟨aLNK_NBR n, 24, 24⟩
@[inline] def LNK_NBR_NPV (n : Nat) : FRef := ⟨aLNK_NBR n, 20, 4⟩
@[inline] def LNK_NBR_LPORT (n : Nat) : FRef := ⟨aLNK_NBR n, 16, 4⟩
@[inline] def LNK_NBR_LINK (n : Nat) : FRef := ⟨aLNK_NBR n, 11, 5⟩
@[inline] def LNK_NBR_FLAGS (n : Nat) : FRef := ⟨aLNK_NBR n, 0, 4⟩
/-- Address of LNK_NBRSER (R281). -/
def aLNK_NBRSER (n : Nat) : Nat := 0x400038 + n * 0x1000
@[inline] def LNK_NBRSER_SERIAL (n : Nat) : FRef := ⟨aLNK_NBRSER n, 0, 64⟩
/-- Address of LNK_NBRVER (R281). -/
def aLNK_NBRVER (n : Nat) : Nat := 0x400040 + n * 0x1000
@[inline] def LNK_NBRVER_RGEN (n : Nat) : FRef := ⟨aLNK_NBRVER n, 48, 16⟩
@[inline] def LNK_NBRVER_PVSET (n : Nat) : FRef := ⟨aLNK_NBRVER n, 32, 16⟩
@[inline] def LNK_NBRVER_FWVER (n : Nat) : FRef := ⟨aLNK_NBRVER n, 0, 32⟩
/-- Address of LNK_TXCELLS (R281). -/
def aLNK_TXCELLS (n : Nat) : Nat := 0x400080 + n * 0x1000
@[inline] def LNK_TXCELLS_CNT (n : Nat) : FRef := ⟨aLNK_TXCELLS n, 0, 64⟩
/-- Address of LNK_RXCELLS (R281). -/
def aLNK_RXCELLS (n : Nat) : Nat := 0x400088 + n * 0x1000
@[inline] def LNK_RXCELLS_CNT (n : Nat) : FRef := ⟨aLNK_RXCELLS n, 0, 64⟩
/-- Address of LNK_REPLAY (R281). -/
def aLNK_REPLAY (n : Nat) : Nat := 0x400090 + n * 0x1000
@[inline] def LNK_REPLAY_CNT (n : Nat) : FRef := ⟨aLNK_REPLAY n, 0, 64⟩
/-- Address of LNK_CRCERR (R281). -/
def aLNK_CRCERR (n : Nat) : Nat := 0x400098 + n * 0x1000
@[inline] def LNK_CRCERR_CNT (n : Nat) : FRef := ⟨aLNK_CRCERR n, 0, 64⟩
/-- Address of LNK_FECCW (R281). -/
def aLNK_FECCW (n : Nat) : Nat := 0x4000A0 + n * 0x1000
@[inline] def LNK_FECCW_CNT (n : Nat) : FRef := ⟨aLNK_FECCW n, 0, 64⟩
/-- Address of LNK_FECSYM (R281). -/
def aLNK_FECSYM (n : Nat) : Nat := 0x4000A8 + n * 0x1000
@[inline] def LNK_FECSYM_CNT (n : Nat) : FRef := ⟨aLNK_FECSYM n, 0, 64⟩
/-- Address of LNK_FECUCW (R281). -/
def aLNK_FECUCW (n : Nat) : Nat := 0x4000B0 + n * 0x1000
@[inline] def LNK_FECUCW_CNT (n : Nat) : FRef := ⟨aLNK_FECUCW n, 0, 64⟩
/-- Address of LNK_OVRCNT (R281). -/
def aLNK_OVRCNT (n : Nat) : Nat := 0x4000B8 + n * 0x1000
@[inline] def LNK_OVRCNT_CNT (n : Nat) : FRef := ⟨aLNK_OVRCNT n, 0, 64⟩
/-- Address of LNK_DROPCNT (R281). -/
def aLNK_DROPCNT (n : Nat) : Nat := 0x4000C0 + n * 0x1000
@[inline] def LNK_DROPCNT_CNT (n : Nat) : FRef := ⟨aLNK_DROPCNT n, 0, 64⟩
/-- Address of LNK_TESTERR (R281). -/
def aLNK_TESTERR (n : Nat) : Nat := 0x4000C8 + n * 0x1000
@[inline] def LNK_TESTERR_CNT (n : Nat) : FRef := ⟨aLNK_TESTERR n, 0, 64⟩
/-- Address of LNK_VCFREE (R281). -/
def aLNK_VCFREE (n v : Nat) : Nat := 0x400100 + n * 0x1000 + v * 0x4
@[inline] def LNK_VCFREE_FREE (n v : Nat) : FRef := ⟨aLNK_VCFREE n v, 0, 17⟩
/-- Address of LNK_HOSTEQ (R281). -/
def aLNK_HOSTEQ (n k : Nat) : Nat := 0x400140 + n * 0x1000 + k * 0x4
@[inline] def LNK_HOSTEQ_VALID (n k : Nat) : FRef := ⟨aLNK_HOSTEQ n k, 31, 1⟩
@[inline] def LNK_HOSTEQ_CM2 (n k : Nat) : FRef := ⟨aLNK_HOSTEQ n k, 18, 6⟩
@[inline] def LNK_HOSTEQ_CM1 (n k : Nat) : FRef := ⟨aLNK_HOSTEQ n k, 12, 6⟩
@[inline] def LNK_HOSTEQ_C1 (n k : Nat) : FRef := ⟨aLNK_HOSTEQ n k, 6, 6⟩
/-- Address of PRT_CFG (R282). -/
def aPRT_CFG (p : Nat) : Nat := 0x420000 + p * 0x100
@[inline] def PRT_CFG_NOMLINKS (p : Nat) : FRef := ⟨aPRT_CFG p, 8, 4⟩
@[inline] def PRT_CFG_MODE (p : Nat) : FRef := ⟨aPRT_CFG p, 1, 1⟩
@[inline] def PRT_CFG_REACH (p : Nat) : FRef := ⟨aPRT_CFG p, 0, 1⟩
/-- Address of PRT_STAT (R282). -/
def aPRT_STAT (p : Nat) : Nat := 0x420004 + p * 0x100
@[inline] def PRT_STAT_STATE (p : Nat) : FRef := ⟨aPRT_STAT p, 30, 2⟩
@[inline] def PRT_STAT_ACTIVE (p : Nat) : FRef := ⟨aPRT_STAT p, 24, 4⟩
@[inline] def PRT_STAT_LINKS (p : Nat) : FRef := ⟨aPRT_STAT p, 0, 24⟩
/-- Address of PRT_PLANCTL (R282). -/
def aPRT_PLANCTL : Nat := 0x420800
@[inline] def PRT_PLANCTL_PLANV : FRef := ⟨aPRT_PLANCTL, 3, 1⟩
@[inline] def PRT_PLANCTL_DISARM : FRef := ⟨aPRT_PLANCTL, 2, 1⟩
@[inline] def PRT_PLANCTL_ARM : FRef := ⟨aPRT_PLANCTL, 1, 1⟩
@[inline] def PRT_PLANCTL_CHECK : FRef := ⟨aPRT_PLANCTL, 0, 1⟩
/-- Address of PRT_PLANSTAT (R282). -/
def aPRT_PLANSTAT : Nat := 0x420804
@[inline] def PRT_PLANSTAT_RESULT : FRef := ⟨aPRT_PLANSTAT, 30, 2⟩
@[inline] def PRT_PLANSTAT_ARMED : FRef := ⟨aPRT_PLANSTAT, 29, 1⟩
@[inline] def PRT_PLANSTAT_LINK : FRef := ⟨aPRT_PLANSTAT, 19, 5⟩
@[inline] def PRT_PLANSTAT_REASON : FRef := ⟨aPRT_PLANSTAT, 15, 4⟩
/-- Address of PRT_PROTO (R282). -/
def aPRT_PROTO : Nat := 0x420808
@[inline] def PRT_PROTO_PVSET : FRef := ⟨aPRT_PROTO, 0, 16⟩
/-- Address of GLB_DEVID (R314). -/
def aGLB_DEVID : Nat := 0x100
@[inline] def GLB_DEVID_DEVID : FRef := ⟨aGLB_DEVID, 0, 16⟩
/-- Address of GLB_COORD (R314). -/
def aGLB_COORD : Nat := 0x104
@[inline] def GLB_COORD_COORDV : FRef := ⟨aGLB_COORD, 31, 1⟩
@[inline] def GLB_COORD_COORD : FRef := ⟨aGLB_COORD, 0, 24⟩
/-- Address of RTE_CTRL (R314). -/
def aRTE_CTRL : Nat := 0x430000
@[inline] def RTE_CTRL_FLCLR : FRef := ⟨aRTE_CTRL, 6, 1⟩
@[inline] def RTE_CTRL_OPEN : FRef := ⟨aRTE_CTRL, 5, 1⟩
@[inline] def RTE_CTRL_CNT_CLR : FRef := ⟨aRTE_CTRL, 4, 1⟩
@[inline] def RTE_CTRL_RETIRE : FRef := ⟨aRTE_CTRL, 3, 1⟩
@[inline] def RTE_CTRL_FLREP : FRef := ⟨aRTE_CTRL, 2, 1⟩
@[inline] def RTE_CTRL_STAMP : FRef := ⟨aRTE_CTRL, 0, 1⟩
/-- Address of RTE_STAT (R314). -/
def aRTE_STAT : Nat := 0x430004
@[inline] def RTE_STAT_LIGHT : FRef := ⟨aRTE_STAT, 30, 2⟩
@[inline] def RTE_STAT_DARK : FRef := ⟨aRTE_STAT, 28, 2⟩
/-- Address of RTE_CFG (R314). -/
def aRTE_CFG : Nat := 0x430008
@[inline] def RTE_CFG_CETHR : FRef := ⟨aRTE_CFG, 16, 8⟩
@[inline] def RTE_CFG_ADTMO : FRef := ⟨aRTE_CFG, 0, 8⟩
/-- Address of RTE_WIN (R314). -/
def aRTE_WIN : Nat := 0x43000C
@[inline] def RTE_WIN_ECN : FRef := ⟨aRTE_WIN, 31, 1⟩
@[inline] def RTE_WIN_WMIN : FRef := ⟨aRTE_WIN, 16, 12⟩
@[inline] def RTE_WIN_W : FRef := ⟨aRTE_WIN, 0, 12⟩
/-- Address of RTE_XPORT (R314). -/
def aRTE_XPORT : Nat := 0x430010
@[inline] def RTE_XPORT_MAX : FRef := ⟨aRTE_XPORT, 16, 4⟩
@[inline] def RTE_XPORT_TMO : FRef := ⟨aRTE_XPORT, 0, 16⟩
/-- Address of RTE_VCW (R314). -/
def aRTE_VCW : Nat := 0x430014
@[inline] def RTE_VCW_BLK : FRef := ⟨aRTE_VCW, 24, 8⟩
@[inline] def RTE_VCW_RSP : FRef := ⟨aRTE_VCW, 16, 8⟩
@[inline] def RTE_VCW_REQ : FRef := ⟨aRTE_VCW, 8, 8⟩
@[inline] def RTE_VCW_COL : FRef := ⟨aRTE_VCW, 0, 8⟩
/-- Address of RTE_FLCFG (R314). -/
def aRTE_FLCFG : Nat := 0x430018
@[inline] def RTE_FLCFG_COORD : FRef := ⟨aRTE_FLCFG, 48, 16⟩
@[inline] def RTE_FLCFG_NDEV : FRef := ⟨aRTE_FLCFG, 16, 16⟩
@[inline] def RTE_FLCFG_GUARD : FRef := ⟨aRTE_FLCFG, 0, 16⟩
/-- Address of RTE_FLSTAT (R314). -/
def aRTE_FLSTAT : Nat := 0x430020
@[inline] def RTE_FLSTAT_DONE : FRef := ⟨aRTE_FLSTAT, 63, 1⟩
@[inline] def RTE_FLSTAT_REPORTED : FRef := ⟨aRTE_FLSTAT, 32, 16⟩
/-- Address of RTE_FLINJ (R314). -/
def aRTE_FLINJ : Nat := 0x430028
@[inline] def RTE_FLINJ_SUM : FRef := ⟨aRTE_FLINJ, 0, 64⟩
/-- Address of RTE_FLEJ (R314). -/
def aRTE_FLEJ : Nat := 0x430030
@[inline] def RTE_FLEJ_SUM : FRef := ⟨aRTE_FLEJ, 0, 64⟩
/-- Address of RTE_FLDROP (R314). -/
def aRTE_FLDROP : Nat := 0x430038
@[inline] def RTE_FLDROP_SUM : FRef := ⟨aRTE_FLDROP, 0, 64⟩
/-- Address of RTE_SHINJ (R314). -/
def aRTE_SHINJ (s : Nat) : Nat := 0x430040 + s * 0x8
@[inline] def RTE_SHINJ_CNT (s : Nat) : FRef := ⟨aRTE_SHINJ s, 0, 64⟩
/-- Address of RTE_SHEJ (R314). -/
def aRTE_SHEJ (s : Nat) : Nat := 0x430050 + s * 0x8
@[inline] def RTE_SHEJ_CNT (s : Nat) : FRef := ⟨aRTE_SHEJ s, 0, 64⟩
/-- Address of RTE_SHDROP (R314). -/
def aRTE_SHDROP (s : Nat) : Nat := 0x430060 + s * 0x8
@[inline] def RTE_SHDROP_CNT (s : Nat) : FRef := ⟨aRTE_SHDROP s, 0, 64⟩
/-- Address of RTE_NOROUTE (R314). -/
def aRTE_NOROUTE : Nat := 0x430080
@[inline] def RTE_NOROUTE_CNT : FRef := ⟨aRTE_NOROUTE, 0, 64⟩
/-- Address of RTE_EXPREF (R314). -/
def aRTE_EXPREF : Nat := 0x430088
@[inline] def RTE_EXPREF_CNT : FRef := ⟨aRTE_EXPREF, 0, 64⟩
/-- Address of RTE_XRETRY (R314). -/
def aRTE_XRETRY : Nat := 0x430090
@[inline] def RTE_XRETRY_CNT : FRef := ⟨aRTE_XRETRY, 0, 64⟩
/-- Address of RTE_XGIVEUP (R314). -/
def aRTE_XGIVEUP : Nat := 0x430098
@[inline] def RTE_XGIVEUP_CNT : FRef := ⟨aRTE_XGIVEUP, 0, 64⟩
/-- Address of RTE_DEDUPFULL (R314). -/
def aRTE_DEDUPFULL : Nat := 0x4300A0
@[inline] def RTE_DEDUPFULL_CNT : FRef := ⟨aRTE_DEDUPFULL, 0, 64⟩
/-- Address of RTE_CEMARK (R314). -/
def aRTE_CEMARK : Nat := 0x4300A8
@[inline] def RTE_CEMARK_CNT : FRef := ⟨aRTE_CEMARK, 0, 64⟩
/-- Address of RTE_ETHDROP (R314). -/
def aRTE_ETHDROP : Nat := 0x4300B0
@[inline] def RTE_ETHDROP_CNT : FRef := ⟨aRTE_ETHDROP, 0, 64⟩
/-- Address of RTE_AXIS (R314). -/
def aRTE_AXIS (a : Nat) : Nat := 0x430100 + a * 0x4
@[inline] def RTE_AXIS_SIZE (a : Nat) : FRef := ⟨aRTE_AXIS a, 0, 6⟩
/-- Address of RTE_EXPBASE (R314). -/
def aRTE_EXPBASE (w : Nat) : Nat := 0x430200 + w * 0x10
@[inline] def RTE_EXPBASE_SRCVAL (w : Nat) : FRef := ⟨aRTE_EXPBASE w, 48, 16⟩
@[inline] def RTE_EXPBASE_BASE (w : Nat) : FRef := ⟨aRTE_EXPBASE w, 12, 36⟩
@[inline] def RTE_EXPBASE_ADD (w : Nat) : FRef := ⟨aRTE_EXPBASE w, 2, 1⟩
@[inline] def RTE_EXPBASE_W (w : Nat) : FRef := ⟨aRTE_EXPBASE w, 1, 1⟩
@[inline] def RTE_EXPBASE_R (w : Nat) : FRef := ⟨aRTE_EXPBASE w, 0, 1⟩
/-- Address of RTE_EXPLIM (R314). -/
def aRTE_EXPLIM (w : Nat) : Nat := 0x430208 + w * 0x10
@[inline] def RTE_EXPLIM_SRCMASK (w : Nat) : FRef := ⟨aRTE_EXPLIM w, 48, 16⟩
@[inline] def RTE_EXPLIM_LIMIT (w : Nat) : FRef := ⟨aRTE_EXPLIM w, 12, 36⟩
/-- Address of RTE_ETHCFG (R314). -/
def aRTE_ETHCFG : Nat := 0x430400
@[inline] def RTE_ETHCFG_TAG : FRef := ⟨aRTE_ETHCFG, 31, 1⟩
@[inline] def RTE_ETHCFG_PFC : FRef := ⟨aRTE_ETHCFG, 30, 1⟩
@[inline] def RTE_ETHCFG_CPD : FRef := ⟨aRTE_ETHCFG, 24, 6⟩
@[inline] def RTE_ETHCFG_HOLD : FRef := ⟨aRTE_ETHCFG, 16, 8⟩
@[inline] def RTE_ETHCFG_UDPPORT : FRef := ⟨aRTE_ETHCFG, 0, 16⟩
/-- Address of RTE_ETHDSCP (R314). -/
def aRTE_ETHDSCP : Nat := 0x430404
@[inline] def RTE_ETHDSCP_DSCP : FRef := ⟨aRTE_ETHDSCP, 0, 24⟩
/-- Address of RTE_ETHPCP (R314). -/
def aRTE_ETHPCP : Nat := 0x430408
@[inline] def RTE_ETHPCP_VID : FRef := ⟨aRTE_ETHPCP, 16, 12⟩
@[inline] def RTE_ETHPCP_PCP : FRef := ⟨aRTE_ETHPCP, 0, 12⟩
/-- Address of RTE_LLDP (R314). -/
def aRTE_LLDP : Nat := 0x43040C
@[inline] def RTE_LLDP_OUI : FRef := ⟨aRTE_LLDP, 8, 24⟩
@[inline] def RTE_LLDP_INTERVAL : FRef := ⟨aRTE_LLDP, 0, 8⟩
/-- Address of RTE_ETHMAC (R314). -/
def aRTE_ETHMAC (n : Nat) : Nat := 0x431000 + n * 0x20
@[inline] def RTE_ETHMAC_MAC (n : Nat) : FRef := ⟨aRTE_ETHMAC n, 0, 48⟩
/-- Address of RTE_ETHIPH (R314). -/
def aRTE_ETHIPH (n : Nat) : Nat := 0x431008 + n * 0x20
@[inline] def RTE_ETHIPH_ADDR (n : Nat) : FRef := ⟨aRTE_ETHIPH n, 0, 64⟩
/-- Address of RTE_ETHIPL (R314). -/
def aRTE_ETHIPL (n : Nat) : Nat := 0x431010 + n * 0x20
@[inline] def RTE_ETHIPL_ADDR (n : Nat) : FRef := ⟨aRTE_ETHIPL n, 0, 64⟩
/-- Address of RTE_GW (R314). -/
def aRTE_GW (g : Nat) : Nat := 0x440000 + g * 0x20
@[inline] def RTE_GW_ADDR (g : Nat) : FRef := ⟨aRTE_GW g, 0, 64⟩
/-- Address of RTE_GWL (R314). -/
def aRTE_GWL (g : Nat) : Nat := 0x440008 + g * 0x20
@[inline] def RTE_GWL_ADDR (g : Nat) : FRef := ⟨aRTE_GWL g, 0, 64⟩
/-- Address of RTE_GWMAC (R314). -/
def aRTE_GWMAC (g : Nat) : Nat := 0x440010 + g * 0x20
@[inline] def RTE_GWMAC_VALID (g : Nat) : FRef := ⟨aRTE_GWMAC g, 63, 1⟩
@[inline] def RTE_GWMAC_MAC (g : Nat) : FRef := ⟨aRTE_GWMAC g, 0, 48⟩
/-- Address of RTE_LTAB (R287). -/
def aRTE_LTAB (d : Nat) : Nat := 0x480000 + d * 0x4
@[inline] def RTE_LTAB_VALID (d : Nat) : FRef := ⟨aRTE_LTAB d, 31, 1⟩
@[inline] def RTE_LTAB_EPORT (d : Nat) : FRef := ⟨aRTE_LTAB d, 24, 3⟩
@[inline] def RTE_LTAB_AMASK (d : Nat) : FRef := ⟨aRTE_LTAB d, 16, 8⟩
@[inline] def RTE_LTAB_WIN (d : Nat) : FRef := ⟨aRTE_LTAB d, 15, 1⟩
@[inline] def RTE_LTAB_GW (d : Nat) : FRef := ⟨aRTE_LTAB d, 0, 8⟩
/-- Address of RTE_DTAB (R287). -/
def aRTE_DTAB (d : Nat) : Nat := 0x4C0000 + d * 0x4
@[inline] def RTE_DTAB_VALID (d : Nat) : FRef := ⟨aRTE_DTAB d, 31, 1⟩
@[inline] def RTE_DTAB_EPORT (d : Nat) : FRef := ⟨aRTE_DTAB d, 24, 3⟩
@[inline] def RTE_DTAB_AMASK (d : Nat) : FRef := ⟨aRTE_DTAB d, 16, 8⟩
@[inline] def RTE_DTAB_WIN (d : Nat) : FRef := ⟨aRTE_DTAB d, 15, 1⟩
@[inline] def RTE_DTAB_GW (d : Nat) : FRef := ⟨aRTE_DTAB d, 0, 8⟩
/-- Address of WHL_CTRL (R341). -/
def aWHL_CTRL (a : Nat) : Nat := 0x500000 + a * 0x10000
@[inline] def WHL_CTRL_CNT_CLR (a : Nat) : FRef := ⟨aWHL_CTRL a, 1, 1⟩
@[inline] def WHL_CTRL_ABORT (a : Nat) : FRef := ⟨aWHL_CTRL a, 0, 1⟩
/-- Address of WHL_STAT (R341). -/
def aWHL_STAT (a : Nat) : Nat := 0x500004 + a * 0x10000
@[inline] def WHL_STAT_STATE (a : Nat) : FRef := ⟨aWHL_STAT a, 30, 2⟩
@[inline] def WHL_STAT_LAST (a : Nat) : FRef := ⟨aWHL_STAT a, 16, 8⟩
/-- Address of WHL_CFG (R341). -/
def aWHL_CFG (a : Nat) : Nat := 0x500008 + a * 0x10000
@[inline] def WHL_CFG_RMAX (a : Nat) : FRef := ⟨aWHL_CFG a, 28, 4⟩
@[inline] def WHL_CFG_TMO (a : Nat) : FRef := ⟨aWHL_CFG a, 16, 12⟩
@[inline] def WHL_CFG_RTMO (a : Nat) : FRef := ⟨aWHL_CFG a, 8, 8⟩
@[inline] def WHL_CFG_CHUNK (a : Nat) : FRef := ⟨aWHL_CFG a, 0, 4⟩
/-- Address of WHL_SEQ (R341). -/
def aWHL_SEQ (a : Nat) : Nat := 0x50000C + a * 0x10000
@[inline] def WHL_SEQ_SEQ (a : Nat) : FRef := ⟨aWHL_SEQ a, 0, 16⟩
/-- Address of WHL_FAILREC (R341). -/
def aWHL_FAILREC (a : Nat) : Nat := 0x500010 + a * 0x10000
@[inline] def WHL_FAILREC_STEP (a : Nat) : FRef := ⟨aWHL_FAILREC a, 48, 16⟩
@[inline] def WHL_FAILREC_STATUS (a : Nat) : FRef := ⟨aWHL_FAILREC a, 40, 8⟩
@[inline] def WHL_FAILREC_POS (a : Nat) : FRef := ⟨aWHL_FAILREC a, 34, 6⟩
@[inline] def WHL_FAILREC_CMD (a : Nat) : FRef := ⟨aWHL_FAILREC a, 16, 13⟩
@[inline] def WHL_FAILREC_VALID (a : Nat) : FRef := ⟨aWHL_FAILREC a, 0, 1⟩
/-- Address of WHL_TXBYTES (R341). -/
def aWHL_TXBYTES (a : Nat) : Nat := 0x500018 + a * 0x10000
@[inline] def WHL_TXBYTES_CNT (a : Nat) : FRef := ⟨aWHL_TXBYTES a, 0, 64⟩
/-- Address of WHL_RXBYTES (R341). -/
def aWHL_RXBYTES (a : Nat) : Nat := 0x500020 + a * 0x10000
@[inline] def WHL_RXBYTES_CNT (a : Nat) : FRef := ⟨aWHL_RXBYTES a, 0, 64⟩
/-- Address of WHL_COLLCNT (R341). -/
def aWHL_COLLCNT (a : Nat) : Nat := 0x500028 + a * 0x10000
@[inline] def WHL_COLLCNT_CNT (a : Nat) : FRef := ⟨aWHL_COLLCNT a, 0, 64⟩
/-- Address of WHL_RESEND (R341). -/
def aWHL_RESEND (a : Nat) : Nat := 0x500030 + a * 0x10000
@[inline] def WHL_RESEND_CNT (a : Nat) : FRef := ⟨aWHL_RESEND a, 0, 64⟩
/-- Address of FTM_CTRL (R361). -/
def aFTM_CTRL : Nat := 0x300000
@[inline] def FTM_CTRL_CAPT : FRef := ⟨aFTM_CTRL, 3, 1⟩
@[inline] def FTM_CTRL_LOAD : FRef := ⟨aFTM_CTRL, 2, 1⟩
@[inline] def FTM_CTRL_CNT_CLR : FRef := ⟨aFTM_CTRL, 1, 1⟩
/-- Address of FTM_STAT (R361). -/
def aFTM_STAT : Nat := 0x300004
@[inline] def FTM_STAT_SYNC : FRef := ⟨aFTM_STAT, 31, 1⟩
@[inline] def FTM_STAT_HOLD : FRef := ⟨aFTM_STAT, 30, 1⟩
@[inline] def FTM_STAT_UPHOLD : FRef := ⟨aFTM_STAT, 29, 1⟩
@[inline] def FTM_STAT_PPSLOCK : FRef := ⟨aFTM_STAT, 28, 1⟩
@[inline] def FTM_STAT_LOOP : FRef := ⟨aFTM_STAT, 27, 1⟩
@[inline] def FTM_STAT_DEPTH : FRef := ⟨aFTM_STAT, 16, 8⟩
@[inline] def FTM_STAT_ACTPARENT : FRef := ⟨aFTM_STAT, 0, 5⟩
/-- Address of FTM_CFG (R361). -/
def aFTM_CFG : Nat := 0x300008
@[inline] def FTM_CFG_MODE : FRef := ⟨aFTM_CFG, 30, 2⟩
@[inline] def FTM_CFG_PARENT : FRef := ⟨aFTM_CFG, 25, 5⟩
@[inline] def FTM_CFG_ALTPARENT : FRef := ⟨aFTM_CFG, 20, 5⟩
@[inline] def FTM_CFG_ALTEN : FRef := ⟨aFTM_CFG, 19, 1⟩
@[inline] def FTM_CFG_PERIOD : FRef := ⟨aFTM_CFG, 8, 8⟩
@[inline] def FTM_CFG_AVG : FRef := ⟨aFTM_CFG, 4, 4⟩
/-- Address of FTM_THR (R361). -/
def aFTM_THR : Nat := 0x30000C
@[inline] def FTM_THR_STEPTHR : FRef := ⟨aFTM_THR, 16, 16⟩
@[inline] def FTM_THR_ALARM : FRef := ⟨aFTM_THR, 0, 8⟩
/-- Address of FTM_NOW (R361). -/
def aFTM_NOW : Nat := 0x300010
@[inline] def FTM_NOW_NOW : FRef := ⟨aFTM_NOW, 0, 64⟩
/-- Address of FTM_LOADVAL (R361). -/
def aFTM_LOADVAL : Nat := 0x300018
@[inline] def FTM_LOADVAL_VAL : FRef := ⟨aFTM_LOADVAL, 0, 64⟩
/-- Address of FTM_CAPT (R361). -/
def aFTM_CAPT : Nat := 0x300020
@[inline] def FTM_CAPT_CAPT : FRef := ⟨aFTM_CAPT, 0, 64⟩
/-- Address of FTM_PPSCAPT (R361). -/
def aFTM_PPSCAPT : Nat := 0x300028
@[inline] def FTM_PPSCAPT_TICKS : FRef := ⟨aFTM_PPSCAPT, 4, 60⟩
@[inline] def FTM_PPSCAPT_FRAC : FRef := ⟨aFTM_PPSCAPT, 0, 4⟩
/-- Address of FTM_OFFSET (R361). -/
def aFTM_OFFSET : Nat := 0x300030
@[inline] def FTM_OFFSET_OFFSET : FRef := ⟨aFTM_OFFSET, 0, 32⟩
/-- Address of FTM_RATE (R361). -/
def aFTM_RATE : Nat := 0x300034
@[inline] def FTM_RATE_RATE : FRef := ⟨aFTM_RATE, 0, 32⟩
/-- Address of FTM_PPSCFG (R361). -/
def aFTM_PPSCFG : Nat := 0x300038
@[inline] def FTM_PPSCFG_OUTEN : FRef := ⟨aFTM_PPSCFG, 31, 1⟩
/-- Address of FTM_PPSOFF (R361). -/
def aFTM_PPSOFF : Nat := 0x30003C
@[inline] def FTM_PPSOFF_OFF : FRef := ⟨aFTM_PPSOFF, 0, 32⟩
/-- Address of FTM_XCNT (R361). -/
def aFTM_XCNT : Nat := 0x300040
@[inline] def FTM_XCNT_CNT : FRef := ⟨aFTM_XCNT, 0, 64⟩
/-- Address of FTM_PPSIGN (R361). -/
def aFTM_PPSIGN : Nat := 0x300048
@[inline] def FTM_PPSIGN_CNT : FRef := ⟨aFTM_PPSIGN, 0, 64⟩
/-- Address of FTM_LNK (R361). -/
def aFTM_LNK (n : Nat) : Nat := 0x300100 + n * 0x8
@[inline] def FTM_LNK_D (n : Nat) : FRef := ⟨aFTM_LNK n, 32, 32⟩
@[inline] def FTM_LNK_THETA (n : Nat) : FRef := ⟨aFTM_LNK n, 0, 32⟩
/-- Address of FTM_LASYM (R361). -/
def aFTM_LASYM (n : Nat) : Nat := 0x300200 + n * 0x4
@[inline] def FTM_LASYM_A (n : Nat) : FRef := ⟨aFTM_LASYM n, 0, 16⟩
/-- Address of HST_CTRL (R394). -/
def aHST_CTRL (p : Nat) : Nat := 0x3C80000 + p * 0x10000
@[inline] def HST_CTRL_MBXCLR (p : Nat) : FRef := ⟨aHST_CTRL p, 0, 1⟩
/-- Address of HST_STAT (R394). -/
def aHST_STAT (p : Nat) : Nat := 0x3C80004 + p * 0x10000
@[inline] def HST_STAT_LINKUP (p : Nat) : FRef := ⟨aHST_STAT p, 31, 1⟩
@[inline] def HST_STAT_FROZEN (p : Nat) : FRef := ⟨aHST_STAT p, 30, 1⟩
@[inline] def HST_STAT_OWNER (p : Nat) : FRef := ⟨aHST_STAT p, 29, 1⟩
@[inline] def HST_STAT_BME (p : Nat) : FRef := ⟨aHST_STAT p, 28, 1⟩
@[inline] def HST_STAT_DSTATE (p : Nat) : FRef := ⟨aHST_STAT p, 26, 2⟩
/-- Address of HST_CFG (R394). -/
def aHST_CFG (p : Nat) : Nat := 0x3C80008 + p * 0x10000
@[inline] def HST_CFG_MBXIE (p : Nat) : FRef := ⟨aHST_CFG p, 16, 16⟩
@[inline] def HST_CFG_POSTWAIT (p : Nat) : FRef := ⟨aHST_CFG p, 0, 9⟩
/-- Address of HST_ROLEGEN (R394). -/
def aHST_ROLEGEN (p : Nat) : Nat := 0x3C8000C + p * 0x10000
@[inline] def HST_ROLEGEN_RGEN (p : Nat) : FRef := ⟨aHST_ROLEGEN p, 0, 16⟩
/-- Address of HST_CLAIM (R394). -/
def aHST_CLAIM (p : Nat) : Nat := 0x3C80010 + p * 0x10000
@[inline] def HST_CLAIM_RESULT (p : Nat) : FRef := ⟨aHST_CLAIM p, 30, 2⟩
@[inline] def HST_CLAIM_OGEN (p : Nat) : FRef := ⟨aHST_CLAIM p, 0, 16⟩
/-- Address of HST_RELEASE (R394). -/
def aHST_RELEASE (p : Nat) : Nat := 0x3C80014 + p * 0x10000
@[inline] def HST_RELEASE_RESULT (p : Nat) : FRef := ⟨aHST_RELEASE p, 30, 2⟩
@[inline] def HST_RELEASE_OGEN (p : Nat) : FRef := ⟨aHST_RELEASE p, 0, 16⟩
/-- Address of HST_SEIZEKEY (R394). -/
def aHST_SEIZEKEY (p : Nat) : Nat := 0x3C80018 + p * 0x10000
@[inline] def HST_SEIZEKEY_KEY (p : Nat) : FRef := ⟨aHST_SEIZEKEY p, 0, 16⟩
/-- Address of HST_SEIZE (R394). -/
def aHST_SEIZE (p : Nat) : Nat := 0x3C8001C + p * 0x10000
@[inline] def HST_SEIZE_RESULT (p : Nat) : FRef := ⟨aHST_SEIZE p, 30, 2⟩
@[inline] def HST_SEIZE_OGEN (p : Nat) : FRef := ⟨aHST_SEIZE p, 0, 16⟩
/-- Address of HST_VIOLREC (R394). -/
def aHST_VIOLREC (p : Nat) : Nat := 0x3C80020 + p * 0x10000
@[inline] def HST_VIOLREC_VALID (p : Nat) : FRef := ⟨aHST_VIOLREC p, 63, 1⟩
@[inline] def HST_VIOLREC_COUNT (p : Nat) : FRef := ⟨aHST_VIOLREC p, 48, 15⟩
@[inline] def HST_VIOLREC_BAR (p : Nat) : FRef := ⟨aHST_VIOLREC p, 42, 2⟩
@[inline] def HST_VIOLREC_OFFSET (p : Nat) : FRef := ⟨aHST_VIOLREC p, 0, 42⟩
/-- Address of HST_PORTTHAW (R394). -/
def aHST_PORTTHAW (p : Nat) : Nat := 0x3C80028 + p * 0x10000
@[inline] def HST_PORTTHAW_RESULT (p : Nat) : FRef := ⟨aHST_PORTTHAW p, 30, 2⟩
/-- Address of HST_POSTREC (R394). -/
def aHST_POSTREC (p : Nat) : Nat := 0x3C8002C + p * 0x10000
@[inline] def HST_POSTREC_ABORTCNT (p : Nat) : FRef := ⟨aHST_POSTREC p, 0, 16⟩
/-- Address of HST_B4MAP (R394). -/
def aHST_B4MAP (p s : Nat) : Nat := 0x3C80040 + p * 0x10000 + s * 0x8
@[inline] def HST_B4MAP_BASE (p s : Nat) : FRef := ⟨aHST_B4MAP p s, 33, 15⟩
@[inline] def HST_B4MAP_EN (p s : Nat) : FRef := ⟨aHST_B4MAP p s, 0, 1⟩
/-- Address of HST_FWATCH (R394). -/
def aHST_FWATCH (p w : Nat) : Nat := 0x3C88000 + p * 0x10000 + w * 0x8
@[inline] def HST_FWATCH_ARM (p w : Nat) : FRef := ⟨aHST_FWATCH p w, 63, 1⟩
@[inline] def HST_FWATCH_SET (p w : Nat) : FRef := ⟨aHST_FWATCH p w, 57, 5⟩
@[inline] def HST_FWATCH_FLAG (p w : Nat) : FRef := ⟨aHST_FWATCH p w, 48, 9⟩
@[inline] def HST_FWATCH_TARGET (p w : Nat) : FRef := ⟨aHST_FWATCH p w, 0, 16⟩
/-- Address of HST_OWN (R394). -/
def aHST_OWN : Nat := 0x3CA0000
@[inline] def HST_OWN_OWNER : FRef := ⟨aHST_OWN, 30, 2⟩
@[inline] def HST_OWN_OGEN : FRef := ⟨aHST_OWN, 0, 16⟩
/-- Address of GLB_ROLEGEN (R394). -/
def aGLB_ROLEGEN : Nat := 0x108
@[inline] def GLB_ROLEGEN_RGEN : FRef := ⟨aGLB_ROLEGEN, 0, 16⟩
/-- Address of DMA_RING (R395). -/
def aDMA_RING (p c : Nat) : Nat := 0x3D00000 + p * 0x10000 + c * 0x40
@[inline] def DMA_RING_BASE (p c : Nat) : FRef := ⟨aDMA_RING p c, 12, 52⟩
/-- Address of DMA_CFG (R395). -/
def aDMA_CFG (p c : Nat) : Nat := 0x3D00008 + p * 0x10000 + c * 0x40
@[inline] def DMA_CFG_EN (p c : Nat) : FRef := ⟨aDMA_CFG p c, 31, 1⟩
@[inline] def DMA_CFG_SIZE (p c : Nat) : FRef := ⟨aDMA_CFG p c, 0, 5⟩
/-- Address of DMA_PROD (R395). -/
def aDMA_PROD (p c : Nat) : Nat := 0x3D0000C + p * 0x10000 + c * 0x40
@[inline] def DMA_PROD_PROD (p c : Nat) : FRef := ⟨aDMA_PROD p c, 0, 16⟩
/-- Address of DMA_CONS (R395). -/
def aDMA_CONS (p c : Nat) : Nat := 0x3D00010 + p * 0x10000 + c * 0x40
@[inline] def DMA_CONS_CONS (p c : Nat) : FRef := ⟨aDMA_CONS p c, 0, 16⟩
/-- Address of DMA_STAT (R395). -/
def aDMA_STAT (p c : Nat) : Nat := 0x3D00014 + p * 0x10000 + c * 0x40
@[inline] def DMA_STAT_STATE (p c : Nat) : FRef := ⟨aDMA_STAT p c, 30, 2⟩
@[inline] def DMA_STAT_ERR (p c : Nat) : FRef := ⟨aDMA_STAT p c, 16, 8⟩
/-- Address of DMA_ERRADDR (R395). -/
def aDMA_ERRADDR (p c : Nat) : Nat := 0x3D00018 + p * 0x10000 + c * 0x40
@[inline] def DMA_ERRADDR_ADDR (p c : Nat) : FRef := ⟨aDMA_ERRADDR p c, 0, 64⟩
/-- Address of MBX_ENT (R396). -/
def aMBX_ENT (m w : Nat) : Nat := 0x180000 + m * 0x400 + w * 0x8
@[inline] def MBX_ENT_WORD (m w : Nat) : FRef := ⟨aMBX_ENT m w, 0, 64⟩
/-- Address of MBX_PROD (R396). -/
def aMBX_PROD (m : Nat) : Nat := 0x180200 + m * 0x400
@[inline] def MBX_PROD_PROD (m : Nat) : FRef := ⟨aMBX_PROD m, 0, 16⟩
/-- Address of MBX_CONS (R396). -/
def aMBX_CONS (m : Nat) : Nat := 0x180204 + m * 0x400
@[inline] def MBX_CONS_CONS (m : Nat) : FRef := ⟨aMBX_CONS m, 0, 16⟩
/-- Address of MBX_STGADDR (R396). -/
def aMBX_STGADDR (p k : Nat) : Nat := 0x8200000 + p * 0x1000000 + k * 0x20
@[inline] def MBX_STGADDR_ADDR (p k : Nat) : FRef := ⟨aMBX_STGADDR p k, 0, 64⟩
/-- Address of MBX_STGLEN (R396). -/
def aMBX_STGLEN (p k : Nat) : Nat := 0x8200008 + p * 0x1000000 + k * 0x20
@[inline] def MBX_STGLEN_LEN (p k : Nat) : FRef := ⟨aMBX_STGLEN p k, 0, 32⟩
/-- Address of MBX_STGCODE (R396). -/
def aMBX_STGCODE (p k : Nat) : Nat := 0x820000C + p * 0x1000000 + k * 0x20
@[inline] def MBX_STGCODE_RGEN (p k : Nat) : FRef := ⟨aMBX_STGCODE p k, 16, 16⟩
@[inline] def MBX_STGCODE_CODE (p k : Nat) : FRef := ⟨aMBX_STGCODE p k, 0, 16⟩
/-- Address of MBX_STGDST (R396). -/
def aMBX_STGDST (p k : Nat) : Nat := 0x8200010 + p * 0x1000000 + k * 0x20
@[inline] def MBX_STGDST_MBOX (p k : Nat) : FRef := ⟨aMBX_STGDST p k, 16, 8⟩
@[inline] def MBX_STGDST_DSTDEV (p k : Nat) : FRef := ⟨aMBX_STGDST p k, 0, 16⟩
/-- Address of MBX_POST (R396). -/
def aMBX_POST (p k : Nat) : Nat := 0x8200018 + p * 0x1000000 + k * 0x20
@[inline] def MBX_POST_OUTCOME (p k : Nat) : FRef := ⟨aMBX_POST p k, 28, 4⟩
/-- Address of MBX_STGSTAT (R396). -/
def aMBX_STGSTAT (p k : Nat) : Nat := 0x820001C + p * 0x1000000 + k * 0x20
@[inline] def MBX_STGSTAT_LAST (p k : Nat) : FRef := ⟨aMBX_STGSTAT p k, 28, 4⟩
@[inline] def MBX_STGSTAT_PENDING (p k : Nat) : FRef := ⟨aMBX_STGSTAT p k, 27, 1⟩
/-- Address of MSIX_ADDR (R396). -/
def aMSIX_ADDR (p v : Nat) : Nat := 0x8300000 + p * 0x1000000 + v * 0x10
@[inline] def MSIX_ADDR_ADDR (p v : Nat) : FRef := ⟨aMSIX_ADDR p v, 2, 62⟩
/-- Address of MSIX_DATA (R396). -/
def aMSIX_DATA (p v : Nat) : Nat := 0x8300008 + p * 0x1000000 + v * 0x10
@[inline] def MSIX_DATA_DATA (p v : Nat) : FRef := ⟨aMSIX_DATA p v, 0, 32⟩
/-- Address of MSIX_CTRL (R396). -/
def aMSIX_CTRL (p v : Nat) : Nat := 0x830000C + p * 0x1000000 + v * 0x10
@[inline] def MSIX_CTRL_MASK (p v : Nat) : FRef := ⟨aMSIX_CTRL p v, 0, 1⟩
/-- Address of MSIX_PBA (R396). -/
def aMSIX_PBA (p w : Nat) : Nat := 0x8308000 + p * 0x1000000 + w * 0x8
@[inline] def MSIX_PBA_PENDING (p w : Nat) : FRef := ⟨aMSIX_PBA p w, 0, 64⟩
/-- Address of GLB_SERIAL (R419). -/
def aGLB_SERIAL : Nat := 0x0
@[inline] def GLB_SERIAL_SERIAL : FRef := ⟨aGLB_SERIAL, 0, 64⟩
/-- Address of GLB_PARTNO (R419). -/
def aGLB_PARTNO : Nat := 0x8
@[inline] def GLB_PARTNO_PART : FRef := ⟨aGLB_PARTNO, 16, 16⟩
@[inline] def GLB_PARTNO_SUFFIX : FRef := ⟨aGLB_PARTNO, 8, 8⟩
/-- Address of GLB_STEPPING (R419). -/
def aGLB_STEPPING : Nat := 0xC
@[inline] def GLB_STEPPING_MAJOR : FRef := ⟨aGLB_STEPPING, 4, 4⟩
@[inline] def GLB_STEPPING_MINOR : FRef := ⟨aGLB_STEPPING, 0, 4⟩
/-- Address of GLB_BOOT (R419). -/
def aGLB_BOOT : Nat := 0x10
@[inline] def GLB_BOOT_STATE : FRef := ⟨aGLB_BOOT, 29, 3⟩
@[inline] def GLB_BOOT_CAUSE : FRef := ⟨aGLB_BOOT, 24, 5⟩
@[inline] def GLB_BOOT_FLASHV : FRef := ⟨aGLB_BOOT, 23, 1⟩
@[inline] def GLB_BOOT_MGTRUN : FRef := ⟨aGLB_BOOT, 22, 1⟩
@[inline] def GLB_BOOT_UPDPEND : FRef := ⟨aGLB_BOOT, 21, 1⟩
@[inline] def GLB_BOOT_BOOTMS : FRef := ⟨aGLB_BOOT, 0, 16⟩
/-- Address of GLB_FWVER (R419). -/
def aGLB_FWVER : Nat := 0x14
@[inline] def GLB_FWVER_FWVER : FRef := ⟨aGLB_FWVER, 0, 32⟩
/-- Address of GLB_DIEID (R419). -/
def aGLB_DIEID (n : Nat) : Nat := 0x40 + n * 0x8
@[inline] def GLB_DIEID_ID (n : Nat) : FRef := ⟨aGLB_DIEID n, 0, 64⟩
/-- Address of GLB_STACKID (R419). -/
def aGLB_STACKID (n : Nat) : Nat := 0x80 + n * 0x8
@[inline] def GLB_STACKID_ID (n : Nat) : FRef := ⟨aGLB_STACKID n, 0, 64⟩
/-- Address of MGT_STAT (R420). -/
def aMGT_STAT : Nat := 0x100000
@[inline] def MGT_STAT_RUN : FRef := ⟨aMGT_STAT, 31, 1⟩
@[inline] def MGT_STAT_SHED : FRef := ⟨aMGT_STAT, 30, 1⟩
@[inline] def MGT_STAT_LOAD : FRef := ⟨aMGT_STAT, 0, 7⟩
/-- Address of MGT_CFG (R420). -/
def aMGT_CFG : Nat := 0x100004
@[inline] def MGT_CFG_SHEDTHR : FRef := ⟨aMGT_CFG, 16, 8⟩
@[inline] def MGT_CFG_TELEM : FRef := ⟨aMGT_CFG, 0, 16⟩
/-- Address of MGT_SHEDCNT (R420). -/
def aMGT_SHEDCNT : Nat := 0x100008
@[inline] def MGT_SHEDCNT_CNT : FRef := ⟨aMGT_SHEDCNT, 0, 64⟩
/-- Address of MGT_WDRSTCNT (R420). -/
def aMGT_WDRSTCNT : Nat := 0x100010
@[inline] def MGT_WDRSTCNT_CNT : FRef := ⟨aMGT_WDRSTCNT, 0, 32⟩
/-- Address of MGT_LIBIDX (R420). -/
def aMGT_LIBIDX : Nat := 0x100014
@[inline] def MGT_LIBIDX_VERSION : FRef := ⟨aMGT_LIBIDX, 16, 16⟩
@[inline] def MGT_LIBIDX_COUNT : FRef := ⟨aMGT_LIBIDX, 0, 16⟩
/-- Address of MGT_EID (R420). -/
def aMGT_EID : Nat := 0x100018
@[inline] def MGT_EID_SMBUS : FRef := ⟨aMGT_EID, 16, 8⟩
@[inline] def MGT_EID_PORTB : FRef := ⟨aMGT_EID, 8, 8⟩
@[inline] def MGT_EID_PORTA : FRef := ⟨aMGT_EID, 0, 8⟩
/-- Address of MGT_REPDROP (R420). -/
def aMGT_REPDROP : Nat := 0x10001C
@[inline] def MGT_REPDROP_CNT : FRef := ⟨aMGT_REPDROP, 0, 32⟩
/-- Address of SEC_SVN (R421). -/
def aSEC_SVN : Nat := 0x3C00000
@[inline] def SEC_SVN_FUSED : FRef := ⟨aSEC_SVN, 8, 8⟩
@[inline] def SEC_SVN_IMAGE : FRef := ⟨aSEC_SVN, 0, 8⟩
/-- Address of SEC_SVNCOMMIT (R421). -/
def aSEC_SVNCOMMIT : Nat := 0x3C00004
@[inline] def SEC_SVNCOMMIT_CONFIRM : FRef := ⟨aSEC_SVNCOMMIT, 0, 8⟩
/-- Address of SEC_MEASCFG (R421). -/
def aSEC_MEASCFG : Nat := 0x3C00008
@[inline] def SEC_MEASCFG_ELVOB : FRef := ⟨aSEC_MEASCFG, 0, 1⟩
/-- Address of SEC_TAGWR (R421). -/
def aSEC_TAGWR : Nat := 0x3C0000C
@[inline] def SEC_TAGWR_CNT : FRef := ⟨aSEC_TAGWR, 0, 32⟩
/-- Address of SEC_UPDBUF (R421). -/
def aSEC_UPDBUF : Nat := 0x3C00010
@[inline] def SEC_UPDBUF_BASE : FRef := ⟨aSEC_UPDBUF, 12, 36⟩
@[inline] def SEC_UPDBUF_EN : FRef := ⟨aSEC_UPDBUF, 0, 1⟩
/-- Address of SEC_UPDSTAT (R421). -/
def aSEC_UPDSTAT : Nat := 0x3C00018
@[inline] def SEC_UPDSTAT_STATE : FRef := ⟨aSEC_UPDSTAT, 29, 3⟩
@[inline] def SEC_UPDSTAT_ERR : FRef := ⟨aSEC_UPDSTAT, 24, 5⟩
@[inline] def SEC_UPDSTAT_PROGRESS : FRef := ⟨aSEC_UPDSTAT, 0, 16⟩
/-- Address of SEC_PENDVER (R421). -/
def aSEC_PENDVER : Nat := 0x3C0001C
@[inline] def SEC_PENDVER_FWVER : FRef := ⟨aSEC_PENDVER, 0, 32⟩
/-- Address of SEC_KEYHASH (R421). -/
def aSEC_KEYHASH (k : Nat) : Nat := 0x3C00040 + k * 0x4
@[inline] def SEC_KEYHASH_DIGEST (k : Nat) : FRef := ⟨aSEC_KEYHASH k, 0, 32⟩
/-- Address of EVR_CTRL (R444). -/
def aEVR_CTRL : Nat := 0x200000
@[inline] def EVR_CTRL_FAULTAMB : FRef := ⟨aEVR_CTRL, 2, 1⟩
@[inline] def EVR_CTRL_CNT_CLR : FRef := ⟨aEVR_CTRL, 0, 1⟩
/-- Address of EVR_STAT (R444). -/
def aEVR_STAT : Nat := 0x200004
@[inline] def EVR_STAT_FAULT : FRef := ⟨aEVR_STAT, 31, 1⟩
@[inline] def EVR_STAT_HELD : FRef := ⟨aEVR_STAT, 30, 1⟩
@[inline] def EVR_STAT_RED : FRef := ⟨aEVR_STAT, 29, 1⟩
@[inline] def EVR_STAT_ANY : FRef := ⟨aEVR_STAT, 28, 1⟩
@[inline] def EVR_STAT_ESCCNT : FRef := ⟨aEVR_STAT, 0, 8⟩
/-- Address of EVR_HEAD (R444). -/
def aEVR_HEAD : Nat := 0x200008
@[inline] def EVR_HEAD_SEQ : FRef := ⟨aEVR_HEAD, 0, 32⟩
/-- Address of EVR_RATE (R444). -/
def aEVR_RATE : Nat := 0x20000C
@[inline] def EVR_RATE_ABURST : FRef := ⟨aEVR_RATE, 24, 8⟩
@[inline] def EVR_RATE_AREFILL : FRef := ⟨aEVR_RATE, 16, 8⟩
@[inline] def EVR_RATE_GBURST : FRef := ⟨aEVR_RATE, 8, 8⟩
@[inline] def EVR_RATE_GREFILL : FRef := ⟨aEVR_RATE, 0, 8⟩
/-- Address of EVR_ESC (R444). -/
def aEVR_ESC : Nat := 0x200010
@[inline] def EVR_ESC_LIMIT : FRef := ⟨aEVR_ESC, 0, 8⟩
/-- Address of EVR_FLCNT (R444). -/
def aEVR_FLCNT : Nat := 0x200014
@[inline] def EVR_FLCNT_CNT : FRef := ⟨aEVR_FLCNT, 0, 7⟩
/-- Address of EVR_DROPCNT (R444). -/
def aEVR_DROPCNT : Nat := 0x200018
@[inline] def EVR_DROPCNT_AMBER : FRef := ⟨aEVR_DROPCNT, 32, 32⟩
@[inline] def EVR_DROPCNT_GREY : FRef := ⟨aEVR_DROPCNT, 0, 32⟩
/-- Address of EVR_REC (R444). -/
def aEVR_REC (i w : Nat) : Nat := 0x210000 + i * 0x20 + w * 0x8
@[inline] def EVR_REC_WORD (i w : Nat) : FRef := ⟨aEVR_REC i w, 0, 64⟩
/-- Address of EVR_FLASH (R444). -/
def aEVR_FLASH (j w : Nat) : Nat := 0x230000 + j * 0x20 + w * 0x8
@[inline] def EVR_FLASH_WORD (j w : Nat) : FRef := ⟨aEVR_FLASH j w, 0, 64⟩
/-- Address of GLB_RESET (R445). -/
def aGLB_RESET : Nat := 0x300
@[inline] def GLB_RESET_KEY : FRef := ⟨aGLB_RESET, 0, 8⟩
/-- Address of GLB_TILERST (R445). -/
def aGLB_TILERST : Nat := 0x304
@[inline] def GLB_TILERST_TILES : FRef := ⟨aGLB_TILERST, 0, 24⟩
/-- Address of GLB_RSTCAUSE (R445). -/
def aGLB_RSTCAUSE : Nat := 0x308
@[inline] def GLB_RSTCAUSE_LAST : FRef := ⟨aGLB_RSTCAUSE, 30, 2⟩
@[inline] def GLB_RSTCAUSE_CODE : FRef := ⟨aGLB_RSTCAUSE, 0, 16⟩
/-- Address of PWR_CTRL (R474). -/
def aPWR_CTRL : Nat := 0x3800000
@[inline] def PWR_CTRL_CNT_CLR : FRef := ⟨aPWR_CTRL, 0, 1⟩
/-- Address of PWR_STAT (R474). -/
def aPWR_STAT : Nat := 0x3800004
@[inline] def PWR_STAT_TRIP : FRef := ⟨aPWR_STAT, 31, 1⟩
@[inline] def PWR_STAT_PROCHOT : FRef := ⟨aPWR_STAT, 30, 1⟩
@[inline] def PWR_STAT_AVSERR : FRef := ⟨aPWR_STAT, 29, 1⟩
@[inline] def PWR_STAT_VALID : FRef := ⟨aPWR_STAT, 0, 11⟩
/-- Address of PWR_THR (R474). -/
def aPWR_THR : Nat := 0x3800008
@[inline] def PWR_THR_PHS : FRef := ⟨aPWR_THR, 20, 4⟩
@[inline] def PWR_THR_TJTHR : FRef := ⟨aPWR_THR, 0, 8⟩
/-- Address of PWR_ICAP (R474). -/
def aPWR_ICAP (d : Nat) : Nat := 0x3800010 + d * 0x4
@[inline] def PWR_ICAP_ICAP (d : Nat) : FRef := ⟨aPWR_ICAP d, 0, 10⟩
/-- Address of PWR_VSET (R474). -/
def aPWR_VSET (d : Nat) : Nat := 0x3800020 + d * 0x4
@[inline] def PWR_VSET_MV (d : Nat) : FRef := ⟨aPWR_VSET d, 0, 16⟩
/-- Address of PWR_IMEAS (R474). -/
def aPWR_IMEAS (d : Nat) : Nat := 0x3800040 + d * 0x4
@[inline] def PWR_IMEAS_CUR (d : Nat) : FRef := ⟨aPWR_IMEAS d, 0, 16⟩
/-- Address of PWR_STRETCH (R474). -/
def aPWR_STRETCH (d : Nat) : Nat := 0x3800060 + d * 0x4
@[inline] def PWR_STRETCH_S (d : Nat) : FRef := ⟨aPWR_STRETCH d, 28, 4⟩
@[inline] def PWR_STRETCH_CAUSE (d : Nat) : FRef := ⟨aPWR_STRETCH d, 16, 4⟩
@[inline] def PWR_STRETCH_FORCE (d : Nat) : FRef := ⟨aPWR_STRETCH d, 0, 4⟩
/-- Address of PWR_THRCNT (R474). -/
def aPWR_THRCNT (d : Nat) : Nat := 0x3800080 + d * 0x8
@[inline] def PWR_THRCNT_CNT (d : Nat) : FRef := ⟨aPWR_THRCNT d, 0, 64⟩
/-- Address of PWR_AVSERR (R474). -/
def aPWR_AVSERR : Nat := 0x38000A0
@[inline] def PWR_AVSERR_CNT : FRef := ⟨aPWR_AVSERR, 0, 32⟩
/-- Address of PWR_TEMP (R474). -/
def aPWR_TEMP (n : Nat) : Nat := 0x3800100 + n * 0x4
@[inline] def PWR_TEMP_TEMP (n : Nat) : FRef := ⟨aPWR_TEMP n, 0, 16⟩

/-- The TIL registers. -/
def regsTil : List RegRow := [  ⟨0x1000010, [(24, 0x100000)], false, 0x300D, [⟨31, 30, .ro, 2, []⟩, ⟨29, 29, .wo, 0, []⟩, ⟨24, 24, .rw, 1, []⟩, ⟨23, 12, .rw, 0x64, [(0, 0)]⟩, ⟨9, 0, .rw, 0x7D, []⟩]⟩,
  ⟨0x1008000, [(24, 0x100000), (64, 0x20)], false, 0x300D, [⟨31, 0, .ro, 0, []⟩]⟩,
  ⟨0x508000, [(4, 0x10000), (16, 0x20)], false, 0x300D, [⟨31, 0, .ro, 0, []⟩]⟩,
  ⟨0x1008004, [(24, 0x100000), (64, 0x20)], false, 0x300D, [⟨31, 0, .ro, 0, []⟩]⟩,
  ⟨0x508004, [(4, 0x10000), (16, 0x20)], false, 0x300D, [⟨31, 0, .ro, 0, []⟩]⟩,
  ⟨0x1008008, [(24, 0x100000), (64, 0x20)], false, 0x300D, [⟨31, 0, .ro, 0, []⟩]⟩,
  ⟨0x508008, [(4, 0x10000), (16, 0x20)], false, 0x300D, [⟨31, 0, .ro, 0, []⟩]⟩,
  ⟨0x100800C, [(24, 0x100000), (64, 0x20)], false, 0x300D, [⟨31, 0, .ro, 0, []⟩]⟩,
  ⟨0x50800C, [(4, 0x10000), (16, 0x20)], false, 0x300D, [⟨31, 0, .ro, 0, []⟩]⟩,
  ⟨0x1008010, [(24, 0x100000), (64, 0x20)], false, 0x300D, [⟨31, 0, .ro, 0, []⟩]⟩,
  ⟨0x508010, [(4, 0x10000), (16, 0x20)], false, 0x300D, [⟨31, 0, .ro, 0, []⟩]⟩,
  ⟨0x1008014, [(24, 0x100000), (64, 0x20)], false, 0x300D, [⟨31, 29, .ro, 0, []⟩, ⟨28, 16, .ro, 0, []⟩, ⟨15, 0, .ro, 0, []⟩]⟩,
  ⟨0x508014, [(4, 0x10000), (16, 0x20)], false, 0x300D, [⟨31, 29, .ro, 0, []⟩, ⟨28, 16, .ro, 0, []⟩, ⟨15, 0, .ro, 0, []⟩]⟩,
  ⟨0x1008018, [(24, 0x100000), (64, 0x20)], false, 0x300D, [⟨31, 0, .ro, 0, []⟩]⟩,
  ⟨0x508018, [(4, 0x10000), (16, 0x20)], false, 0x300D, [⟨31, 0, .ro, 0, []⟩]⟩,
  ⟨0x100801C, [(24, 0x100000), (64, 0x20)], false, 0x300D, [⟨31, 31, .wo, 0, []⟩, ⟨30, 30, .rw, 1, []⟩, ⟨1, 1, .ro, 0, []⟩, ⟨0, 0, .ro, 0, []⟩]⟩,
  ⟨0x50801C, [(4, 0x10000), (16, 0x20)], false, 0x300D, [⟨31, 31, .wo, 0, []⟩, ⟨30, 30, .rw, 1, []⟩, ⟨1, 1, .ro, 0, []⟩, ⟨0, 0, .ro, 0, []⟩]⟩,
  ⟨0x1000020, [(24, 0x100000)], true, 0x300D, [⟨63, 0, .rw, 0, []⟩]⟩,
  ⟨0xF80020, [], true, 0x300D, [⟨63, 0, .rw, 0, []⟩]⟩,
  ⟨0x1000028, [(24, 0x100000)], true, 0x300D, [⟨39, 0, .rw, 0, []⟩]⟩,
  ⟨0xF80028, [], true, 0x300D, [⟨39, 0, .rw, 0, []⟩]⟩,
  ⟨0x1001000, [(24, 0x100000), (512, 0x4)], false, 0x300D, [⟨15, 0, .rw, 0, []⟩]⟩,
  ⟨0xF81000, [(512, 0x4)], false, 0x300D, [⟨15, 0, .rw, 0, []⟩]⟩,
  ⟨0x1002000, [(24, 0x100000), (512, 0x4)], false, 0x300D, [⟨7, 0, .wo, 0, []⟩]⟩,
  ⟨0xF82000, [(512, 0x4)], false, 0x300D, [⟨7, 0, .wo, 0, []⟩]⟩,
  ⟨0x1003000, [(24, 0x100000), (512, 0x4)], false, 0x300D, [⟨15, 0, .rw, 0, []⟩]⟩,
  ⟨0xF83000, [(512, 0x4)], false, 0x300D, [⟨15, 0, .rw, 0, []⟩]⟩,
  ⟨0x1004000, [(24, 0x100000), (16, 0x8)], true, 0x300D, [⟨63, 48, .rw, 0, []⟩, ⟨47, 32, .rw, 0, []⟩, ⟨31, 31, .rw, 0, []⟩, ⟨30, 30, .rw, 0, []⟩, ⟨29, 25, .rw, 0, [(24, 31)]⟩, ⟨24, 16, .rw, 1, [(0, 0)]⟩, ⟨1, 1, .w1c, 0, []⟩, ⟨0, 0, .w1c, 0, []⟩]⟩,
  ⟨0xF84000, [(16, 0x8)], true, 0x300D, [⟨63, 48, .rw, 0, []⟩, ⟨47, 32, .rw, 0, []⟩, ⟨31, 31, .rw, 0, []⟩, ⟨30, 30, .rw, 0, []⟩, ⟨29, 25, .rw, 0, [(24, 31)]⟩, ⟨24, 16, .rw, 1, [(0, 0)]⟩, ⟨1, 1, .w1c, 0, []⟩, ⟨0, 0, .w1c, 0, []⟩]⟩,
  ⟨0x1000100, [(24, 0x100000)], false, 0x300D, [⟨7, 7, .wo, 0, []⟩, ⟨6, 6, .wo, 0, []⟩, ⟨5, 5, .wo, 0, []⟩, ⟨4, 4, .rw, 0, []⟩, ⟨3, 3, .rw, 1, []⟩, ⟨1, 0, .rw, 0, [(2, 3)]⟩]⟩,
  ⟨0xF80100, [], false, 0x300D, [⟨7, 7, .wo, 0, []⟩, ⟨6, 6, .wo, 0, []⟩, ⟨5, 5, .wo, 0, []⟩, ⟨4, 4, .rw, 0, []⟩, ⟨3, 3, .rw, 1, []⟩, ⟨1, 0, .rw, 0, [(2, 3)]⟩]⟩,
  ⟨0x1000104, [(24, 0x100000)], false, 0x300D, [⟨31, 29, .ro, 0, []⟩, ⟨28, 28, .ro, 0, []⟩, ⟨27, 24, .ro, 0, []⟩, ⟨15, 0, .ro, 0, []⟩]⟩,
  ⟨0xF80104, [], false, 0x300D, [⟨31, 29, .ro, 0, []⟩, ⟨28, 28, .ro, 0, []⟩, ⟨27, 24, .ro, 0, []⟩, ⟨15, 0, .ro, 0, []⟩]⟩,
  ⟨0x1000108, [(24, 0x100000)], false, 0x300D, [⟨31, 0, .rw, 0, []⟩]⟩,
  ⟨0xF80108, [], false, 0x300D, [⟨31, 0, .rw, 0, []⟩]⟩,
  ⟨0x100010C, [(24, 0x100000)], false, 0x300D, [⟨11, 0, .rw, 0x200, [(0, 0)]⟩]⟩,
  ⟨0xF8010C, [], false, 0x300D, [⟨11, 0, .rw, 0x200, [(0, 0)]⟩]⟩,
  ⟨0x1000110, [(24, 0x100000)], true, 0x300D, [⟨47, 0, .rw, 0, []⟩]⟩,
  ⟨0xF80110, [], true, 0x300D, [⟨47, 0, .rw, 0, []⟩]⟩,
  ⟨0x1000118, [(24, 0x100000)], true, 0x300D, [⟨47, 0, .rw, 0, []⟩]⟩,
  ⟨0xF80118, [], true, 0x300D, [⟨47, 0, .rw, 0, []⟩]⟩,
  ⟨0x1000120, [(24, 0x100000)], true, 0x300D, [⟨63, 48, .ro, 0, []⟩, ⟨47, 45, .ro, 0, []⟩, ⟨44, 32, .ro, 0, []⟩]⟩,
  ⟨0xF80120, [], true, 0x300D, [⟨63, 48, .ro, 0, []⟩, ⟨47, 45, .ro, 0, []⟩, ⟨44, 32, .ro, 0, []⟩]⟩,
  ⟨0x1000128, [(24, 0x100000)], true, 0x300D, [⟨63, 0, .ro, 0, []⟩]⟩,
  ⟨0xF80128, [], true, 0x300D, [⟨63, 0, .ro, 0, []⟩]⟩,
  ⟨0x1000140, [(24, 0x100000), (8, 0x4)], false, 0x300D, [⟨31, 0, .ro, 0, []⟩]⟩,
  ⟨0xF80140, [(8, 0x4)], false, 0x300D, [⟨31, 0, .ro, 0, []⟩]⟩,
  ⟨0x1000200, [(24, 0x100000), (8, 0x10)], true, 0x300D, [⟨47, 12, .rw, 0, []⟩, ⟨1, 1, .rw, 0, []⟩, ⟨0, 0, .rw, 0, []⟩]⟩,
  ⟨0x1000208, [(24, 0x100000), (8, 0x10)], true, 0x300D, [⟨47, 12, .rw, 0, []⟩]⟩]

/-- The GLB registers. -/
def regsGlb : List RegRow := [  ⟨0x200, [(4, 0x4)], false, 0x7007, [⟨31, 0, .rw, 0, []⟩]⟩,
  ⟨0x100, [], false, 0x7007, [⟨15, 0, .rw, 0, [(65535, 65535)]⟩]⟩,
  ⟨0x104, [], false, 0x7007, [⟨31, 31, .rw, 0, []⟩, ⟨23, 0, .rw, 0, []⟩]⟩,
  ⟨0x108, [], false, 0x7007, [⟨15, 0, .rw, 0, []⟩]⟩,
  ⟨0x0, [], true, 0x7007, [⟨63, 0, .ro, 0, []⟩]⟩,
  ⟨0x8, [], false, 0x7007, [⟨31, 16, .ro, 0, []⟩, ⟨15, 8, .ro, 0, []⟩]⟩,
  ⟨0xC, [], false, 0x7007, [⟨7, 4, .ro, 0, []⟩, ⟨3, 0, .ro, 0, []⟩]⟩,
  ⟨0x10, [], false, 0x7007, [⟨31, 29, .ro, 0, []⟩, ⟨28, 24, .ro, 0, []⟩, ⟨23, 23, .ro, 0, []⟩, ⟨22, 22, .ro, 0, []⟩, ⟨21, 21, .ro, 0, []⟩, ⟨15, 0, .ro, 0, []⟩]⟩,
  ⟨0x14, [], false, 0x7007, [⟨31, 0, .ro, 0, []⟩]⟩,
  ⟨0x40, [(6, 0x8)], true, 0x7007, [⟨63, 0, .ro, 0, []⟩]⟩,
  ⟨0x80, [(16, 0x8)], true, 0x7007, [⟨63, 0, .ro, 0, []⟩]⟩,
  ⟨0x300, [], false, 0x7007, [⟨7, 0, .wo, 0, []⟩]⟩,
  ⟨0x304, [], false, 0x7007, [⟨23, 0, .w1s, 0, []⟩]⟩,
  ⟨0x308, [], false, 0x7007, [⟨31, 30, .ro, 0, []⟩, ⟨15, 0, .ro, 0, []⟩]⟩]

/-- The MXE registers. -/
def regsMxe : List RegRow := [  ⟨0x1010000, [(24, 0x100000), (2, 0x10000)], false, 0x1008, [⟨3, 3, .wo, 0, []⟩, ⟨1, 1, .rw, 1, []⟩, ⟨0, 0, .rw, 1, []⟩]⟩,
  ⟨0x1010004, [(24, 0x100000), (2, 0x10000)], false, 0x1008, [⟨31, 30, .ro, 0, []⟩, ⟨29, 29, .ro, 0, []⟩, ⟨25, 16, .ro, 0, []⟩, ⟨3, 3, .w1c, 0, []⟩, ⟨2, 2, .w1c, 0, []⟩, ⟨0, 0, .w1c, 0, []⟩]⟩,
  ⟨0x1010008, [(24, 0x100000), (2, 0x10000)], true, 0x1008, [⟨63, 48, .ro, 0, []⟩, ⟨31, 29, .ro, 0, []⟩, ⟨28, 16, .ro, 0, []⟩, ⟨15, 15, .ro, 0, []⟩, ⟨14, 14, .ro, 0, []⟩, ⟨10, 0, .ro, 0, []⟩]⟩,
  ⟨0x1010010, [(24, 0x100000), (2, 0x10000)], false, 0x1008, [⟨21, 16, .rw, 0x10, [(0, 0)]⟩, ⟨7, 0, .rw, 0xA, [(0, 9)]⟩]⟩,
  ⟨0x1010018, [(24, 0x100000), (2, 0x10000)], true, 0x1008, [⟨63, 0, .ro, 0, []⟩]⟩,
  ⟨0x1010020, [(24, 0x100000), (2, 0x10000)], true, 0x1008, [⟨63, 0, .ro, 0, []⟩]⟩,
  ⟨0x1010028, [(24, 0x100000), (2, 0x10000)], true, 0x1008, [⟨63, 0, .ro, 0, []⟩]⟩,
  ⟨0x1010040, [(24, 0x100000), (2, 0x10000), (4, 0x4)], false, 0x1008, [⟨31, 0, .ro, 0xFFFFFFFF, []⟩]⟩,
  ⟨0x1010050, [(24, 0x100000), (2, 0x10000), (4, 0x4)], false, 0x1008, [⟨31, 0, .ro, 0xFFFFFFFF, []⟩]⟩]

/-- The ELE registers. -/
def regsEle : List RegRow := [  ⟨0x1030000, [(24, 0x100000)], false, 0x2005, [⟨2, 2, .rw, 0, []⟩, ⟨0, 0, .wo, 0, []⟩]⟩,
  ⟨0x1030004, [(24, 0x100000)], false, 0x2005, [⟨31, 30, .ro, 0, []⟩, ⟨19, 16, .ro, 0, []⟩, ⟨2, 2, .w1c, 0, []⟩, ⟨0, 0, .w1c, 0, []⟩]⟩,
  ⟨0x1030008, [(24, 0x100000)], true, 0x2005, [⟨63, 48, .ro, 0, []⟩, ⟨28, 16, .ro, 0, []⟩, ⟨0, 0, .ro, 0, []⟩]⟩,
  ⟨0x1030010, [(24, 0x100000)], true, 0x2005, [⟨63, 0, .ro, 0, []⟩]⟩,
  ⟨0x1030018, [(24, 0x100000)], true, 0x2005, [⟨63, 0, .ro, 0, []⟩]⟩,
  ⟨0x1031000, [(24, 0x100000), (16, 0x80), (32, 0x4)], false, 0x2005, [⟨31, 0, .ro, 0, []⟩]⟩]

/-- The QUE registers. -/
def regsQue : List RegRow := [  ⟨0x1080000, [(24, 0x100000), (5, 0x10000)], false, 0x300D, [⟨6, 6, .wo, 0, []⟩, ⟨5, 5, .wo, 0, []⟩, ⟨4, 4, .wo, 0, []⟩, ⟨3, 3, .rw, 0, []⟩, ⟨2, 2, .wo, 0, []⟩, ⟨1, 1, .wo, 0, []⟩]⟩,
  ⟨0xF00000, [(4, 0x10000)], false, 0x300D, [⟨6, 6, .wo, 0, []⟩, ⟨5, 5, .wo, 0, []⟩, ⟨4, 4, .wo, 0, []⟩, ⟨3, 3, .rw, 0, []⟩, ⟨2, 2, .wo, 0, []⟩, ⟨1, 1, .wo, 0, []⟩]⟩,
  ⟨0x1F0000, [], false, 0x300D, [⟨6, 6, .wo, 0, []⟩, ⟨5, 5, .wo, 0, []⟩, ⟨4, 4, .wo, 0, []⟩, ⟨3, 3, .rw, 0, []⟩, ⟨2, 2, .wo, 0, []⟩, ⟨1, 1, .wo, 0, []⟩]⟩,
  ⟨0x1080004, [(24, 0x100000), (5, 0x10000)], false, 0x300D, [⟨31, 29, .ro, 0, []⟩, ⟨28, 16, .ro, 0, []⟩, ⟨15, 15, .ro, 0, []⟩, ⟨14, 13, .ro, 0, []⟩, ⟨8, 0, .ro, 0, []⟩]⟩,
  ⟨0xF00004, [(4, 0x10000)], false, 0x300D, [⟨31, 29, .ro, 0, []⟩, ⟨28, 16, .ro, 0, []⟩, ⟨15, 15, .ro, 0, []⟩, ⟨14, 13, .ro, 0, []⟩, ⟨8, 0, .ro, 0, []⟩]⟩,
  ⟨0x1F0004, [], false, 0x300D, [⟨31, 29, .ro, 0, []⟩, ⟨28, 16, .ro, 0, []⟩, ⟨15, 15, .ro, 0, []⟩, ⟨14, 13, .ro, 0, []⟩, ⟨8, 0, .ro, 0, []⟩]⟩,
  ⟨0x1080008, [(24, 0x100000), (5, 0x10000)], false, 0x300D, [⟨13, 0, .ro, 0, []⟩]⟩,
  ⟨0xF00008, [(4, 0x10000)], false, 0x300D, [⟨13, 0, .ro, 0, []⟩]⟩,
  ⟨0x1F0008, [], false, 0x300D, [⟨13, 0, .ro, 0, []⟩]⟩,
  ⟨0x108000C, [(24, 0x100000), (5, 0x10000)], false, 0x300D, [⟨31, 0, .rw, 0, []⟩]⟩,
  ⟨0xF0000C, [(4, 0x10000)], false, 0x300D, [⟨31, 0, .rw, 0, []⟩]⟩,
  ⟨0x1F000C, [], false, 0x300D, [⟨31, 0, .rw, 0, []⟩]⟩,
  ⟨0x1080010, [(24, 0x100000), (5, 0x10000)], false, 0x300D, [⟨31, 0, .ro, 0, []⟩]⟩,
  ⟨0xF00010, [(4, 0x10000)], false, 0x300D, [⟨31, 0, .ro, 0, []⟩]⟩,
  ⟨0x1F0010, [], false, 0x300D, [⟨31, 0, .ro, 0, []⟩]⟩,
  ⟨0x1080014, [(24, 0x100000), (5, 0x10000)], false, 0x300D, [⟨23, 0, .rw, 0x186A0, []⟩]⟩,
  ⟨0xF00014, [(4, 0x10000)], false, 0x300D, [⟨23, 0, .rw, 0x186A0, []⟩]⟩,
  ⟨0x1F0014, [], false, 0x300D, [⟨23, 0, .rw, 0x186A0, []⟩]⟩,
  ⟨0x1080018, [(24, 0x100000), (5, 0x10000)], false, 0x300D, [⟨31, 28, .ro, 0, []⟩, ⟨15, 0, .rcl, 0, []⟩]⟩,
  ⟨0xF00018, [(4, 0x10000)], false, 0x300D, [⟨31, 28, .ro, 0, []⟩, ⟨15, 0, .rcl, 0, []⟩]⟩,
  ⟨0x1F0018, [], false, 0x300D, [⟨31, 28, .ro, 0, []⟩, ⟨15, 0, .rcl, 0, []⟩]⟩,
  ⟨0x1080020, [(24, 0x100000), (5, 0x10000)], true, 0x300D, [⟨63, 48, .ro, 0, []⟩, ⟨47, 32, .ro, 0, []⟩, ⟨31, 31, .ro, 0, []⟩, ⟨30, 30, .ro, 0, []⟩, ⟨29, 29, .ro, 0, []⟩, ⟨28, 16, .ro, 0, []⟩, ⟨8, 0, .ro, 0, []⟩]⟩,
  ⟨0xF00020, [(4, 0x10000)], true, 0x300D, [⟨63, 48, .ro, 0, []⟩, ⟨47, 32, .ro, 0, []⟩, ⟨31, 31, .ro, 0, []⟩, ⟨30, 30, .ro, 0, []⟩, ⟨29, 29, .ro, 0, []⟩, ⟨28, 16, .ro, 0, []⟩, ⟨8, 0, .ro, 0, []⟩]⟩,
  ⟨0x1F0020, [], true, 0x300D, [⟨63, 48, .ro, 0, []⟩, ⟨47, 32, .ro, 0, []⟩, ⟨31, 31, .ro, 0, []⟩, ⟨30, 30, .ro, 0, []⟩, ⟨29, 29, .ro, 0, []⟩, ⟨28, 16, .ro, 0, []⟩, ⟨8, 0, .ro, 0, []⟩]⟩,
  ⟨0x1080028, [(24, 0x100000), (5, 0x10000)], true, 0x300D, [⟨63, 0, .ro, 0, []⟩]⟩,
  ⟨0xF00028, [(4, 0x10000)], true, 0x300D, [⟨63, 0, .ro, 0, []⟩]⟩,
  ⟨0x1F0028, [], true, 0x300D, [⟨63, 0, .ro, 0, []⟩]⟩,
  ⟨0x1080030, [(24, 0x100000), (5, 0x10000)], true, 0x300D, [⟨63, 0, .ro, 0, []⟩]⟩,
  ⟨0xF00030, [(4, 0x10000)], true, 0x300D, [⟨63, 0, .ro, 0, []⟩]⟩,
  ⟨0x1F0030, [], true, 0x300D, [⟨63, 0, .ro, 0, []⟩]⟩,
  ⟨0x1080038, [(24, 0x100000), (5, 0x10000)], false, 0x300D, [⟨0, 0, .rw, 0, []⟩]⟩,
  ⟨0xF00038, [(4, 0x10000)], false, 0x300D, [⟨0, 0, .rw, 0, []⟩]⟩,
  ⟨0x1F0038, [], false, 0x300D, [⟨0, 0, .rw, 0, []⟩]⟩,
  ⟨0x1080100, [(24, 0x100000), (5, 0x10000)], true, 0x300D, [⟨63, 0, .ro, 0, []⟩]⟩,
  ⟨0x1080108, [(24, 0x100000), (5, 0x10000), (15, 0x8)], true, 0x300D, [⟨63, 0, .rw, 0, []⟩]⟩,
  ⟨0xF00100, [(4, 0x10000)], true, 0x300D, [⟨63, 0, .ro, 0, []⟩]⟩,
  ⟨0xF00108, [(4, 0x10000), (15, 0x8)], true, 0x300D, [⟨63, 0, .rw, 0, []⟩]⟩,
  ⟨0x1F0100, [], true, 0x300D, [⟨63, 0, .ro, 0, []⟩]⟩,
  ⟨0x1F0108, [(15, 0x8)], true, 0x300D, [⟨63, 0, .rw, 0, []⟩]⟩,
  ⟨0x1080180, [(24, 0x100000), (5, 0x10000), (16, 0x8)], true, 0x300D, [⟨63, 0, .rw, 0, []⟩]⟩,
  ⟨0xF00180, [(4, 0x10000), (16, 0x8)], true, 0x300D, [⟨63, 0, .rw, 0, []⟩]⟩,
  ⟨0x1F0180, [(16, 0x8)], true, 0x300D, [⟨63, 0, .rw, 0, []⟩]⟩,
  ⟨0x1080200, [(24, 0x100000), (5, 0x10000), (16, 0x8)], true, 0x300D, [⟨47, 0, .rw, 0, []⟩]⟩,
  ⟨0xF00200, [(4, 0x10000), (16, 0x8)], true, 0x300D, [⟨47, 0, .rw, 0, []⟩]⟩,
  ⟨0x1F0200, [(16, 0x8)], true, 0x300D, [⟨47, 0, .rw, 0, []⟩]⟩,
  ⟨0x1080280, [(24, 0x100000), (5, 0x10000), (16, 0x4)], false, 0x300D, [⟨31, 16, .ro, 0, []⟩, ⟨15, 0, .rw, 0, []⟩]⟩,
  ⟨0xF00280, [(4, 0x10000), (16, 0x4)], false, 0x300D, [⟨31, 16, .ro, 0, []⟩, ⟨15, 0, .rw, 0, []⟩]⟩,
  ⟨0x1F0280, [(16, 0x4)], false, 0x300D, [⟨31, 16, .ro, 0, []⟩, ⟨15, 0, .rw, 0, []⟩]⟩]

/-- The FLM registers. -/
def regsFlm : List RegRow := [  ⟨0x1040000, [(24, 0x100000), (2, 0x10000)], false, 0x500B, [⟨2, 2, .rw, 0, []⟩, ⟨0, 0, .wo, 0, []⟩]⟩,
  ⟨0x1040004, [(24, 0x100000), (2, 0x10000)], false, 0x500B, [⟨31, 30, .ro, 0, []⟩, ⟨7, 4, .ro, 0, []⟩, ⟨3, 3, .w1c, 0, []⟩, ⟨2, 2, .w1c, 0, []⟩, ⟨0, 0, .w1c, 0, []⟩]⟩,
  ⟨0x1040008, [(24, 0x100000), (2, 0x10000)], true, 0x500B, [⟨63, 48, .ro, 0, []⟩, ⟨28, 16, .ro, 0, []⟩, ⟨0, 0, .ro, 0, []⟩]⟩,
  ⟨0x1040010, [(24, 0x100000), (2, 0x10000)], true, 0x500B, [⟨63, 0, .ro, 0, []⟩]⟩,
  ⟨0x1040018, [(24, 0x100000), (2, 0x10000)], true, 0x500B, [⟨63, 0, .ro, 0, []⟩]⟩,
  ⟨0x1040100, [(24, 0x100000), (2, 0x10000), (8, 0x8)], true, 0x500B, [⟨63, 0, .rw, 0, []⟩]⟩,
  ⟨0x1040140, [(24, 0x100000), (2, 0x10000), (8, 0x8)], true, 0x500B, [⟨47, 0, .rw, 0, []⟩]⟩]

/-- The HBC registers. -/
def regsHbc : List RegRow := [  ⟨0x3000000, [], false, 0x500B, [⟨2, 2, .wo, 0, []⟩, ⟨1, 1, .rw, 1, []⟩, ⟨0, 0, .rw, 1, []⟩]⟩,
  ⟨0x3000004, [], false, 0x500B, [⟨7, 0, .rw, 0x18, [(0, 0)]⟩]⟩,
  ⟨0x3000008, [], false, 0x500B, [⟨7, 0, .rw, 0x10, []⟩]⟩,
  ⟨0x3000020, [], false, 0x500B, [⟨5, 0, .rw, 0x34, []⟩]⟩,
  ⟨0x3000024, [], false, 0x500B, [⟨5, 0, .rw, 2, []⟩]⟩,
  ⟨0x3000028, [], false, 0x500B, [⟨5, 0, .rw, 2, []⟩]⟩,
  ⟨0x300002C, [], false, 0x500B, [⟨5, 0, .rw, 2, []⟩]⟩,
  ⟨0x3000030, [], false, 0x500B, [⟨5, 0, .rw, 2, []⟩]⟩,
  ⟨0x3000034, [], false, 0x500B, [⟨5, 0, .rw, 1, []⟩]⟩,
  ⟨0x3000038, [], false, 0x500B, [⟨5, 0, .rw, 2, []⟩]⟩,
  ⟨0x300003C, [], false, 0x500B, [⟨5, 0, .rw, 1, []⟩]⟩,
  ⟨0x3001000, [(16, 0x40)], false, 0x500B, [⟨31, 30, .ro, 0, []⟩, ⟨29, 29, .ro, 0, []⟩]⟩,
  ⟨0x3001008, [(16, 0x40)], true, 0x500B, [⟨63, 0, .ro, 0, []⟩]⟩,
  ⟨0x3001010, [(16, 0x40)], true, 0x500B, [⟨63, 0, .ro, 0, []⟩]⟩,
  ⟨0x3001018, [(16, 0x40)], true, 0x500B, [⟨63, 62, .ro, 0, []⟩, ⟨47, 0, .ro, 0, []⟩]⟩]

/-- The LPC registers. -/
def regsLpc : List RegRow := [  ⟨0x3400000, [], false, 0x500B, [⟨2, 2, .wo, 0, []⟩, ⟨1, 1, .rw, 1, []⟩, ⟨0, 0, .rw, 1, []⟩]⟩,
  ⟨0x3400004, [], false, 0x500B, [⟨7, 0, .rw, 0xC, [(0, 0)]⟩]⟩,
  ⟨0x3400008, [], false, 0x500B, [⟨7, 0, .rw, 0x10, []⟩]⟩,
  ⟨0x3400020, [], false, 0x500B, [⟨5, 0, .rw, 0x34, []⟩]⟩,
  ⟨0x3400024, [], false, 0x500B, [⟨5, 0, .rw, 2, []⟩]⟩,
  ⟨0x3400028, [], false, 0x500B, [⟨5, 0, .rw, 2, []⟩]⟩,
  ⟨0x340002C, [], false, 0x500B, [⟨5, 0, .rw, 2, []⟩]⟩,
  ⟨0x3400030, [], false, 0x500B, [⟨5, 0, .rw, 2, []⟩]⟩,
  ⟨0x3400034, [], false, 0x500B, [⟨5, 0, .rw, 1, []⟩]⟩,
  ⟨0x3400038, [], false, 0x500B, [⟨5, 0, .rw, 2, []⟩]⟩,
  ⟨0x340003C, [], false, 0x500B, [⟨5, 0, .rw, 1, []⟩]⟩,
  ⟨0x3401000, [(4, 0x40)], false, 0x500B, [⟨31, 30, .ro, 0, []⟩]⟩,
  ⟨0x3401008, [(4, 0x40)], true, 0x500B, [⟨63, 0, .ro, 0, []⟩]⟩,
  ⟨0x3401010, [(4, 0x40)], true, 0x500B, [⟨63, 0, .ro, 0, []⟩]⟩,
  ⟨0x3401018, [(4, 0x40)], true, 0x500B, [⟨63, 62, .ro, 0, []⟩, ⟨47, 0, .ro, 0, []⟩]⟩,
  ⟨0x3400100, [], false, 0x500B, [⟨1, 1, .rw, 1, []⟩, ⟨0, 0, .rw, 0, []⟩]⟩,
  ⟨0x3400108, [], true, 0x500B, [⟨63, 48, .rw, 0, []⟩, ⟨47, 32, .rw, 0, []⟩, ⟨31, 16, .rw, 0, []⟩]⟩,
  ⟨0x3400110, [], false, 0x500B, [⟨31, 31, .w1c, 0, []⟩, ⟨30, 30, .w1c, 0, []⟩, ⟨15, 0, .ro, 0, []⟩]⟩,
  ⟨0x3400114, [], false, 0x500B, [⟨31, 0, .rcl, 0, []⟩]⟩,
  ⟨0x3400200, [(16, 0x20)], true, 0x500B, [⟨47, 12, .rw, 0, []⟩, ⟨0, 0, .rw, 0, []⟩]⟩,
  ⟨0x3400208, [(16, 0x20)], true, 0x500B, [⟨47, 12, .rw, 0, []⟩]⟩,
  ⟨0x3400210, [(16, 0x20)], true, 0x500B, [⟨37, 12, .rw, 0, []⟩]⟩,
  ⟨0x3400218, [(16, 0x20)], true, 0x500B, [⟨63, 63, .ro, 0, []⟩, ⟨39, 0, .ro, 0, []⟩]⟩]

/-- The LNK registers. -/
def regsLnk : List RegRow := [  ⟨0x400000, [(24, 0x1000)], false, 0x600C, [⟨7, 7, .wo, 0, []⟩, ⟨6, 6, .rw, 0, []⟩, ⟨5, 5, .rw, 1, []⟩, ⟨4, 4, .wo, 0, []⟩, ⟨3, 3, .rw, 0, []⟩, ⟨0, 0, .rw, 1, []⟩]⟩,
  ⟨0x400004, [(24, 0x1000)], false, 0x600C, [⟨31, 29, .ro, 0, []⟩, ⟨28, 25, .ro, 0, []⟩, ⟨24, 22, .ro, 0, []⟩, ⟨18, 16, .ro, 0, []⟩, ⟨15, 12, .ro, 0, []⟩, ⟨11, 11, .ro, 0, []⟩, ⟨10, 10, .ro, 0, []⟩]⟩,
  ⟨0x400008, [(24, 0x1000)], false, 0x600C, [⟨11, 8, .rw, 0xF, [(8, 14)]⟩, ⟨1, 1, .rw, 0, []⟩, ⟨0, 0, .rw, 0, []⟩]⟩,
  ⟨0x40000C, [(24, 0x1000)], false, 0x600C, [⟨21, 16, .rw, 0x30, []⟩, ⟨5, 0, .rw, 0x20, [(0, 15), (57, 63)]⟩]⟩,
  ⟨0x400010, [(24, 0x1000)], false, 0x600C, [⟨27, 24, .rw, 8, [(0, 0)]⟩, ⟨23, 16, .rw, 0xA, [(0, 0)]⟩, ⟨15, 0, .rw, 0xC8, [(0, 19)]⟩]⟩,
  ⟨0x400014, [(24, 0x1000)], false, 0x600C, [⟨31, 16, .rw, 0x10, []⟩, ⟨15, 15, .rw, 0, []⟩, ⟨14, 0, .rw, 0x64, []⟩]⟩,
  ⟨0x400018, [(24, 0x1000)], false, 0x600C, [⟨3, 3, .rw, 0, []⟩, ⟨2, 2, .rw, 0, []⟩, ⟨1, 0, .rw, 0, []⟩]⟩,
  ⟨0x400020, [(24, 0x1000)], true, 0x600C, [⟨63, 62, .rw, 0, []⟩, ⟨55, 51, .rw, 0, [(24, 31)]⟩, ⟨50, 48, .rw, 0, []⟩, ⟨47, 24, .rw, 0, []⟩]⟩,
  ⟨0x400028, [(24, 0x1000)], true, 0x600C, [⟨63, 0, .rw, 0, []⟩]⟩,
  ⟨0x400030, [(24, 0x1000)], true, 0x600C, [⟨63, 48, .ro, 0, []⟩, ⟨47, 24, .ro, 0, []⟩, ⟨23, 20, .ro, 0, []⟩, ⟨19, 16, .ro, 0, []⟩, ⟨15, 11, .ro, 0, []⟩, ⟨3, 0, .ro, 0, []⟩]⟩,
  ⟨0x400038, [(24, 0x1000)], true, 0x600C, [⟨63, 0, .ro, 0, []⟩]⟩,
  ⟨0x400040, [(24, 0x1000)], true, 0x600C, [⟨63, 48, .ro, 0, []⟩, ⟨47, 32, .ro, 0, []⟩, ⟨31, 0, .ro, 0, []⟩]⟩,
  ⟨0x400080, [(24, 0x1000)], true, 0x600C, [⟨63, 0, .ro, 0, []⟩]⟩,
  ⟨0x400088, [(24, 0x1000)], true, 0x600C, [⟨63, 0, .ro, 0, []⟩]⟩,
  ⟨0x400090, [(24, 0x1000)], true, 0x600C, [⟨63, 0, .ro, 0, []⟩]⟩,
  ⟨0x400098, [(24, 0x1000)], true, 0x600C, [⟨63, 0, .ro, 0, []⟩]⟩,
  ⟨0x4000A0, [(24, 0x1000)], true, 0x600C, [⟨63, 0, .ro, 0, []⟩]⟩,
  ⟨0x4000A8, [(24, 0x1000)], true, 0x600C, [⟨63, 0, .ro, 0, []⟩]⟩,
  ⟨0x4000B0, [(24, 0x1000)], true, 0x600C, [⟨63, 0, .ro, 0, []⟩]⟩,
  ⟨0x4000B8, [(24, 0x1000)], true, 0x600C, [⟨63, 0, .ro, 0, []⟩]⟩,
  ⟨0x4000C0, [(24, 0x1000)], true, 0x600C, [⟨63, 0, .ro, 0, []⟩]⟩,
  ⟨0x4000C8, [(24, 0x1000)], true, 0x600C, [⟨63, 0, .ro, 0, []⟩]⟩,
  ⟨0x400100, [(24, 0x1000), (12, 0x4)], false, 0x600C, [⟨16, 0, .ro, 0x10000, []⟩]⟩,
  ⟨0x400140, [(24, 0x1000), (4, 0x4)], false, 0x600C, [⟨31, 31, .rw, 0, []⟩, ⟨23, 18, .rw, 0, []⟩, ⟨17, 12, .rw, 0, []⟩, ⟨11, 6, .rw, 0, []⟩]⟩]

/-- The PRT registers. -/
def regsPrt : List RegRow := [  ⟨0x420000, [(8, 0x100)], false, 0x600C, [⟨11, 8, .rw, 0, [(13, 15)]⟩, ⟨1, 1, .rw, 0, []⟩, ⟨0, 0, .rw, 0, []⟩]⟩,
  ⟨0x420004, [(8, 0x100)], false, 0x600C, [⟨31, 30, .ro, 0, []⟩, ⟨27, 24, .ro, 0, []⟩, ⟨23, 0, .ro, 0, []⟩]⟩,
  ⟨0x420800, [], false, 0x600C, [⟨3, 3, .rw, 0, []⟩, ⟨2, 2, .wo, 0, []⟩, ⟨1, 1, .wo, 0, []⟩, ⟨0, 0, .wo, 0, []⟩]⟩,
  ⟨0x420804, [], false, 0x600C, [⟨31, 30, .ro, 0, []⟩, ⟨29, 29, .ro, 0, []⟩, ⟨23, 19, .ro, 0, []⟩, ⟨18, 15, .ro, 0, []⟩]⟩,
  ⟨0x420808, [], false, 0x600C, [⟨15, 0, .rw, 3, [(0, 0), (4, 65535)]⟩]⟩]

/-- The RTE registers. -/
def regsRte : List RegRow := [  ⟨0x430000, [], false, 0x7007, [⟨6, 6, .wo, 0, []⟩, ⟨5, 5, .wo, 0, []⟩, ⟨4, 4, .wo, 0, []⟩, ⟨3, 3, .wo, 0, []⟩, ⟨2, 2, .rw, 0, []⟩, ⟨0, 0, .rw, 0, []⟩]⟩,
  ⟨0x430004, [], false, 0x7007, [⟨31, 30, .ro, 2, []⟩, ⟨29, 28, .ro, 0, []⟩]⟩,
  ⟨0x430008, [], false, 0x7007, [⟨23, 16, .rw, 0x10, [(0, 0), (65, 255)]⟩, ⟨7, 0, .rw, 5, []⟩]⟩,
  ⟨0x43000C, [], false, 0x7007, [⟨31, 31, .rw, 1, []⟩, ⟨27, 16, .rw, 0x10, [(0, 15)]⟩, ⟨11, 0, .rw, 0x200, [(0, 15)]⟩]⟩,
  ⟨0x430010, [], false, 0x7007, [⟨19, 16, .rw, 4, []⟩, ⟨15, 0, .rw, 0xC8, [(0, 9)]⟩]⟩,
  ⟨0x430014, [], false, 0x7007, [⟨31, 24, .rw, 2, []⟩, ⟨23, 16, .rw, 3, []⟩, ⟨15, 8, .rw, 3, []⟩, ⟨7, 0, .rw, 8, []⟩]⟩,
  ⟨0x430018, [], true, 0x7007, [⟨63, 48, .rw, 0, []⟩, ⟨31, 16, .rw, 1, [(0, 0)]⟩, ⟨15, 0, .rw, 0x64, []⟩]⟩,
  ⟨0x430020, [], true, 0x7007, [⟨63, 63, .ro, 0, []⟩, ⟨47, 32, .ro, 0, []⟩]⟩,
  ⟨0x430028, [], true, 0x7007, [⟨63, 0, .ro, 0, []⟩]⟩,
  ⟨0x430030, [], true, 0x7007, [⟨63, 0, .ro, 0, []⟩]⟩,
  ⟨0x430038, [], true, 0x7007, [⟨63, 0, .ro, 0, []⟩]⟩,
  ⟨0x430040, [(2, 0x8)], true, 0x7007, [⟨63, 0, .ro, 0, []⟩]⟩,
  ⟨0x430050, [(2, 0x8)], true, 0x7007, [⟨63, 0, .ro, 0, []⟩]⟩,
  ⟨0x430060, [(2, 0x8)], true, 0x7007, [⟨63, 0, .ro, 0, []⟩]⟩,
  ⟨0x430080, [], true, 0x7007, [⟨63, 0, .ro, 0, []⟩]⟩,
  ⟨0x430088, [], true, 0x7007, [⟨63, 0, .ro, 0, []⟩]⟩,
  ⟨0x430090, [], true, 0x7007, [⟨63, 0, .ro, 0, []⟩]⟩,
  ⟨0x430098, [], true, 0x7007, [⟨63, 0, .ro, 0, []⟩]⟩,
  ⟨0x4300A0, [], true, 0x7007, [⟨63, 0, .ro, 0, []⟩]⟩,
  ⟨0x4300A8, [], true, 0x7007, [⟨63, 0, .ro, 0, []⟩]⟩,
  ⟨0x4300B0, [], true, 0x7007, [⟨63, 0, .ro, 0, []⟩]⟩,
  ⟨0x430100, [(4, 0x4)], false, 0x7007, [⟨5, 0, .rw, 0, []⟩]⟩,
  ⟨0x430200, [(16, 0x10)], true, 0x7007, [⟨63, 48, .rw, 0, []⟩, ⟨47, 12, .rw, 0, []⟩, ⟨2, 2, .rw, 0, []⟩, ⟨1, 1, .rw, 0, []⟩, ⟨0, 0, .rw, 0, []⟩]⟩,
  ⟨0x430208, [(16, 0x10)], true, 0x7007, [⟨63, 48, .rw, 0, []⟩, ⟨47, 12, .rw, 0, []⟩]⟩,
  ⟨0x430400, [], false, 0x7007, [⟨31, 31, .rw, 0, []⟩, ⟨30, 30, .rw, 0, []⟩, ⟨29, 24, .rw, 0x10, [(0, 0)]⟩, ⟨23, 16, .rw, 0xA, []⟩, ⟨15, 0, .rw, 0, []⟩]⟩,
  ⟨0x430404, [], false, 0x7007, [⟨23, 0, .rw, 0, []⟩]⟩,
  ⟨0x430408, [], false, 0x7007, [⟨27, 16, .rw, 0, []⟩, ⟨11, 0, .rw, 0, []⟩]⟩,
  ⟨0x43040C, [], false, 0x7007, [⟨31, 8, .ro, 0, []⟩, ⟨7, 0, .rw, 0xA, []⟩]⟩,
  ⟨0x431000, [(24, 0x20)], true, 0x7007, [⟨47, 0, .rw, 0, []⟩]⟩,
  ⟨0x431008, [(24, 0x20)], true, 0x7007, [⟨63, 0, .rw, 0, []⟩]⟩,
  ⟨0x431010, [(24, 0x20)], true, 0x7007, [⟨63, 0, .rw, 0, []⟩]⟩,
  ⟨0x440000, [(256, 0x20)], true, 0x7007, [⟨63, 0, .rw, 0, []⟩]⟩,
  ⟨0x440008, [(256, 0x20)], true, 0x7007, [⟨63, 0, .rw, 0, []⟩]⟩,
  ⟨0x440010, [(256, 0x20)], true, 0x7007, [⟨63, 63, .rw, 0, []⟩, ⟨47, 0, .rw, 0, []⟩]⟩,
  ⟨0x480000, [(65536, 0x4)], false, 0x7007, [⟨31, 31, .rw, 0, []⟩, ⟨26, 24, .rw, 0, []⟩, ⟨23, 16, .rw, 0, []⟩, ⟨15, 15, .rw, 0, []⟩, ⟨7, 0, .rw, 0, []⟩]⟩,
  ⟨0x4C0000, [(65536, 0x4)], false, 0x7007, [⟨31, 31, .rw, 0, []⟩, ⟨26, 24, .rw, 0, []⟩, ⟨23, 16, .rw, 0, []⟩, ⟨15, 15, .rw, 0, []⟩, ⟨7, 0, .rw, 0, []⟩]⟩]

/-- The WHL registers. -/
def regsWhl : List RegRow := [  ⟨0x500000, [(4, 0x10000)], false, 0x8009, [⟨1, 1, .wo, 0, []⟩, ⟨0, 0, .wo, 0, []⟩]⟩,
  ⟨0x500004, [(4, 0x10000)], false, 0x8009, [⟨31, 30, .ro, 0, []⟩, ⟨23, 16, .ro, 0, []⟩]⟩,
  ⟨0x500008, [(4, 0x10000)], false, 0x8009, [⟨31, 28, .rw, 4, [(0, 0)]⟩, ⟨27, 16, .rw, 0x3E8, [(0, 0)]⟩, ⟨15, 8, .rw, 0x14, [(0, 0)]⟩, ⟨3, 0, .rw, 4, [(0, 0)]⟩]⟩,
  ⟨0x50000C, [(4, 0x10000)], false, 0x8009, [⟨15, 0, .rw, 0, []⟩]⟩,
  ⟨0x500010, [(4, 0x10000)], true, 0x8009, [⟨63, 48, .ro, 0, []⟩, ⟨47, 40, .ro, 0, []⟩, ⟨39, 34, .ro, 0, []⟩, ⟨28, 16, .ro, 0, []⟩, ⟨0, 0, .w1c, 0, []⟩]⟩,
  ⟨0x500018, [(4, 0x10000)], true, 0x8009, [⟨63, 0, .ro, 0, []⟩]⟩,
  ⟨0x500020, [(4, 0x10000)], true, 0x8009, [⟨63, 0, .ro, 0, []⟩]⟩,
  ⟨0x500028, [(4, 0x10000)], true, 0x8009, [⟨63, 0, .ro, 0, []⟩]⟩,
  ⟨0x500030, [(4, 0x10000)], true, 0x8009, [⟨63, 0, .ro, 0, []⟩]⟩]

/-- The FTM registers. -/
def regsFtm : List RegRow := [  ⟨0x300000, [], false, 0x9006, [⟨3, 3, .wo, 0, []⟩, ⟨2, 2, .wo, 0, []⟩, ⟨1, 1, .wo, 0, []⟩]⟩,
  ⟨0x300004, [], false, 0x9006, [⟨31, 31, .ro, 0, []⟩, ⟨30, 30, .ro, 0, []⟩, ⟨29, 29, .ro, 0, []⟩, ⟨28, 28, .ro, 0, []⟩, ⟨27, 27, .ro, 0, []⟩, ⟨23, 16, .ro, 0xFF, []⟩, ⟨4, 0, .ro, 0x1F, []⟩]⟩,
  ⟨0x300008, [], false, 0x9006, [⟨31, 30, .rw, 3, []⟩, ⟨29, 25, .rw, 0, [(24, 31)]⟩, ⟨24, 20, .rw, 0, [(24, 31)]⟩, ⟨19, 19, .rw, 0, []⟩, ⟨15, 8, .rw, 0xA, [(0, 0)]⟩, ⟨7, 4, .rw, 4, [(9, 15)]⟩]⟩,
  ⟨0x30000C, [], false, 0x9006, [⟨31, 16, .rw, 0x400, [(0, 15)]⟩, ⟨7, 0, .rw, 8, [(0, 0)]⟩]⟩,
  ⟨0x300010, [], true, 0x9006, [⟨63, 0, .ro, 0, []⟩]⟩,
  ⟨0x300018, [], true, 0x9006, [⟨63, 0, .rw, 0, []⟩]⟩,
  ⟨0x300020, [], true, 0x9006, [⟨63, 0, .ro, 0, []⟩]⟩,
  ⟨0x300028, [], true, 0x9006, [⟨63, 4, .ro, 0, []⟩, ⟨3, 0, .ro, 0, []⟩]⟩,
  ⟨0x300030, [], false, 0x9006, [⟨31, 0, .ro, 0, []⟩]⟩,
  ⟨0x300034, [], false, 0x9006, [⟨31, 0, .ro, 0, []⟩]⟩,
  ⟨0x300038, [], false, 0x9006, [⟨31, 31, .rw, 0, []⟩]⟩,
  ⟨0x30003C, [], false, 0x9006, [⟨31, 0, .rw, 0, [(4000000000, 4294967295)]⟩]⟩,
  ⟨0x300040, [], true, 0x9006, [⟨63, 0, .ro, 0, []⟩]⟩,
  ⟨0x300048, [], true, 0x9006, [⟨63, 0, .ro, 0, []⟩]⟩,
  ⟨0x300100, [(24, 0x8)], true, 0x9006, [⟨63, 32, .ro, 0, []⟩, ⟨31, 0, .ro, 0, []⟩]⟩,
  ⟨0x300200, [(24, 0x4)], false, 0x9006, [⟨15, 0, .rw, 0, []⟩]⟩]

/-- The HST registers. -/
def regsHst : List RegRow := [  ⟨0x3C80000, [(2, 0x10000)], false, 0xA00E, [⟨0, 0, .wo, 0, []⟩]⟩,
  ⟨0x3C80004, [(2, 0x10000)], false, 0xA00E, [⟨31, 31, .ro, 0, []⟩, ⟨30, 30, .ro, 0, []⟩, ⟨29, 29, .ro, 0, []⟩, ⟨28, 28, .ro, 0, []⟩, ⟨27, 26, .ro, 0, []⟩]⟩,
  ⟨0x3C80008, [(2, 0x10000)], false, 0xA00E, [⟨31, 16, .rw, 0, []⟩, ⟨8, 0, .rw, 0x64, [(0, 0), (401, 511)]⟩]⟩,
  ⟨0x3C8000C, [(2, 0x10000)], false, 0xA00E, [⟨15, 0, .rw, 0, []⟩]⟩,
  ⟨0x3C80010, [(2, 0x10000)], false, 0xA00E, [⟨31, 30, .ro, 0, []⟩, ⟨15, 0, .ro, 0, []⟩]⟩,
  ⟨0x3C80014, [(2, 0x10000)], false, 0xA00E, [⟨31, 30, .ro, 0, []⟩, ⟨15, 0, .ro, 0, []⟩]⟩,
  ⟨0x3C80018, [(2, 0x10000)], false, 0xA00E, [⟨15, 0, .rw, 0, []⟩]⟩,
  ⟨0x3C8001C, [(2, 0x10000)], false, 0xA00E, [⟨31, 30, .ro, 0, []⟩, ⟨15, 0, .ro, 0, []⟩]⟩,
  ⟨0x3C80020, [(2, 0x10000)], true, 0xA00E, [⟨63, 63, .ro, 0, []⟩, ⟨62, 48, .ro, 0, []⟩, ⟨43, 42, .ro, 0, []⟩, ⟨41, 0, .ro, 0, []⟩]⟩,
  ⟨0x3C80028, [(2, 0x10000)], false, 0xA00E, [⟨31, 30, .ro, 0, []⟩]⟩,
  ⟨0x3C8002C, [(2, 0x10000)], false, 0xA00E, [⟨15, 0, .rcl, 0, []⟩]⟩,
  ⟨0x3C80040, [(2, 0x10000), (8, 0x8)], true, 0xA00E, [⟨47, 33, .rw, 0, []⟩, ⟨0, 0, .rw, 0, []⟩]⟩,
  ⟨0x3C88000, [(2, 0x10000), (1984, 0x8)], true, 0xA00E, [⟨63, 63, .rw, 0, []⟩, ⟨61, 57, .rw, 0, [(25, 31)]⟩, ⟨56, 48, .rw, 0, []⟩, ⟨15, 0, .rw, 0, []⟩]⟩,
  ⟨0x3CA0000, [], false, 0xA00E, [⟨31, 30, .ro, 0, []⟩, ⟨15, 0, .ro, 0, []⟩]⟩]

/-- The DMA registers. -/
def regsDma : List RegRow := [  ⟨0x3D00000, [(2, 0x10000), (16, 0x40)], true, 0xA00E, [⟨63, 12, .rw, 0, []⟩]⟩,
  ⟨0x3D00008, [(2, 0x10000), (16, 0x40)], false, 0xA00E, [⟨31, 31, .rw, 0, []⟩, ⟨4, 0, .rw, 4, [(0, 3), (17, 31)]⟩]⟩,
  ⟨0x3D0000C, [(2, 0x10000), (16, 0x40)], false, 0xA00E, [⟨15, 0, .rw, 0, []⟩]⟩,
  ⟨0x3D00010, [(2, 0x10000), (16, 0x40)], false, 0xA00E, [⟨15, 0, .ro, 0, []⟩]⟩,
  ⟨0x3D00014, [(2, 0x10000), (16, 0x40)], false, 0xA00E, [⟨31, 30, .ro, 0, []⟩, ⟨23, 16, .ro, 0, []⟩]⟩,
  ⟨0x3D00018, [(2, 0x10000), (16, 0x40)], true, 0xA00E, [⟨63, 0, .ro, 0, []⟩]⟩]

/-- The MBX registers. -/
def regsMbx : List RegRow := [  ⟨0x180000, [(48, 0x400), (64, 0x8)], true, 0xA00E, [⟨63, 0, .ro, 0, []⟩]⟩,
  ⟨0x180200, [(48, 0x400)], false, 0xA00E, [⟨15, 0, .ro, 0, []⟩]⟩,
  ⟨0x180204, [(48, 0x400)], false, 0xA00E, [⟨15, 0, .ro, 0, []⟩]⟩,
  ⟨0x8200000, [(2, 0x1000000), (8, 0x20)], true, 0xA00E, [⟨63, 0, .rw, 0, []⟩]⟩,
  ⟨0x8200008, [(2, 0x1000000), (8, 0x20)], false, 0xA00E, [⟨31, 0, .rw, 0, []⟩]⟩,
  ⟨0x820000C, [(2, 0x1000000), (8, 0x20)], false, 0xA00E, [⟨31, 16, .rw, 0, []⟩, ⟨15, 0, .rw, 0, []⟩]⟩,
  ⟨0x8200010, [(2, 0x1000000), (8, 0x20)], false, 0xA00E, [⟨23, 16, .rw, 0, []⟩, ⟨15, 0, .rw, 0, []⟩]⟩,
  ⟨0x8200018, [(2, 0x1000000), (8, 0x20)], false, 0xA00E, [⟨31, 28, .ro, 0, []⟩]⟩,
  ⟨0x820001C, [(2, 0x1000000), (8, 0x20)], false, 0xA00E, [⟨31, 28, .ro, 0, []⟩, ⟨27, 27, .ro, 0, []⟩]⟩,
  ⟨0x8300000, [(2, 0x1000000), (2048, 0x10)], true, 0xA00E, [⟨63, 2, .rw, 0, []⟩]⟩,
  ⟨0x8300008, [(2, 0x1000000), (2048, 0x10)], false, 0xA00E, [⟨31, 0, .rw, 0, []⟩]⟩,
  ⟨0x830000C, [(2, 0x1000000), (2048, 0x10)], false, 0xA00E, [⟨0, 0, .rw, 1, []⟩]⟩,
  ⟨0x8308000, [(2, 0x1000000), (32, 0x8)], true, 0xA00E, [⟨63, 0, .ro, 0, []⟩]⟩]

/-- The MGT registers. -/
def regsMgt : List RegRow := [  ⟨0x100000, [], false, 0xB009, [⟨31, 31, .ro, 0, []⟩, ⟨30, 30, .ro, 0, []⟩, ⟨6, 0, .ro, 0, []⟩]⟩,
  ⟨0x100004, [], false, 0xB009, [⟨23, 16, .rw, 0x55, [(0, 49), (101, 255)]⟩, ⟨15, 0, .rw, 0x64, [(0, 0)]⟩]⟩,
  ⟨0x100008, [], true, 0xB009, [⟨63, 0, .ro, 0, []⟩]⟩,
  ⟨0x100010, [], false, 0xB009, [⟨31, 0, .ro, 0, []⟩]⟩,
  ⟨0x100014, [], false, 0xB009, [⟨31, 16, .ro, 0, []⟩, ⟨15, 0, .ro, 0, []⟩]⟩,
  ⟨0x100018, [], false, 0xB009, [⟨23, 16, .ro, 0, []⟩, ⟨15, 8, .ro, 0, []⟩, ⟨7, 0, .ro, 0, []⟩]⟩,
  ⟨0x10001C, [], false, 0xB009, [⟨31, 0, .rcl, 0, []⟩]⟩]

/-- The SEC registers. -/
def regsSec : List RegRow := [  ⟨0x3C00000, [], false, 0xC008, [⟨15, 8, .ro, 0, []⟩, ⟨7, 0, .ro, 0, []⟩]⟩,
  ⟨0x3C00004, [], false, 0xC008, [⟨7, 0, .wo, 0, []⟩]⟩,
  ⟨0x3C00008, [], false, 0xC008, [⟨0, 0, .rw, 1, []⟩]⟩,
  ⟨0x3C0000C, [], false, 0xC008, [⟨31, 0, .ro, 0, []⟩]⟩,
  ⟨0x3C00010, [], true, 0xC008, [⟨47, 12, .rw, 0, []⟩, ⟨0, 0, .rw, 0, []⟩]⟩,
  ⟨0x3C00018, [], false, 0xC008, [⟨31, 29, .ro, 0, []⟩, ⟨28, 24, .ro, 0, []⟩, ⟨15, 0, .ro, 0, []⟩]⟩,
  ⟨0x3C0001C, [], false, 0xC008, [⟨31, 0, .ro, 0, []⟩]⟩,
  ⟨0x3C00040, [(8, 0x4)], false, 0xC008, [⟨31, 0, .ro, 0, []⟩]⟩]

/-- The EVR registers. -/
def regsEvr : List RegRow := [  ⟨0x200000, [], false, 0xB00A, [⟨2, 2, .rw, 0, []⟩, ⟨0, 0, .wo, 0, []⟩]⟩,
  ⟨0x200004, [], false, 0xB00A, [⟨31, 31, .w1c, 0, []⟩, ⟨30, 30, .ro, 0, []⟩, ⟨29, 29, .ro, 0, []⟩, ⟨28, 28, .ro, 0, []⟩, ⟨7, 0, .ro, 0, []⟩]⟩,
  ⟨0x200008, [], false, 0xB00A, [⟨31, 0, .ro, 0, []⟩]⟩,
  ⟨0x20000C, [], false, 0xB00A, [⟨31, 24, .rw, 0x40, [(0, 0)]⟩, ⟨23, 16, .rw, 0x64, []⟩, ⟨15, 8, .rw, 0x10, [(0, 0)]⟩, ⟨7, 0, .rw, 0xA, []⟩]⟩,
  ⟨0x200010, [], false, 0xB00A, [⟨7, 0, .rw, 3, []⟩]⟩,
  ⟨0x200014, [], false, 0xB00A, [⟨6, 0, .ro, 0, []⟩]⟩,
  ⟨0x200018, [], true, 0xB00A, [⟨63, 32, .ro, 0, []⟩, ⟨31, 0, .ro, 0, []⟩]⟩,
  ⟨0x210000, [(4096, 0x20), (4, 0x8)], true, 0xB00A, [⟨63, 0, .ro, 0, []⟩]⟩,
  ⟨0x230000, [(64, 0x20), (4, 0x8)], true, 0xB00A, [⟨63, 0, .ro, 0, []⟩]⟩]

/-- The PWR registers. -/
def regsPwr : List RegRow := [  ⟨0x3800000, [], false, 0xD009, [⟨0, 0, .wo, 0, []⟩]⟩,
  ⟨0x3800004, [], false, 0xD009, [⟨31, 31, .ro, 0, []⟩, ⟨30, 30, .ro, 0, []⟩, ⟨29, 29, .w1c, 0, []⟩, ⟨10, 0, .ro, 0, []⟩]⟩,
  ⟨0x3800008, [], false, 0xD009, [⟨23, 20, .rw, 8, [(0, 0), (13, 15)]⟩, ⟨7, 0, .rw, 0x64, [(0, 69), (101, 255)]⟩]⟩,
  ⟨0x3800010, [(4, 0x4)], false, 0xD009, [⟨9, 0, .rw, 0x2BC, [(0, 99), (701, 1023)]⟩]⟩,
  ⟨0x3800020, [(5, 0x4)], false, 0xD009, [⟨15, 0, .ro, 0, []⟩]⟩,
  ⟨0x3800040, [(5, 0x4)], false, 0xD009, [⟨15, 0, .ro, 0, []⟩]⟩,
  ⟨0x3800060, [(4, 0x4)], false, 0xD009, [⟨31, 28, .ro, 0, []⟩, ⟨19, 16, .ro, 0, []⟩, ⟨3, 0, .rw, 0, [(13, 15)]⟩]⟩,
  ⟨0x3800080, [(4, 0x8)], true, 0xD009, [⟨63, 0, .ro, 0, []⟩]⟩,
  ⟨0x38000A0, [], false, 0xD009, [⟨31, 0, .ro, 0, []⟩]⟩,
  ⟨0x3800100, [(26, 0x4)], false, 0xD009, [⟨15, 0, .ro, 0, []⟩]⟩]

/-- Every register the device implements (R476). -/
def regTable : List RegRow :=
  regsTil ++ regsGlb ++ regsMxe ++ regsEle ++ regsQue ++ regsFlm ++ regsHbc ++ regsLpc ++ regsLnk ++ regsPrt ++ regsRte ++ regsWhl ++ regsFtm ++ regsHst ++ regsDma ++ regsMbx ++ regsMgt ++ regsSec ++ regsEvr ++ regsPwr

end Sys2Proof.Machine
end

