-- ==== Sys2Proof/Machine/State.lean ====
section
/-! DEFINITION. The state of the RU4100 as plain data, and the state right after a cold reset (R432). -/

namespace Sys2Proof.Machine

/-! ### Queues (05_command_queues.md) -/

/-- How far a command that has issued and not retired has come (R122, R148). -/
inductive CmdStatus where
  | busy        -- waits for a remote acknowledgment, a host read or a collective
  | done        -- its work is complete
  | rerun       -- aborted, and to run again after a thaw
  deriving DecidableEq, Repr

/-- A command that has issued and not retired, oldest first in its queue. -/
structure Issued where
  idx : Nat                                -- command index
  pass : Nat                               -- pass it issued in
  word : CmdBits
  status : CmdStatus := .done
  skipped : Bool := false                  -- the predicate skipped it (R120)
  signalled : Bool := false                -- LAUNCH signals at the opening (R137)
  freeze : Option Nat := none              -- event code of a freeze raised at retirement (R80, R111)
  lines : List (Nat × Bool × List Byte) := []          -- lines written in order: line, poison before, bytes before
  groups : List (Nat × Bool × List (BitVec 32)) := []  -- bank groups written in order: group, valid before, entries before
  marks : List (Nat × Nat) := []           -- groups and lines begun after each output row (R85)
  uid : Nat := 0                           -- its number among all commands issued
  waits : List Nat := []                   -- transport messages and host reads it still waits for
  parts : List (Nat × List (Byte × Bool)) := []   -- data that has come back: piece, bytes with their poison
  job : List Nat := []                     -- a Flume command's operand addresses and descriptor words, as issued
  record : Option (Nat × Nat) := none      -- a version word to write at retirement: address and word (R200)
  gathered : Bool := false                 -- its source has arrived; it waits for its writes
  step : Nat := 0                          -- STEP of its home set as it issued (R49, R140)
  seed : Nat := 0                          -- the committed job seed as it issued (R50)
  asking : Bool := false                   -- a Flume command that has requests still to issue (R194)
  asked : List Nat := []                   -- the pieces it has asked for, in order
  copies : List (Nat × Nat) := []          -- numbers of the messages that mirror its lines: first, and past the last
  far : List (Nat × Nat × List Byte) := []    -- lines written on another device in order: device, address, bytes (R204)
  deriving DecidableEq, Repr

/-- A queue's hidden state (R121, R122, R137, R142 to R148, R171). -/
structure QueSt where
  waited : Bool := false                   -- the head command's WAIT has been met
  chosen : Bool := false                   -- its predicate has been read, and it executes (R121)
  issued : List Issued := []
  lib : Option Nat := none                 -- the library routine it runs (R144)
  ret : Nat := 0                           -- where that routine returns to
  sluice : Option Nat := none              -- the stamp its LAUNCH holds for (R137)
  lead : List Nat := []                    -- the tiles its sluice pre-woke and holds (R138, R359)
  passEnd : Bool := false                  -- the last pass has ended; idle once all retire (R119)
  parkedAtPP : Bool := false               -- parked at a PARKPOINT (R171)
  dead : Bool := false                     -- frozen by red containment (R425)
  pendingFreeze : Option (Nat × Nat) := none   -- freezes at its next command boundary, RESUME 1: code, command (R129)
  parkDue : Bool := false                  -- a PARKPOINT found a park request (R143)
  bad : List Nat := []                     -- instruction memory lines with an uncorrectable error: index over 2 (R430)
  deriving DecidableEq, Repr

/-! ### Matrix engines (03_matrix_engines.md) -/

/-- A write on its way to a bank row: when the pending bit rises and falls, and the entries it brings (R72). -/
structure Landing where
  rise : Nat
  land : Nat
  bits : List (BitVec 32)
  deriving DecidableEq, Repr

/-- The writes on their way to a bank row, in the order recorded, and what it held before them. -/
structure RowWrites where
  base : List (BitVec 32) := []
  writes : List Landing := []
  deriving DecidableEq, Repr

/-- A matrix engine's hidden state (R68, R82 to R84). -/
structure MxSt where
  mode : Nat := 0                          -- array mode of R42 the stationary tile was loaded in
  fmt : Nat := 0                           -- its format code
  tile : List Nat := []                    -- its elements, contraction index major
  tileScale : List Nat := []               -- its scale bytes, block major
  tilePoison : Bool := false
  free : Nat := 0                          -- ACLK cycle the array is next free
  streamEnd : Nat := 0                     -- ACLK cycle of the last fed row
  prewake : Bool := false                  -- the level rises and is held until its sluices open (R138, R359)
  riseAt : Option Nat := none              -- the fabric time from which a pre-wake raises it; none while the tile wakes
  warm : Bool := false                     -- a pre-waking sluice has opened, and no command has issued since
  hold : Nat := 16                         -- MXE_DGCTRL.HOLD and RAMP as in force in this gap (R87)
  ramp : Nat := 10
  last : Option (Nat × Nat × Nat) := none  -- the last command issued: its pass, its index and its cycle (R69)
  consumed : Nat := 0                      -- poisoned operand lines consumed (R74)
  lfsr : BitVec 32 := 0xFFFFFFFF           -- ballast operands (R82)
  deriving DecidableEq, Repr

/-- Where tile gating stands (R26). -/
inductive GatePhase where
  | running | clockGated | entering | isolated | powerGated | waking
  deriving DecidableEq, Repr

/-- A tile's gating state. -/
structure GateSt where
  phase : GatePhase := .powerGated
  wakeAfter : Bool := false                -- a wake event came after isolation (R26)
  pgEn : Option Bool := none               -- TIL_GATE.PG_EN as the power-gating timer started with it (R27)
  deriving DecidableEq, Repr

/-! ### What leaves the device -/

/-- The output pins that no register shows (R468): FAULT_N is EVR_STAT.FAULT and THERMTRIP_N is PWR_STAT.TRIP. -/
inductive Pin where
  | timePpsOut
  deriving DecidableEq, Repr

/-- Why an SPDM request is answered with ERROR (R398, R409, R411, R412). -/
inductive SpdmError where
  | versionMismatch | unsupportedRequest | invalidRequest | unspecified | responseNotReady
  deriving DecidableEq, Repr

/-- A PLDM answer's completion code (R398, R406, R407, R415). -/
inductive PldmCode where
  | success | error | notReady | invalidType | alreadyInUpdateMode | invalidSensor
  deriving DecidableEq, Repr

/-- A measurement block: index, DMTF value type, value (R412). -/
structure Measurement where
  index : Nat
  kind : Nat
  value : List Byte
  deriving DecidableEq, Repr

/-- What the device answers over MCTP: the content that R411 to R415 state, in the form of the named DMTF
specification. -/
inductive MctpMsg where
  | endpointId (eid : Nat)
  | version (versions : List Nat)                                       -- minor versions of SPDM 1
  | capabilities (cert chal : Bool) (meas ctExponent : Nat)
  | algorithms                                                          -- RSAPSS_3072, SHA_256, SHA_256, DMTF
  | digests (slots : Nat) (digest : List Byte)
  | certificate (slot : Nat) (portion : List Byte) (rest : Nat)
  | challengeAuth (slot : Nat) (chain : List Byte) (signature : List Byte)
  | measurementCount (n : Nat)
  | measurements (blocks : List Measurement) (signature : List Byte)    -- no signature where none was asked for
  | spdmError (e : SpdmError)
  | pldm (code : PldmCode) (data : List Byte)
  | activation (resetRequired : Bool)
  deriving DecidableEq, Repr

/-- One thing that has left the device, newest first in `State.out`. -/
inductive Out where
  | cell (link : Nat) (c : CellBits)
  | msix (port vec : Nat)
  | pme (port vec : Nat)
  | hostWrite (port addr : Nat) (data : List Byte) (ep ro : Bool)
  | hostRead (port addr len tag : Nat)
  | completion (port : Nat) (value : Word) (abort : Bool)
  | readData (port : Nat) (data : List Byte) (ep : Bool)
  | frame (link : Nat) (bytes : List Byte)
  | mctp (binding : Binding) (msg : MctpMsg)
  | platformEvent (receiver code : Nat) (detail : Word)
  | pin (name : Pin) (level : Bool)
  | avs (rail : Nat) (mv : Nat)
  | test (link pattern : Nat) (loop : Bool)
  deriving DecidableEq, Repr

/-! ### Links (10_fabric_links.md) -/

/-- What a lane transmits with (R247, R248): as copper link training sets it, or a chip-to-module link's default or
coefficients, which are signed and in 1/64 of full swing. -/
inductive TxSetting where
  | copper
  | hostDefault
  | host (cm2 cm1 c1 : Int)
  deriving DecidableEq, Repr

/-- A cell queued for output: with the link and VC whose input buffer it occupies, if it came from one, and the gateway its
entry names (R307). -/
structure QCell where
  cell : CellBits
  inp : Option (Nat × Nat) := none
  gw : Nat := 0
  deriving DecidableEq, Repr

/-- Cells of one class to one gateway, waiting for their frame (R307). -/
structure FrameAsm where
  cls : Nat
  gw : Nat
  cells : List QCell
  deriving DecidableEq, Repr

/-- A link's hidden transmitter and receiver state. -/
structure LinkSt where
  txSeq : Nat := 4095                      -- last sequence number sent (R261)
  ackd : Nat := 4095                       -- last acknowledgment applied (R263)
  expect : Nat := 0                        -- E
  copies : List CellBits := []             -- the replay buffer, oldest first
  sameReplays : Nat := 0                   -- replays of the same oldest cell (R264)
  rxOn : Nat := 0xFFF                      -- ONOFF bits sent
  txOn : Nat := 0xFFF                      -- ONOFF bits received
  lastNak : Option (Nat × Nat) := none     -- E of the last NAK, and its fabric time
  lfsr : BitVec 31 := 0x7FFFFFFF           -- IDLE payload (R250)
  hseq : Nat := 0                          -- hello count (R270)
  heard : Bool := false                    -- a hello has been received on this link
  shaken : Bool := false                   -- the handshake is complete (R271)
  switch : Bool := false                   -- the Ethernet neighbour is a switch (R310)
  symWin : Nat × Nat := (0, 0)             -- corrected symbols' 1 ms window: its number and count (R251)
  ucwWin : Nat × Nat := (0, 0)             -- uncorrectable codewords' 1 s window
  failTimes : List Nat := []               -- fabric times of failures in the last 60 s (R274)
  queue : List QCell := []                 -- cells queued for output, oldest first
  turn : Nat := 1                          -- deficit round robin: the class whose turn it is, and what is left of it
  left : Nat := 0
  lastVc : List Nat := [1, 3, 6, 9, 11]    -- the VC each class sent on last (R286)
  ctlGap : Nat := 15                       -- slots since the last CTL cell, to 15
  rxCol : List (Nat × List CellBits) := [] -- chunks being received, by wheel
  frames : List FrameAsm := []             -- frame assembly of the Ethernet personality
  pfcStopped : Nat := 0                    -- priorities a received PFC frame stops (R309)
  pfcSent : Nat := 0                       -- classes this end holds with PFC
  tx : List TxSetting := []                -- what each lane transmits with since it last entered TRAINING (R248)
  deriving DecidableEq, Repr

/-! ### Routing and transport (11_fabric_routing.md) -/

/-- Who acts on the outcome of a transport message (R295). -/
inductive Origin where
  | none
  | signal (q k cmd : Nat)                 -- link flag k, signalled by command cmd of queue q
  | post (q : Nat)
  | hostPost (p k : Nat)
  | remote (q uid piece : Nat)             -- a piece of an issued Flume command
  | mirror (r : Nat)                       -- a mirrored write of region r
  | reply                                  -- a response to an inbound request
  deriving DecidableEq, Repr

/-- A message the transport sends until it is answered (R293 to R300). -/
structure Send where
  uid : Nat
  dst : Nat
  cls : Nat
  msg : Option Nat := none                 -- its number, once it has one
  cells : List CellBits
  next : Nat := 0                          -- cells handed to the router
  shade : Nat := 0                         -- stamped when its first cell goes
  out : Nat := 0                           -- cells outstanding in the window
  tries : Nat := 0
  windowed : Bool := false
  origin : Origin := .none
  deriving DecidableEq, Repr

/-- A window context (R300, R301). -/
structure Win where
  dst : Nat
  cls : Nat
  w : Nat
  out : Nat := 0
  sinceCut : Nat := 0                      -- cells granted since the window was last reduced
  deriving DecidableEq, Repr

/-- A segment being received (R294, R295). -/
structure Reasm where
  src : Nat
  cls : Nat
  msg : Nat
  cells : List CellBits
  granted : Nat := 0                       -- cells already returned by a GRANT
  ce : Bool := false                       -- a cell not yet returned carried CE
  via : Nat := 0                           -- the link its first cell came on
  deriving DecidableEq, Repr

/-- The way a segment's first cell took at this router (R254, R291). -/
structure Path where
  inp : Option Nat                         -- the link it came on; none if originated here
  src : Nat
  dst : Nat
  cls : Nat
  msg : Nat
  left : Nat                               -- cells still to come
  way : Option (Nat × Nat)                 -- link and VC; none if the segment is dropped
  why : Nat := 0                           -- R288's reason its first cell was discarded for; 0 where its link was lost
  deriving DecidableEq, Repr

/-- A read of host memory that is outstanding. -/
structure HostRead where
  port : Nat
  tag : Nat
  q : Nat
  uid : Nat
  piece : Nat
  len : Nat
  deriving DecidableEq, Repr

/-- The router's and the transport's hidden state. -/
structure FabSt where
  paths : List Path := []
  adapt : List QCell := []                 -- cells waiting for an adaptive port (R291)
  reasm : List Reasm := []
  inbox : List CellBits := []              -- cells originated here for this device itself
  sends : List Send := []
  wins : List Win := []
  msgNext : Tab Nat := []                  -- next message number, keyed dst * 8 + class
  msgUsed : List (Nat × Nat × Nat) := []   -- key, number, time of last use (R296)
  dedup : List (Nat × Nat × Nat) := []     -- source, class, number of each segment delivered (R296)
  flushSent : Option (Nat × Nat × Nat) := none   -- shade, RTE_SHEJ and RTE_SHDROP at the last FLUSH report (R304)
  flushGuard : Bool := false               -- the coordinator waits for its guard time
  inLink : Nat := 0                        -- the link the cell now delivered came on
  hostReads : List HostRead := []
  litAt : Tab (Option Nat) := []           -- by port: when its last ACTIVE link was lost (R328)
  mirStop : Bool := false                  -- outbound mirroring has stopped, until LPC_MIRCTL.EN goes from 0 to 1 (R211)
  deriving DecidableEq, Repr

/-! ### Wheels (12_collectives.md) -/

/-- An element on its way through a wheel: its bits, whether it is poisoned, and the non-finite flag of its cell. -/
structure WElem where
  bits : Nat
  psn : Bool := false
  nf : Bool := false
  deriving DecidableEq, Repr

/-- A chunk between two wheels (R335). -/
structure Chunk where
  ring : Nat                               -- 0 the wheel's own axis, 1 AXIS2
  up : Bool                                -- travels ascending
  phase : Nat
  piece : Nat
  origin : Nat
  off : Nat
  elems : List WElem
  ver : Nat := 0                           -- version word (R332), and whether it is poisoned
  verPsn : Bool := false
  deriving DecidableEq, Repr

/-- A chunk sent and not acknowledged (R330). -/
structure SentChunk where
  chunk : Chunk
  link : Option Nat
  tries : Nat := 0
  deriving DecidableEq, Repr

/-- The parts of a collective, in order; `ring` is 0 for the own axis and 1 for AXIS2. -/
inductive WStage where
  | reduce (ring : Nat)
  | gather (ring : Nat)
  | direct
  | move
  | close (ring : Nat)
  deriving DecidableEq, Repr

/-- A collective running on a wheel (R317 to R335). -/
structure Coll where
  uid : Nat                                -- its command's number
  idx : Nat
  word : CmdBits
  seq : Nat
  digest : Nat
  step : Nat                               -- QUE_DSTEP at issue
  seed : Nat := 0                          -- the committed job seed at issue (R50)
  n : Nat × Nat                            -- ring sizes; 1 for an axis not used
  r : Nat × Nat                            -- own positions
  lens : List Nat                          -- LEN over the own axis
  newLens : List Nat                       -- LEN' of PERMUTE
  src : Nat
  dst : Nat
  res : Nat
  vrec : Nat
  dstLen : Nat                             -- elements written at DST
  aux : List Nat                           -- the words of the auxiliary descriptor
  own : List WElem := []                   -- the contribution
  acc : List (Nat × WElem) := []           -- sums over the first axis, by position in the vector
  result : List (Nat × WElem) := []        -- what is to be written, by element at DST
  parts : List (Nat × Nat × List WElem) := []   -- DIRECT: contributions received: origin, offset, elements
  vers : List (Nat × Nat × Bool) := []     -- version words gathered: rank, word, poison
  stages : List WStage := []               -- what is left, the current part first
  started : Bool := false                  -- the current part has begun
  need : Nat := 0                          -- elements still to be received in the current part
  queue : List Chunk := []                 -- waiting to be sent
  sent : List SentChunk := []
  got : List (List Nat) := []              -- keys of the chunks received
  held : List Chunk := []                  -- received for a later part
  credit : Tab Nat := []                   -- staging granted, keyed 2 * ring + up
  turn : Tab Nat := []                     -- chunks sent so far that way
  mask : Nat × Nat := (0, 0)               -- positions known closed, on each ring
  began : Nat := 0                         -- fabric time at which it started
  mismatch : Bool := false                 -- it fails with STATUS 1
  contribNf : Bool := false                -- NF is set in every cell of the contribution (R324)
  nf : Bool := false                       -- what the wheel knows so far (R324)
  psn : Bool := false
  deriving DecidableEq, Repr

/-- A grant or CLOSE that came before its collective issued here. -/
structure EarlyCol where
  axis : Nat
  up : Bool
  seq : Nat
  credits : Nat                            -- a grant's credits
  mask : Nat                               -- a CLOSE's positions
  nf : Bool
  psn : Bool
  deriving DecidableEq, Repr

/-- A wheel. -/
structure WheelSt where
  coll : Option Coll := none
  lastSeq : Option Nat := none             -- SEQ of the last collective
  early : List EarlyCol := []
  deriving DecidableEq, Repr

/-! ### The event recorder (16_faults_events.md) -/

/-- The recorder's hidden state (R427, R440 to R442). -/
structure EvrSt where
  lastFold : Option Nat := none            -- fabric time of the newest record's last folded occurrence
  spent : Tab Nat := []                    -- tokens taken, keyed 2 * code + amber; a full bucket has none taken
  dropped : Tab Bool := []                 -- codes with drops since their last written record
  copies : List Nat := []                  -- sequence numbers of red records whose flash copy is due
  flash : List (Nat × BitVec 256) := []    -- the flash ring: copy number and record, in copy order
  escalate : Option Nat := none            -- red code whose escalation is due
  retried : Bool := false                  -- the oldest copy due has failed once
  escTimes : List Nat := []                -- fabric times of escalated resets
  deriving DecidableEq, Repr

/-! ### Host ports (14_host_ports.md) -/

/-- A host port's PCI Express state that no register holds (R362, R365, R369, R375). -/
structure PortSt where
  perst : Bool := true                     -- PERST asserted
  msixEn : Bool := false
  msixMask : Bool := false
  memSpace : Bool := false                 -- Memory Space Enable
  relaxed : Bool := false                  -- Device Control: relaxed ordering enabled
  bar4 : Nat := 0                          -- BAR4 is 64 GiB times 2 to this
  violRead : Bool := false                 -- HST_VIOLREC read since the violation
  b4dead : Nat := 0                        -- BAR4 segments a resize has left unaligned (R366)
  posts : List (Nat × Bool) := []          -- staging slots whose post is pending, and whether its read still waits
  deriving DecidableEq, Repr

/-- The descriptor a DMA channel works on (R386 to R389). -/
structure DmaJob where
  tag : Option Nat := none                 -- the host read that is outstanding
  at_ : Nat := 0                           -- the host address it reads
  want : Nat := 0                          -- bytes it asks for
  desc : Option Nat := none                -- the descriptor, once fetched
  got : Nat := 0                           -- bytes moved so far
  deriving DecidableEq, Repr

/-! ### Fabric time (13_fabric_time.md) -/

/-- What a link's last TIME reply carried, and its fabric time (R348, R349). -/
structure TimeHeard where
  sync : Bool
  hold : Bool
  depth : Nat
  root : Nat
  at_ : Nat := 0
  deriving DecidableEq, Repr

/-- The fabric time unit's hidden state.  Times and offsets are in 1/16 tick. -/
structure FtmSt where
  role : Nat × Nat × Nat := (3, 0, 0)      -- MODE, PARENT and ALTPARENT in force (R361)
  xseq : Tab Nat := []                     -- next exchange number, by link
  asked : Tab (Option (Nat × Nat)) := []   -- request that waits for its reply, by link: XSEQ and T1
  heard : Tab (Option TimeHeard) := []     -- last reply in time, by link (R348)
  root : Option Nat := none                -- GLB_DEVID of this device's root, where it follows one
  offsets : List Int := []                 -- the active parent's last offsets, newest first
  inBound : Nat := 0                       -- consecutive averaged offsets within ALARM (R351)
  outBound : Nat := 0                      -- consecutive exchanges beyond ALARM (R351)
  ppsGood : Nat := 0                       -- consecutive edges within ALARM (R353)
  ppsIgnored : Nat := 0                    -- consecutive ignored edges
  loadDue : Bool := false                  -- LOAD waits for an accepted edge
  deriving DecidableEq, Repr

/-- A load or save in progress: what its command named (R158, R172). -/
structure LoadJob where
  src : Nat := 0
  len : Nat := 0
  resume : Bool := false
  rsm : Nat := 0
  deriving DecidableEq, Repr

/-! ### The management core and the security block (15_management_security.md) -/

/-- The image region of the boot flash (R402, R403, R475). -/
inductive Flash where
  | factory                                -- the image the part left the factory with
  | holds (bytes : List Byte)              -- these bytes, and erased flash beyond them
  | torn                                   -- programming failed: its contents are undefined
  deriving DecidableEq, Repr

/-- A firmware update in progress (R406, R407). -/
structure UpdateJob where
  block : Option Nat                       -- the mailbox request block, where one asked for it
  size : Nat                               -- image bytes to come
  staged : Bool                            -- the whole image is checked before flash is erased
  got : List Byte := []
  writing : Bool := false                  -- the whole image has come and is being written
  deriving DecidableEq, Repr

/-- A reply notice that met a full mailbox (R417). -/
structure Reply where
  addr : Nat
  status : Nat
  mbox : Nat
  rgen : Nat
  tries : Nat := 0
  deriving DecidableEq, Repr

/-- What the management core, the flash and the security block keep. -/
structure MgtSt where
  meas : Tab (Option Nat) := []            -- measurement table: loader digests by index (R412, R413)
  flash : Flash := .factory
  running : List Byte := []                -- SHA-256 of the running image's signed bytes; empty for none
  tag : Option (List Byte) := none         -- the user tag area, once written
  tid : Nat := 0                           -- PLDM terminus ID
  update : Option UpdateJob := none
  replies : List Reply := []
  sample : Option (List Nat) := none       -- the last telemetry sample, in the order of R415's table
  shedEvent : Option Nat := none           -- fabric time of the last 0xB001
  late : Tab (Option MctpMsg) := []        -- SPDM answers that were not ready, by binding
  commit : Option Nat := none              -- the SVN that fuses are being blown to
  deriving DecidableEq, Repr

/-! ### Boot (15_management_security.md) -/

/-- What the start-up sequence waits for (R400, R401). -/
inductive BootPhase where
  | held                                   -- a supply or RESET_N: before t0, or at the start of a device reset (R460)
  | rom | firmware | memory | clear | last
  | done                                   -- ready
  | recovery
  | stuck                                  -- stays in firmware start, or failed initialisation
  deriving DecidableEq, Repr

structure BootSt where
  phase : BootPhase := .held
  resetN : Bool := false                   -- RESET_N is high
  straps : Nat := 0                        -- as sampled at t0: SMBA0, SMBA1, TESTEN
  cold : Bool := true                      -- this start follows a cold reset
  lost : Bool := false                     -- the memory contents were lost with a supply
  waiting : Bool := false                  -- GLB_RESET waits for a flash copy (R434)
  deriving DecidableEq, Repr

/-! ### Power (17_power_package.md) -/

/-- A compute domain's throttle requests (R462). -/
structure DomSt where
  hot : Bool := false                      -- the junction condition holds
  hotReq : Nat := 0                        -- stretch the junction cause requests, 0 while released
  above : Bool := false                     -- the current is above the cap
  capOn : Bool := false                    -- the current cap is engaged
  warn : Bool := false                     -- a regulator warning stands
  capReq : Nat := 0                        -- stretch the current cap or regulator requests
  unread : Bool := false                   -- the current has been unread for 100 µs
  deriving DecidableEq, Repr

structure PwrSt where
  dom : Tab DomSt := []
  fails : Tab Nat := []                    -- consecutive failed frames, by interface
  slow : Nat := 0                          -- memories served at no more than half rate, one bit each
  doubled : Nat := 0                       -- stacks with doubled refresh, one bit each
  deriving DecidableEq, Repr

/-! ### The test access port -/

/-- The instruction in force (R471). -/
inductive TapInstr where
  | bypass | idcode | sample | extest | extestPulse | extestTrain
  deriving DecidableEq, Repr

structure TapSt where
  instr : TapInstr := .idcode
  pattern : BitVec 64 := 0                 -- the pattern preloaded
  shift : Option (BitVec 32) := none       -- what the selected register captured, where the spec gives it
  deriving DecidableEq, Repr

/-- The machine's state. -/
@[ext]
structure State where
  /-- Every register, keyed as RegMap says; an unlisted one holds its reset value (R12). -/
  regs : Tab Word
  /-- Memory bytes by device address (R28); an unlisted byte is 0 (R193). -/
  mem : Tab Byte
  /-- Poisoned lines, by line number (R188, R189). -/
  poison : Tab Bool
  /-- Symbol errors against the check bytes, keyed line * 68 + position (R186, R187). -/
  errs : Tab Byte
  /-- Corrected-error counts of the rows tracked (R192). -/
  rowErr : List (Nat × Nat)
  /-- Words 0 to 2 written to GLB_JOBSEED and not yet committed (R50). -/
  seedPend : BitVec 96
  /-- Instruction memory, keyed queue * 8192 + index (R118). -/
  imem : Tab CmdBits
  /-- The queues' hidden state. -/
  ques : Tab QueSt
  /-- Accumulator bank entries, keyed (((tile * 2 + engine) * 2 + bank) * 2048 + row) * 128 + column (R71). -/
  banks : Tab (BitVec 32)
  /-- Bank rows with a pending write, keyed ((tile * 2 + engine) * 2 + bank) * 2048 + row (R72). -/
  landings : Tab RowWrites
  /-- The matrix engines, keyed tile * 2 + engine. -/
  mxes : Tab MxSt
  /-- Tile gating, keyed by tile. -/
  gates : Tab GateSt
  /-- The links. -/
  links : Tab LinkSt
  /-- The router and the transport. -/
  fab : FabSt
  /-- Numbers given so far to issued commands and transport messages. -/
  nextUid : Nat
  /-- The host ports. -/
  ports : Tab PortSt
  /-- The DMA channels, keyed port * 16 + channel. -/
  dmas : Tab DmaJob
  /-- Bridges named in a 0x500D event, one bit each (R426, R443). -/
  badBridges : Nat
  /-- The wheels, keyed by axis. -/
  wheels : Tab WheelSt
  /-- Loads and saves in progress, by set. -/
  loads : Tab LoadJob
  /-- The management core, the flash and the security block. -/
  mgt : MgtSt
  /-- The fabric time unit. -/
  ftm : FtmSt
  /-- The event recorder. -/
  evr : EvrSt
  /-- The start-up sequence. -/
  boot : BootSt
  /-- The power controller. -/
  pwr : PwrSt
  /-- The test access port. -/
  tap : TapSt
  /-- The PLDM event receiver (R415). -/
  eventReceiver : Option Nat
  /-- What has left the device, newest first. -/
  out : List Out
  /-- Free values taken so far: the model's own counter. -/
  freeCtr : Nat
  /-- The commands that are waiting, first in first out. -/
  pending : List Instr
  deriving DecidableEq, Repr

/-- Why a step stops. -/
inductive Fault where
  /-- Raised by nobody: every fault the spec describes is an effect on State.  Safe. -/
  | none
  deriving DecidableEq, Repr

/-- Why a command has no meaning. -/
inductive Refusal where
  /-- Raised by `exec` for a command whose meaning is not written.  Safe. -/
  | notModelled (mnemonic : String)
  deriving DecidableEq, Repr

/-- The state right after a cold reset. -/
def State.reset : State where
  regs := []
  mem := []
  poison := []
  errs := []
  rowErr := []
  seedPend := 0
  imem := []
  ques := []
  banks := []
  landings := []
  mxes := []
  gates := []
  links := []
  fab := {}
  nextUid := 0
  ports := []
  dmas := []
  badBridges := 0
  wheels := []
  loads := []
  mgt := {}
  ftm := {}
  evr := {}
  boot := {}
  pwr := {}
  tap := {}
  eventReceiver := none
  out := []
  freeCtr := 0
  pending := []

end Sys2Proof.Machine
end

