-- ==== Sys2Proof/Machine/Ops.lean ====
section
/-! DEFINITION. The named operations over registers, memory bytes, lines and outputs that every meaning is
built from (R3, R7 to R12, R28, R369). -/

namespace Sys2Proof.Machine

/-- What a meaning answers. -/
abbrev Res := Host.Outcome State Fault Refusal

/-! ### The register map (R7, R8, R10 to R12) -/

/-- Whether an offset from a row's base is one of its instances. -/
def dimsCover : List (Nat × Nat) → Nat → Bool
  | [], off => off == 0
  | (n, stride) :: r, off => decide (off / stride < n) && dimsCover r (off % stride)

def RegRow.covers (r : RegRow) (a : Nat) : Bool := decide (r.base ≤ a) && dimsCover r.dims (a - r.base)

/-- The row of the register at key `a`, if one lies there (R11). -/
def regRow (a : Nat) : Option RegRow := regTable.find? fun r => r.covers a

/-- A row's reset value (R12). -/
def RegRow.reset (r : RegRow) : Nat := r.fields.foldl (fun v f => v + f.rst * 2 ^ f.lo) 0

/-- The identity a part is made with: fused or programmed constants, whose values the spec leaves to the
part (R310, R408, R419, R421). -/
def identityReset (a : Nat) : Option Word :=
  if aSEC_KEYHASH 0 ≤ a ∧ a < aSEC_KEYHASH 8 ∧ a % 4 = 0 then
    some ((Config.keyHash ((a - aSEC_KEYHASH 0) / 4)).setWidth 64)
  else if a = aSEC_SVN then some 0x100
  else if a = aRTE_LLDP then some (BitVec.ofNat 64 (Config.oui.toNat * 256 + 10))
  else none

/-- The value a register holds at cold reset. -/
@[irreducible] def regReset (a : Nat) : Word :=
  match identityReset a with
  | some v => v
  | none => match regRow a with
    | some r => BitVec.ofNat 64 r.reset
    | none => 0

/-- The register at key `a`. -/
def State.rd (s : State) (a : Nat) : Word := tabGet regReset s.regs a

/-- Write a whole register, with no access rule. -/
def State.wr (s : State) (a : Nat) (v : Word) : State := { s with regs := tabPut regReset s.regs a v }

/-- Bits `[lo + w - 1 : lo]` of `x`. -/
def getBits (x lo w : Nat) : Nat := x / 2 ^ lo % 2 ^ w

/-- `x` with bits `[lo + w - 1 : lo]` replaced by `v`. -/
def putBits (x lo w v : Nat) : Nat :=
  x % 2 ^ lo + v % 2 ^ w * 2 ^ lo + x / 2 ^ (lo + w) * 2 ^ (lo + w)

/-- Read a field. -/
def State.get (s : State) (f : FRef) : Nat := getBits (s.rd f.addr).toNat f.lo f.width

/-- Write a field, keeping the register's other bits. -/
def State.set (s : State) (f : FRef) (v : Nat) : State :=
  s.wr f.addr (BitVec.ofNat 64 (putBits (s.rd f.addr).toNat f.lo f.width v))

/-- Add to a counter field that wraps. -/
def State.inc (s : State) (f : FRef) (n : Nat) : State := s.set f (s.get f + n)

/-- Add to a counter field that saturates. -/
def State.incSat (s : State) (f : FRef) (n : Nat) : State := s.set f (min (s.get f + n) (2 ^ f.width - 1))

/-- Whether a one-bit field is set. -/
def State.isSet (s : State) (f : FRef) : Bool := s.get f == 1

/-- Return the registers of a key range to their reset values (R432). -/
def State.resetRegs (s : State) (lo n : Nat) : State := { s with regs := tabClear s.regs lo n }

/-! ### Hidden tables -/

def State.que (s : State) (q : Nat) : QueSt := tabGet (fun _ => {}) s.ques q
def State.setQue (s : State) (q : Nat) (v : QueSt) : State := { s with ques := tabPut (fun _ => {}) s.ques q v }
def State.mxe (s : State) (k : Nat) : MxSt := tabGet (fun _ => {}) s.mxes k
def State.setMxe (s : State) (k : Nat) (v : MxSt) : State := { s with mxes := tabPut (fun _ => {}) s.mxes k v }
def State.gate (s : State) (t : Nat) : GateSt := tabGet (fun _ => {}) s.gates t
def State.setGate (s : State) (t : Nat) (v : GateSt) : State := { s with gates := tabPut (fun _ => {}) s.gates t v }

def State.link (s : State) (n : Nat) : LinkSt := tabGet (fun _ => {}) s.links n
def State.setLink (s : State) (n : Nat) (v : LinkSt) : State := { s with links := tabPut (fun _ => {}) s.links n v }
def State.port (s : State) (p : Nat) : PortSt := tabGet (fun _ => {}) s.ports p
def State.setPort (s : State) (p : Nat) (v : PortSt) : State := { s with ports := tabPut (fun _ => {}) s.ports p v }

/-! ### Outputs and free values -/

def State.emit (s : State) (o : Out) : State := { s with out := o :: s.out }

/-- The next free value of `w` bits: nothing constrains it. -/
def State.fresh (s : State) (w : Nat) : BitVec w := Config.freeValue w s.freeCtr
def State.tick (s : State) : State := { s with freeCtr := s.freeCtr + 1 }

/-- `n` free bytes. -/
def State.freeBytes (s : State) : Nat → Nat → List Byte
  | _, 0 => []
  | k, n + 1 => Config.freeValue 8 (s.freeCtr + k) :: s.freeBytes (k + 1) n

def State.wheel (s : State) (a : Nat) : WheelSt := tabGet (fun _ => {}) s.wheels a
def State.setWheel (s : State) (a : Nat) (w : WheelSt) : State := { s with wheels := tabPut (fun _ => {}) s.wheels a w }

/-! ### Addresses (R28) -/

/-- Base of tile `t`'s scratchpad. -/
def padBase (t : Nat) : Nat := 0x080000000000 + t * 0x2000000
/-- Size of a scratchpad, 24 MiB. -/
def padSize : Nat := 0x1800000
/-- Bases and ends of the second tier's own and mirror areas. -/
def tier2Base : Nat := 0x040000000000
def mirrorBase : Nat := 0x043C00000000
def tier2End : Nat := 0x047800000000

/-- The tile whose scratchpad holds address `a`. -/
def padTile (a : Nat) : Option Nat :=
  if padBase 0 ≤ a ∧ a < padBase 24 ∧ (a - padBase 0) % 0x2000000 < padSize then
    some ((a - padBase 0) / 0x2000000) else none

/-- Whether a local address is populated. -/
def populated (a : Nat) : Bool :=
  decide (a < 0x020000000000) || (decide (tier2Base ≤ a) && decide (a < tier2End)) || (padTile a).isSome

/-- Whether every byte of a range is populated: it lies inside one tier or one scratchpad. -/
def rangePopulated (a n : Nat) : Bool :=
  decide (0 < n) &&
    (decide (a + n ≤ 0x020000000000) || (decide (tier2Base ≤ a) && decide (a + n ≤ tier2End)) ||
      (match padTile a with
       | some t => decide (a + n ≤ padBase t + padSize)
       | none => false))

/-- The regions of the address map, for accesses that must stay inside one. -/
inductive Region where
  | tier1 | tier2 | pad (t : Nat)
  deriving DecidableEq, Repr

/-- The region an address lies in. -/
def regionOf (a : Nat) : Option Region :=
  if a < 0x020000000000 then some .tier1
  else if tier2Base ≤ a ∧ a < tier2End then some .tier2
  else (padTile a).map .pad

/-! ### Bytes and lines -/

def State.byte (s : State) (a : Nat) : Byte := tabGet (fun _ => 0) s.mem a
def State.setByte (s : State) (a : Nat) (b : Byte) : State := { s with mem := tabPut (fun _ => 0) s.mem a b }

/-- Write bytes from an address up, nothing else. -/
def State.setBytes (s : State) (a : Nat) : List Byte → State
  | [] => s
  | b :: bs => (s.setByte a b).setBytes (a + 1) bs

/-- Leave `n` bytes from address `a` open: free values. -/
def State.scramble (s : State) (a n : Nat) : State :=
  { s.setBytes a (s.freeBytes 0 n) with freeCtr := s.freeCtr + n }

/-- `n` bytes from address `a` as written, with no error check. -/
def State.bytes (s : State) (a : Nat) : Nat → List Byte
  | 0 => []
  | n + 1 => s.byte a :: s.bytes (a + 1) n

/-- Whether a line is poisoned. -/
def State.poisoned (s : State) (line : Nat) : Bool := tabGet (fun _ => false) s.poison line
def State.setPoison (s : State) (line : Nat) (p : Bool) : State :=
  { s with poison := tabPut (fun _ => false) s.poison line p }

/-- The symbol errors a line holds: positions and differences. -/
def State.lineErrs (s : State) (line : Nat) : List (Nat × Nat) :=
  (s.errs.filter fun e => e.1 / 68 == line).map fun e => (e.1 % 68, e.2.toNat)

def State.setErr (s : State) (line pos : Nat) (v : Byte) : State :=
  { s with errs := tabPut (fun _ => 0) s.errs (line * 68 + pos) v }

/-- Drop every symbol error of a line: its check bytes are written anew. -/
def State.clearErrs (s : State) (line : Nat) : State := { s with errs := tabClear s.errs (line * 68) 68 }

/-! ### Accumulator banks (R71, R73) -/

/-- The key of a bank row. -/
def bankRow (t m b row : Nat) : Nat := ((t * 2 + m) * 2 + b) * 2048 + row

/-- Entry `c` of the bank row with key `k`. -/
def State.entry (s : State) (k c : Nat) : BitVec 32 := tabGet (fun _ => 0) s.banks (k * 128 + c)
def State.setEntry (s : State) (k c : Nat) (v : BitVec 32) : State :=
  { s with banks := tabPut (fun _ => 0) s.banks (k * 128 + c) v }

/-- The valid-mark register and bit of the group with key `k`: `((t * 2 + m) * 2 + b) * 128 + group`. -/
def bvalRef (k : Nat) : FRef :=
  let t := k / 512
  let m := k / 256 % 2
  let g := k % 128
  if k / 128 % 2 = 0 then ⟨aMXE_BVAL0 t m (g / 32), g % 32, 1⟩ else ⟨aMXE_BVAL1 t m (g / 32), g % 32, 1⟩

/-- Mark a group valid or invalid. -/
def State.setGroup (s : State) (k : Nat) (valid : Bool) : State := s.set (bvalRef k) valid.toNat
def State.groupValid (s : State) (k : Nat) : Bool := s.isSet (bvalRef k)

/-! ### Interrupt vectors (R369) -/

/-- Raise vector `v` of port `p`.  In D3hot the port raises PME and keeps the vector pending; a masked
vector stays pending; with MSI-X disabled nothing is sent. -/
def raiseVector (p v : Nat) (s : State) : State :=
  let pend : FRef := ⟨aMSIX_PBA p (v / 64), v % 64, 1⟩
  if s.get (HST_STAT_DSTATE p) = 3 then (s.set pend 1).emit (.pme p v)
  else if !(s.port p).msixEn then s
  else if (s.port p).msixMask || s.isSet (MSIX_CTRL_MASK p v) then s.set pend 1
  else s.emit (.msix p v)

/-- Raise a vector on both ports. -/
def raiseBoth (v : Nat) (s : State) : State := raiseVector 1 v (raiseVector 0 v s)

/-- Send every pending vector of a port that may now be sent. -/
def flushVectors (p : Nat) (s : State) : State :=
  if s.get (HST_STAT_DSTATE p) = 3 || !(s.port p).msixEn || (s.port p).msixMask then s
  else (List.range 32).foldl (fun s w =>
    if s.rd (aMSIX_PBA p w) = 0 then s
    else (List.range 64).foldl (fun s b =>
      let v := w * 64 + b
      let pend : FRef := ⟨aMSIX_PBA p w, b, 1⟩
      if s.isSet pend && !s.isSet (MSIX_CTRL_MASK p v) then (s.set pend 0).emit (.msix p v) else s) s) s

/-- Fold an effect over a list. -/
def forAll {α : Type} (l : List α) (f : α → State → State) (s : State) : State := l.foldl (fun s x => f x s) s

end Sys2Proof.Machine
end

