-- ==== Sys2Proof/Machine/Events.lean ====
section
/-! DEFINITION. The event recorder, freezing a queue, the end of a pre-wake, and red containment (R138, R147, R357, R359,
R422 to R441). -/

namespace Sys2Proof.Machine

/-- Severities (R422). -/
inductive Sev where
  | grey | amber | red
  deriving DecidableEq, Repr

def Sev.num : Sev → Nat
  | .grey => 0
  | .amber => 1
  | .red => 2

/-- The codes whose severity is red. -/
def redCodes : List Nat := [0x500C, 0x500D, 0x500E, 0xB008, 0xC001, 0xD001, 0xD004, 0xD007]

/-- The codes whose severity is amber (0x600F is amber where its port is degraded, R255). -/
def amberCodes : List Nat :=
  [0x1001, 0x1002, 0x1003, 0x1004, 0x1006, 0x2001, 0x2003, 0x2004, 0x2006, 0x3001, 0x3002, 0x3004, 0x3005,
   0x3006, 0x3008, 0x3009, 0x300B, 0x300C, 0x300E] ++
  [0x5001, 0x5003, 0x5004, 0x5006, 0x5007, 0x5008, 0x500A, 0x6002, 0x6003, 0x6004, 0x6005,
   0x6009, 0x600B, 0x600D, 0x600E] ++
  [0x7002, 0x7003, 0x7004, 0x7006, 0x8001, 0x8002, 0x8003, 0x8004, 0x8005, 0x8007, 0x9002, 0x9003, 0x9005,
   0x9007, 0x9008, 0xA002, 0xA004, 0xA006, 0xA00A] ++
  [0xB002, 0xB007, 0xC002, 0xC003, 0xC007, 0xD002, 0xD005, 0xD006, 0xD008, 0xD00A]

/-- An event's severity, fixed by its code (R422); 0x600F is amber as its port enters the degraded state and grey as it leaves
it (R255). -/
def sevOf (code : Nat) (degraded : Bool) : Sev :=
  if code = 0x600F then (if degraded then .amber else .grey)
  else if redCodes.contains code then .red
  else if amberCodes.contains code then .amber
  else .grey

/-! ### SOURCE (R436) -/

def srcDevice : Nat := 0
/-- A tile unit: 0, 1 matrix, 2 element, 3, 4 Flume, 5 queue, 6 loader, 7 tile control. -/
def srcTile (t unit q : Nat) : Nat := 0x1000 + t * 128 + unit * 16 + (if unit = 5 then q else 0)
/-- A queue by its number over all sets: a tile queue, or a privileged queue. -/
def srcQueue (q : Nat) : Nat := if q < 120 then srcTile (q / 5) 5 (q % 5) else 0x2000 + (q - 120)
/-- A set's loader. -/
def srcLoader (g : Nat) : Nat := if g < 24 then srcTile g 6 0 else 0x2007
def srcWheel (a : Nat) : Nat := 0x3000 + a
def srcLink (n : Nat) : Nat := 0x4000 + n
def srcPort (p : Nat) : Nat := 0x5000 + p
def srcRouter : Nat := 0x6000
def srcStack (k : Nat) : Nat := 0x7000 + k
def srcPackage (k : Nat) : Nat := 0x8000 + k
def srcMirror : Nat := 0x800F
def srcHost (p c : Nat) : Nat := 0x9000 + p * 256 + c
def srcTime : Nat := 0xA000
def srcCore : Nat := 0xB000
def srcSecurity : Nat := 0xC000
def srcPower (d : Nat) : Nat := 0xD000 + d
def srcRecorder : Nat := 0xE000

/-- The flag set a source belongs to: its tile, or the device set (R435). -/
def srcSet (src : Nat) : Nat := if src / 4096 = 1 then src / 128 % 32 else 24

/-! ### Fabric time and STEP -/

def State.now (s : State) : Nat := (s.rd aFTM_NOW).toNat
/-- Ticks by which the counter has advanced since it read `t` (R345); it wraps at 2⁶⁴ (R342). -/
def State.since (s : State) (t : Nat) : Nat := (s.now + 2 ^ 64 - t % 2 ^ 64) % 2 ^ 64
def State.step40 (s : State) (g : Nat) : Nat := s.get (TIL_STEP_STEP g)
/-- Whether the device is ready (R400). -/
def State.ready (s : State) : Bool := s.get GLB_BOOT_STATE == 4

/-! ### Commands (R13) -/

def opcode (w : CmdBits) : Nat := (w.extractLsb' 0 8).toNat
/-- Bits `[lo + n - 1 : lo]` of a command. -/
def cmdGet (w : CmdBits) (lo n : Nat) : Nat := getBits w.toNat lo n

/-- The committed job seed (R50). -/
def State.seed (s : State) : Nat :=
  (List.range 4).foldl (fun v k => v + (s.rd (aGLB_JOBSEED k)).toNat % 2 ^ 32 * 2 ^ (32 * k)) 0

/-! ### Freezing a queue (R147) -/

/-- QUE_STAT.STATE's values (R151). -/
abbrev qIdle : Nat := 0
abbrev qArmed : Nat := 1
abbrev qRunning : Nat := 2
abbrev qWaiting : Nat := 3
abbrev qParked : Nat := 4
abbrev qFrozen : Nat := 5

def State.qstate (s : State) (q : Nat) : Nat := s.get (QUE_STAT_STATE q)
/-- Whether a queue's clock runs: NCLK for a privileged queue, and its tile's TCLK while the tile is not gated (R24, R149). -/
def State.clocked (s : State) (q : Nat) : Bool := decide (120 ≤ q) || decide ((s.gate (q / 5)).phase = .running)
/-- Cycles of a queue's clock between two ticks of fabric time: 2 GHz, of which a tile's domain at stretch S gets (16 − S) in 16
(R149, R461). -/
def State.queueCycles (s : State) (q t u : Nat) : Nat :=
  let k := 16 - (if q < 120 then s.get (PWR_STRETCH_S (q / 30)) else 0)
  u * k / 32 - t * k / 32
/-- QUE_WAITCNT counts a queue's cycles in WAITING (R151). -/
def countWaiting (t u : Nat) (s : State) : State :=
  forAll (List.range 125) (fun q s =>
    if s.qstate q = qWaiting ∧ s.clocked q then s.inc (QUE_WAITCNT_CNT q) (s.queueCycles q t u) else s) s

/-- Deep idle: every tile power-gated and every link in electrical idle (R275, R344, R451). -/
def State.deepIdle (s : State) : Bool :=
  (List.range 24).all fun k => s.isSet (LNK_STAT_LP k) && decide ((s.gate k).phase = .powerGated)

/-- The failures of a link in the current 60 s (R274). -/
def State.recentFails (s : State) (l : LinkSt) : List Nat := l.failTimes.filter fun t => decide (s.since t < 240000000000)

/-- A failure older than 60 s leaves LNK_STAT.FLAPS (R274). -/
def ageFlaps (s : State) : State :=
  forAll ((List.range 24).filter fun n => (s.link n).failTimes != []) (fun n s => s.set (LNK_STAT_FLAPS n) (min 7 (s.recentFails (s.link n)).length)) s

/-- The time base runs on to tick `t`: the counter, the µs of each domain that is stretched, and the cycles that queues wait
(R151, R342, R474); failures of links age (R274).  In deep idle the keeper carries the count, which FTM_STAT.HOLD shows (R344). -/
def State.advanceTo (s : State) (t : Nat) : State :=
  let us := t / 4000 - s.now / 4000
  let s1 := countWaiting s.now t s
  let s2 := (forAll (List.range 4) (fun d s => if us = 0 ∨ s.get (PWR_STRETCH_S d) = 0 then s else s.inc (PWR_THRCNT_CNT d) us) s1).wr
    aFTM_NOW (BitVec.ofNat 64 t)
  ageFlaps (if s.deepIdle then s2.set FTM_STAT_HOLD 1 else s2)

/-- A queue's home set (R116). -/
def homeSet (q : Nat) : Nat := if q < 120 then q / 5 else 24

/-! ### Pre-woken engines (R82, R83, R138, R357, R359) -/

/-- Count `n` gap cycles under dry grind: MXE_DGCNT, and the ballast operands move on (R82, R87). -/
def grind (t m n : Nat) (s : State) : State :=
  let s1 := s.inc (MXE_DGCNT_CNT t m) n
  s1.setMxe (t * 2 + m) { s1.mxe (t * 2 + m) with lfsr := ballastRun n (s1.mxe (t * 2 + m)).lfsr }

/-- ACLK cycles of a tile in `n` ticks of fabric time (R461). -/
def State.aclkCycles (s : State) (t n : Nat) : Nat := n * (16 - s.get (PWR_STRETCH_S (t / 6))) / 16

/-- The level that a pre-wake has reached: it rises at the slope of R83 from where it stood (R138). -/
def State.riseLevel (s : State) (t m : Nat) : Nat :=
  let e := s.mxe (t * 2 + m)
  let v := s.get (MXE_STAT_LEVEL t m)
  match e.riseAt with
  | some t0 => min 1023 (v + s.aclkCycles t (s.since t0) * 1023 / (e.ramp * 1024))
  | none => v

/-- The ACLK cycles of a pre-wake's hold so far; one that is to follow a command in progress has none yet. -/
def State.heldCycles (s : State) (t m : Nat) : Nat :=
  match (s.mxe (t * 2 + m)).riseAt with
  | some t0 => if s.now < t0 then 0 else s.aclkCycles t (s.since t0)
  | none => 0

/-- A pre-wake of engine `m` of tile `t` ends: it stands at the level reached, the cycles of the pre-wake count, and its HOLD
counts again (R138, R357). -/
def releaseEngine (t m : Nat) (s : State) : State :=
  let e := s.mxe (t * 2 + m)
  if !e.prewake then s
  else
    let s1 := grind t m (s.heldCycles t m) s
    ((s1.set (MXE_STAT_LEVEL t m) (s.riseLevel t m)).set (MXE_STAT_ARRAY t m) 2).setMxe (t * 2 + m)
      { s1.mxe (t * 2 + m) with prewake := false, riseAt := none, warm := true }

/-- Whether a sluice that has not opened and was not discarded pre-woke tile `t`. -/
def State.preWoken (s : State) (t : Nat) : Bool := (List.range 125).any fun k => (s.que k).lead.contains t

/-- The sluice of queue `q` no longer holds: the engines of the tiles it pre-woke are released, but for those of a tile that
another sluice still holds (R359). -/
def releasePreWake (q : Nat) (tiles : List Nat) (s : State) : State :=
  forAll tiles (fun t s => if s.preWoken t then s else forAll [0, 1] (fun m s => releaseEngine t m s) s)
    (s.setQue q { s.que q with lead := [] })

/-- A sluice that queue `q` holds is discarded, and its pre-wake ends (R357). -/
def discardSluice (q : Nat) (s : State) : State :=
  let e := s.que q
  if e.sluice = none ∧ e.lead = [] then s else releasePreWake q e.lead (s.setQue q { e with sluice := none })

/-! ### Freezing (R147) -/

/-- Freeze queue `q`: a sluice it holds is discarded, STATE becomes FROZEN, and QUE_FREEZEREC is filled if it is not valid. -/
def freezeQueue (q code resume cmd flag : Nat) (s : State) : State :=
  let s1 := (discardSluice q s).set (QUE_STAT_STATE q) qFrozen
  if s.isSet (QUE_FREEZEREC_VALID q) then s1
  else
    let lib := s.get (QUE_STAT_INLIB q)
    let s2 := s1.wr (aQUE_FREEZEREC q) 0
    let s3 := (s2.set (QUE_FREEZEREC_CODE q) code).set (QUE_FREEZEREC_STEP q) (s.step40 (homeSet q))
    let s4 := (s3.set (QUE_FREEZEREC_VALID q) 1).set (QUE_FREEZEREC_RESUME q) resume
    let s5 := (s4.set (QUE_FREEZEREC_INLIB q) lib).set (QUE_FREEZEREC_CMD q) cmd
    s5.set (QUE_FREEZEREC_FLAG q) flag

/-! ### Aborting commands (R85, R112, R204) -/

/-- Poison a written line, or mark a written group invalid. -/
def poisonLines (ls : List (Nat × Bool × List Byte)) (s : State) : State :=
  forAll ls (fun l s => s.setPoison l.1 true) s
def invalidateGroups (gs : List (Nat × Bool × List (BitVec 32))) (s : State) : State :=
  forAll gs (fun g s => s.setGroup g.1 false) s

/-- Set an engine's ABORT status for an aborted command of queue `q`, and fill the abort record if it is
empty (R87, R115, R214). -/
def markAbort (q cmd : Nat) (s : State) : State :=
  let t := q / 5
  let st := s.step40 (homeSet q)
  if 120 ≤ q then s
  else if q % 5 < 2 then s.set (MXE_STAT_ABORT t (q % 5)) 1
  else if q % 5 = 2 then
    let s1 := s.set (ELE_STAT_ABORT t) 1
    if s.isSet (ELE_ABORTREC_VALID t) then s1
    else ((s1.set (ELE_ABORTREC_STEP t) st).set (ELE_ABORTREC_CMD t) cmd).set (ELE_ABORTREC_VALID t) 1
  else
    let f := q % 5 - 3
    let s1 := s.set (FLM_STAT_ABORT t f) 1
    if s.isSet (FLM_ABORTREC_VALID t f) then s1
    else ((s1.set (FLM_ABORTREC_STEP t f) st).set (FLM_ABORTREC_CMD t f) cmd).set (FLM_ABORTREC_VALID t f) 1

/-- Whether an issued command has work in an engine: a skipped or queue-control command has none. -/
def Issued.isEngine (e : Issued) : Bool := !e.skipped && decide (0x10 ≤ opcode e.word)

/-- What an engine shows of the commands it holds: a Flume engine's INFL and STATE, the element engine's STATE, and dry grind in
a matrix engine's ARRAY once no command is left (R87). -/
def showEngine (q : Nat) (s : State) : State :=
  let k := ((s.que q).issued.filter fun e => e.isEngine && decide (e.status ≠ .rerun)).length
  if 120 ≤ q then s
  else if q % 5 = 2 then s.set (ELE_STAT_STATE (q / 5)) (if k = 0 then 0 else
      if (s.que q).issued.any fun e => opcode e.word == 0x41 && decide (e.status ≠ .rerun) then 2 else 1)
  else if 3 ≤ q % 5 then
    let sync := (s.que q).issued.any fun e => opcode e.word == 0x73 && decide (e.status = .busy)
    (s.set (FLM_STAT_INFL (q / 5) (q % 5 - 3)) (min 4 k)).set (FLM_STAT_STATE (q / 5) (q % 5 - 3)) (if sync then 2 else if k = 0 then 0 else 1)
  else if k = 0 ∧ s.get (MXE_STAT_ARRAY (q / 5) (q % 5)) = 1 then s.set (MXE_STAT_ARRAY (q / 5) (q % 5)) 2
  else s

/-- Abort the commands of queue `q` that have issued and not retired: their outputs are marked invalid or
poisoned, and they are to run again. -/
def abortIssued (q : Nat) (s : State) : State :=
  let st := s.que q
  let s1 := forAll (st.issued.filter Issued.isEngine) (fun e s =>
    markAbort q e.idx (invalidateGroups e.groups (poisonLines e.lines s))) s
  showEngine q (s1.setQue q { s1.que q with issued := st.issued.map fun e => if e.isEngine then { e with status := .rerun } else e })

/-! ### Mirror regions (R207, R212) -/

def State.mirStart (s : State) (r : Nat) : Nat := s.get (LPC_MIRBASE_BASE r) * 4096
def State.mirEnd (s : State) (r : Nat) : Nat := (s.get (LPC_MIRLIM_LIMIT r) + 1) * 4096
/-- Whether region `r` is enabled and mirroring. -/
def State.mirActive (s : State) (r : Nat) : Bool := (s.get LPC_MIRSTAT_ACTIVE).testBit r
/-- The active regions a range meets. -/
def State.mirRegions (s : State) (a n : Nat) : List Nat :=
  (List.range 16).filter fun r => s.mirActive r && decide (a < s.mirEnd r) && decide (s.mirStart r < a + n)

/-- A write by a master that is not mirrored lands in a region (R207). -/
def countUnmirrored (a n : Nat) (s : State) : State := if s.mirRegions a n = [] then s else s.incSat LPC_MIRUNMIR_CNT 1

/-! ### Red containment (R426) -/

/-- The result descriptor's words (R326). -/
def collDescriptor (c : Coll) (psn : Bool) (status count now : Nat) : Nat :=
  let w0 := c.nf.toNat + 2 * psn.toNat + 4 + (if status = 0 then 0 else 8) + status * 2 ^ 8 + c.seq * 2 ^ 16 + c.digest * 2 ^ 32
  w0 + c.step % 2 ^ 40 * 2 ^ 64 + count % 2 ^ 32 * 2 ^ 128 + now * 2 ^ 192

/-- End a collective in failure, but for its event and its queue (R329): its results are open, FAILREC is filled if
empty, and STATUS is shown. -/
def collFailed (a : Nat) (c : Coll) (status pos : Nat) (s : State) : State :=
  let s1 := (s.set (WHL_STAT_LAST a) status).set (WHL_STAT_STATE a) 0
  let s2 := if s1.isSet (WHL_FAILREC_VALID a) then s1
    else ((((s1.set (WHL_FAILREC_STEP a) c.step).set (WHL_FAILREC_STATUS a) status).set (WHL_FAILREC_POS a) pos).set
      (WHL_FAILREC_CMD a) c.idx).set (WHL_FAILREC_VALID a) 1
  s2.setWheel a { s2.wheel a with coll := none, lastSeq := some c.seq }

/-- Bytes an element of wheel `a`'s result takes: those of CVT.FMT where the operation reduces, of FMT elsewhere. -/
def Coll.outBytes (c : Coll) : Nat :=
  let f := if (c.word.extractLsb' 0 8).toNat < 0x92 then (c.word.extractLsb' 70 4).toNat else (c.word.extractLsb' 80 4).toNat
  if f = 0 ∨ f = 6 then 4 else if f = 1 ∨ f = 2 then 2 else 1

/-- Containment ends a wheel's collective: ABORTED, its result lines poisoned (R426). -/
def containWheel (a : Nat) (s : State) : State :=
  match (s.wheel a).coll with
  | none => s
  | some c =>
      let n := c.dstLen * c.outBytes
      let ls := if n = 0 then [] else (List.range ((c.dst + n - 1) / 64 + 1 - c.dst / 64)).map (· + c.dst / 64)
      let s1 := if rangePopulated c.dst n then forAll ls (fun l s => s.setPoison l true) (s.scramble c.dst n) else s
      let d := collDescriptor c false 3 0 s.now
      let s2 := if rangePopulated c.res 32 then countUnmirrored c.res 32 (s1.setBytes c.res ((List.range 32).map fun i => BitVec.ofNat 8 (d / 256 ^ i))) else s1
      collFailed a c 3 c.r.1 s2

/-- Contain the device: abort every command in progress, freeze every queue, discard the sluices and end their
pre-wakes (R357), stop originating. -/
def contain (code : Nat) (s : State) : State :=
  let s1 := forAll (List.range 125) (fun q s =>
    let s := freezeQueue q code 0 (s.get (QUE_STAT_PC q)) 0 (abortIssued q s)
    s.setQue q { s.que q with dead := true }) s
  let s3 := forAll (List.range 4) containWheel s1
  (s3.set PRT_PLANSTAT_ARMED 0).set EVR_STAT_RED 1

/-! ### Recording (R435 to R441) -/

/-- The number of the newest record's ring slot. -/
def State.newest (s : State) : Nat := s.get EVR_HEAD_SEQ % 4096

/-- Whether an occurrence folds into the newest record (R440). -/
def foldsInto (code src sev : Nat) (s : State) : Bool :=
  let i := s.newest
  let w1 := (s.rd (aEVR_REC i 1)).toNat
  let w2 := (s.rd (aEVR_REC i 2)).toNat
  let ref := s.evr.lastFold.getD (s.rd (aEVR_REC i 0)).toNat
  s.isSet EVR_STAT_ANY && getBits w1 32 16 == code && getBits w1 48 16 == src && getBits w2 16 8 == sev
    && decide (ref ≤ s.now) && decide (s.now < ref + 4000000) && decide (getBits w2 0 16 < 65535)

/-- The bucket size of a severity (R441). -/
def burst (sev : Nat) (s : State) : Nat := if sev = 1 then s.get EVR_RATE_ABURST else s.get EVR_RATE_GBURST

/-- Write a new record (R435, R437). -/
def writeRecord (code src sev : Nat) (detail : Word) (drop : Bool) (s : State) : State :=
  let seq := if s.isSet EVR_STAT_ANY then (s.get EVR_HEAD_SEQ + 1) % 2 ^ 32 else 0
  let i := seq % 4096
  let d := detail.toNat
  let flags := drop.toNat + (if s.ready then 0 else 4)
  let s1 := (s.wr (aEVR_REC i 0) (s.rd aFTM_NOW)).wr (aEVR_REC i 1)
    (BitVec.ofNat 64 (seq + code * 2 ^ 32 + src * 2 ^ 48))
  let s2 := (s1.wr (aEVR_REC i 2) (BitVec.ofNat 64 (sev * 2 ^ 16 + flags * 2 ^ 24 + d % 2 ^ 32 * 2 ^ 32))).wr
    (aEVR_REC i 3) (BitVec.ofNat 64 (d / 2 ^ 32 + s.step40 (srcSet src) % 65536 * 2 ^ 32 + 0x5A * 2 ^ 56))
  let s3 := (s2.set EVR_HEAD_SEQ seq).set EVR_STAT_ANY 1
  { s3 with evr := { s3.evr with lastFold := none } }

/-- The PLDM event of a red event, or an amber one of the PWR or SEC block (R415, R423). -/
def sendPlatformEvent (code sev : Nat) (detail : Word) (s : State) : State :=
  match s.eventReceiver with
  | some r => if sev = 2 ∨ (sev = 1 ∧ (code / 4096 = 0xC ∨ code / 4096 = 0xD)) then s.emit (.platformEvent r code detail) else s
  | none => s

/-- Make a new record known (R423), and for a red one contain the device and have its flash copy and its
escalation due (R426, R427, R442); a hold that a withheld reset began ends only by GLB_RESET or a cold reset. -/
def announce (code sev : Nat) (detail : Word) (s : State) : State :=
  let s1 := sendPlatformEvent code sev detail s
  if sev = 1 then
    let s2 := raiseBoth 32 s1
    if s2.isSet EVR_CTRL_FAULTAMB then s2.set EVR_STAT_FAULT 1 else s2
  else if sev = 2 then
    let s2 := (raiseBoth 33 s1).set EVR_STAT_FAULT 1
    let esc := if s.ready && code != 0xB008 && !(s.isSet EVR_STAT_RED && s.isSet EVR_STAT_HELD) && s2.evr.escalate.isNone then some code else s2.evr.escalate
    let s3 := { s2 with evr := { s2.evr with copies := s2.evr.copies ++ [s2.get EVR_HEAD_SEQ], escalate := esc } }
    if s.isSet EVR_STAT_RED then s3 else contain code s3
  else s1

/-- Whether the port a source names is degraded (R255). -/
def State.degraded (s : State) (src : Nat) : Bool := s.get (PRT_STAT_STATE (src % 8)) == 1

/-- An occurrence reaches the recorder: it folds, is dropped for want of a token, or is written. -/
def recordEvent (code src : Nat) (detail : Word) (s : State) : State :=
  let sev := (sevOf code (s.degraded src)).num
  if foldsInto code src sev s then
    let s1 := s.inc ⟨aEVR_REC s.newest 2, 0, 16⟩ 1
    { s1 with evr := { s1.evr with lastFold := some s.now } }
  else if sev = 2 then
    let drop := tabGet (fun _ => false) s.evr.dropped code
    let s1 := writeRecord code src sev detail drop s
    announce code sev detail { s1 with evr := { s1.evr with dropped := tabPut (fun _ => false) s1.evr.dropped code false } }
  else
    let key := 2 * code + sev
    let spent := tabGet (fun _ => 0) s.evr.spent key
    if spent < burst sev s then
      let drop := tabGet (fun _ => false) s.evr.dropped code
      let s1 := writeRecord code src sev detail drop s
      announce code sev detail { s1 with evr := { s1.evr with
        dropped := tabPut (fun _ => false) s1.evr.dropped code false,
        spent := tabPut (fun _ => 0) s1.evr.spent key (spent + 1) } }
    else
      let s1 := if sev = 1 then s.incSat EVR_DROPCNT_AMBER 1 else s.incSat EVR_DROPCNT_GREY 1
      { s1 with evr := { s1.evr with dropped := tabPut (fun _ => false) s1.evr.dropped code true } }

/-- An event with no stated detail. -/
def event (code src : Nat) (s : State) : State := recordEvent code src 0 s
/-- An event with a numeric detail. -/
def eventD (code src detail : Nat) (s : State) : State := recordEvent code src (BitVec.ofNat 64 detail) s

/-- Freeze a queue with an amber event of that code (R147). -/
def freezeEvent (q code src resume cmd : Nat) (detail : Nat) (s : State) : State :=
  freezeQueue q code resume cmd 0 (eventD code src detail s)

end Sys2Proof.Machine
end

