-- ==== Sys2Proof/Machine/Mem.lean ====
section
/-! DEFINITION. Memory lines: where an address lies, error correction and poison, reading and writing
(R178, R182, R186 to R193). -/

namespace Sys2Proof.Machine

/-! ### Where a line lies (R178, R182) -/

/-- The bits of `x` from `lo`, seven of them: one term of the first tier's hash. -/
def seven (x lo : Nat) : Nat := getBits x lo 7

/-- R178's hash of a granule. -/
def granuleHash (g : Nat) : Nat := seven g 0 ^^^ seven g 7 ^^^ seven g 14 ^^^ seven g 21 ^^^ getBits g 28 3

/-- A first-tier address's stack. -/
def stackOf (a : Nat) : Nat := getBits a 39 2 * 4 + granuleHash (getBits a 8 31) % 4
/-- Its pseudo-channel. -/
def pseudoOf (a : Nat) : Nat := granuleHash (getBits a 8 31) / 4
/-- Its pseudo-channel offset p. -/
def pseudoOffset (a : Nat) : Nat := getBits a 15 24 * 256 + a % 256

/-- Its DRAM row within the stack: pseudo-channel, row, stack ID, bank and bank group. -/
def dramRow (a : Nat) : Nat :=
  let p := pseudoOffset a
  let bank := getBits p 12 2 ^^^ getBits p 18 2
  let group := getBits p 10 2 ^^^ getBits p 16 2
  (((pseudoOf a * 65536 + getBits p 16 16) * 4 + getBits p 14 2) * 4 + bank) * 4 + group

/-- The first local address of the row that holds `a`: granule bits [8:7] are 0 there, and bits [6:0] keep the
hash. -/
def dramRowFirst (a : Nat) : Nat :=
  let g := getBits a 8 31
  let up := g / 512 * 512
  let low := granuleHash g ^^^ granuleHash up
  a / 2 ^ 39 * 2 ^ 39 + (up + low) * 256

/-- A second-tier address's package. -/
def packageOf (a : Nat) : Nat :=
  let g := getBits (a - tier2Base) 8 31
  getBits g 0 2 ^^^ getBits g 8 2 ^^^ getBits g 16 2 ^^^ getBits g 24 2

/-- Its DRAM byte address in the package (step 5 of R182). -/
def packageAddr (a : Nat) : Nat :=
  let o := a - tier2Base
  let q := getBits o 8 31 / 4 * 256 + o % 256
  let l := q / 64
  l / 15 * 1024 + l % 15 * 64 + q % 64

/-- The channel of a package address (step 6 of R182). -/
def packageChannel (a : Nat) : Nat := getBits (packageAddr a) 6 3 ^^^ getBits (packageAddr a) 15 3

/-! ### Counting errors (R190, R192) -/

/-- Which store keeps a line. -/
inductive Home where
  | stack (k : Nat) | package (k : Nat) | pad (t : Nat) | none
  deriving DecidableEq, Repr

def homeOf (a : Nat) : Home :=
  match regionOf a with
  | some .tier1 => .stack (stackOf a)
  | some .tier2 => .package (packageOf a)
  | some (.pad t) => .pad t
  | none => .none

/-- SOURCE of an event about a line. -/
def srcHome : Home → Nat
  | .stack k => srcStack k
  | .package k => srcPackage k
  | .pad t => srcTile t 7 0
  | .none => srcDevice

/-- Fill a home's LASTERR: KIND 1 corrected, 2 uncorrectable on demand, 3 uncorrectable on scrub. -/
def lastErr (h : Home) (kind a : Nat) (s : State) : State :=
  match h with
  | .stack k => (s.set (HBC_LASTERR_KIND k) kind).set (HBC_LASTERR_ADDR k) a
  | .package k => (s.set (LPC_LASTERR_KIND k) kind).set (LPC_LASTERR_ADDR k) a
  | _ => s

/-- Count a corrected symbol, or an uncorrectable line. -/
def countErr (h : Home) (corrected : Bool) (s : State) : State :=
  match h with
  | .stack k => if corrected then s.inc (HBC_CECNT_CNT k) 1 else s.inc (HBC_UECNT_CNT k) 1
  | .package k => if corrected then s.inc (LPC_CECNT_CNT k) 1 else s.inc (LPC_UECNT_CNT k) 1
  | _ => s

/-- Count a corrected error of `key` among the rows tracked; at most 256 of a home are kept, the oldest
giving way. -/
def bumpRow (home key : Nat) (rows : List (Nat × Nat)) : List (Nat × Nat) × Nat :=
  let k := home * 2 ^ 40 + key
  match rows.find? (·.1 == k) with
  | some (_, n) => (rows.map (fun e => if e.1 = k then (k, n + 1) else e), n + 1)
  | none =>
      let mine := rows.filter (·.1 / 2 ^ 40 == home)
      let rows := if mine.length < 256 then rows
        else match mine with
          | (old, _) :: _ => rows.filter (·.1 != old)
          | [] => rows
      (rows ++ [(k, 1)], 1)

/-- Track a corrected error's DRAM row and report the threshold (R192). -/
def trackRow (h : Home) (a : Nat) (s : State) : State :=
  let go (home key first thr src : Nat) : State :=
    let r := bumpRow home key s.rowErr
    if thr != 0 && decide (thr ≤ r.2) then
      eventD 0x5009 src first { s with rowErr := r.1.filter (·.1 != home * 2 ^ 40 + key) }
    else { s with rowErr := r.1 }
  match h with
  | .stack k => go k (dramRow a) (dramRowFirst a) (s.get HBC_ERRTHR_THR) (srcStack k)
  | .package k => go (16 + k) (Config.lpddrRow a % 2 ^ 40) (Config.lpddrRowAddr (Config.lpddrRow a))
      (s.get LPC_ERRTHR_THR) (srcPackage k)
  | _ => s

/-! ### Reading a line (R187 to R190) -/

/-- The byte at position `i` of a line as stored, errors and all. -/
def State.storedByte (s : State) (line i : Nat) : Byte :=
  s.byte (line * 64 + i) ^^^ tabGet (fun _ => 0) s.errs (line * 68 + 4 + i)

/-- What the code makes of a line. -/
def State.lineResult (s : State) (line : Nat) : LineResult :=
  match regionOf (line * 64) with
  | some (.pad _) => padOutcome (s.poisoned line) (syndromes (s.lineErrs line))
  | _ => lineOutcome (syndromes (s.lineErrs line ++ if s.poisoned line then poisonPattern else []))

/-- The difference a correction at `pos` applies: the syndrome S0, less the poison's own. -/
def State.correction (s : State) (line : Nat) : Nat :=
  (syndromes (s.lineErrs line)).getD 0 0

/-- Put the corrected line in place of the stored one. -/
def applyCorrection (line pos : Nat) (s : State) : State :=
  s.setErr line pos (tabGet (fun _ => 0) s.errs (line * 68 + pos) ^^^ BitVec.ofNat 8 (s.correction line))

/-- Rewrite a line with its data as stored and check bytes to match. -/
def settle (line : Nat) (s : State) : State :=
  if s.lineErrs line = [] then s else
  let bs := (List.range 64).map (s.storedByte line)
  (s.setBytes (line * 64) bs).clearErrs line

/-- Whether corrected lines are written back: always in a scratchpad (R189), else WBACK (R190). -/
def wback (h : Home) (s : State) : Bool :=
  match h with
  | .stack _ => s.isSet HBC_CTRL_WBACK
  | .package _ => s.isSet LPC_CTRL_WBACK
  | _ => true

/-- Set or drop a tier line's poison mark, keeping the stored symbols: the poison pattern leaves or joins the line's errors
(R188). -/
def reMark (line : Nat) (psn : Bool) (s : State) : State :=
  if s.poisoned line = psn then s
  else (forAll poisonPattern (fun e s => s.setErr line e.1 (tabGet (fun _ => 0) s.errs (line * 68 + e.1) ^^^ BitVec.ofNat 8 e.2)) s).setPoison line psn

/-- A demand read of a line: count and report what the code finds, and leave the line as R190 says.  `scrub`
is a patrol read, which always corrects in place and reports an uncorrectable line as 0x5004 (R191).  What the
syndromes show decides, not the mark: a marked line whose errors hide the pattern comes clean or corrected (R187). -/
def readLine (scrub : Bool) (line : Nat) (s : State) : State :=
  let a := line * 64
  let h := homeOf a
  let corrected (pos : Nat) (s : State) : State :=
    let s1 := trackRow h a (lastErr h 1 a (countErr h true s))
    let s2 := if scrub then s1 else event 0x5002 (srcHome h) s1
    if scrub || wback h s then applyCorrection line pos s2 else s2
  if s.lineErrs line = [] then s
  else match s.lineResult line with
    | .clean => reMark line false s
    | .poisoned => if s.poisoned line then s else (settle line s).setPoison line true
    | .corrected pos => corrected pos (reMark line false s)
    | .poisonedCorrected pos => corrected pos (reMark line true s)
    | .uncorrectable =>
        let s1 := lastErr h (if scrub then 3 else 2) a (countErr h false s)
        event (if scrub then 0x5004 else 0x5003) (srcHome h) ((settle line s1).setPoison line true)

/-- The byte delivered from a line: as stored, less the correction. -/
def State.delivered (s : State) (a : Nat) : Byte :=
  let line := a / 64
  if s.lineErrs line = [] then s.byte a
  else
    let fix (pos : Nat) : Byte := if pos = 4 + a % 64 then BitVec.ofNat 8 (s.correction line) else 0
    match s.lineResult line with
    | .corrected pos => s.storedByte line (a % 64) ^^^ fix pos
    | .poisonedCorrected pos => s.storedByte line (a % 64) ^^^ fix pos
    | _ => s.storedByte line (a % 64)

/-- The lines an access of `n` bytes at `a` touches. -/
def linesOf (a n : Nat) : List Nat :=
  if n = 0 then [] else (List.range ((a + n - 1) / 64 + 1 - a / 64)).map (· + a / 64)

/-- Demand reads of every line of a range. -/
def touch (a n : Nat) (s : State) : State := forAll (linesOf a n) (readLine false) s

/-- The bytes delivered from a range, after `touch`. -/
def State.read (s : State) (a n : Nat) : List Byte := (List.range n).map fun i => s.delivered (a + i)

/-- Whether any line of a range is delivered poisoned, after `touch`. -/
def State.readPoison (s : State) (a n : Nat) : Bool := (linesOf a n).any s.poisoned

/-! ### The on-package network (R16, R18, R426) -/

/-- The die a line lies on: C0 to C3, then E0 and E1. -/
def dieOf (a : Nat) : Nat :=
  match homeOf a with
  | .stack k => k / 4
  | .package k => 4 + k / 2
  | .pad t => t / 6
  | .none => 4

/-- The die of wheel `a`: T and S on E0, P and D on E1 (R16). -/
def wheelDie (a : Nat) : Nat := 4 + a / 2
/-- The die of queue `q`: its tile's, its wheel's, or E0 for QMGT (R16, R21). -/
def queueDie (q : Nat) : Nat := if q < 120 then q / 5 / 6 else if q < 124 then wheelDie (q - 120) else 4
/-- The die of set `g`'s loader: its tile's, or E0 for the device set. -/
def setDie (g : Nat) : Nat := if g < 24 then g / 6 else 4
/-- The edge die of link `n` and its router half (R16). -/
def linkDie (n : Nat) : Nat := 4 + n / 12
/-- The edge die of host port `p` (R16). -/
def hostDie (p : Nat) : Nat := 4 + p

/-- The bridges between edge die `4 + e` and compute die `c`: by the edge's row into the die's column, then along it. -/
def edgePath (e c : Nat) : List Nat := (4 + 2 * e + c % 2) :: (if c / 2 = e then [] else [2 + c % 2])

/-- The bridges on the fixed path from die `f` to die `d`, as event 0x500D numbers them (R18): along the row to the destination's
column, then along the column; the path to an edge die crosses the bridges that R18's table counts. -/
def diePath (f d : Nat) : List Nat :=
  if f = d then []
  else if f < 4 ∧ d < 4 then (if f % 2 = d % 2 then [] else [f / 2]) ++ (if f / 2 = d / 2 then [] else [2 + d % 2])
  else if 4 ≤ f ∧ 4 ≤ d then [4, 2, 6]
  else if 4 ≤ f then edgePath (f - 4) d
  else edgePath (d - 4) f

/-- Whether the path from a die to a line crosses a bridge that has failed. -/
def State.cutOff (s : State) (die line : Nat) : Bool := (diePath die (dieOf (line * 64))).any fun b => s.badBridges.testBit b

/-- Bytes as read from local memory, each with its line's poison; the lines have been touched. -/
def State.readMarked (s : State) (a n : Nat) : List (Byte × Bool) :=
  (List.range n).map fun i => (s.delivered (a + i), s.poisoned ((a + i) / 64))

/-- Bytes as a unit on a die reads them: a line behind a failed bridge comes poisoned (R426). -/
def State.readFrom (s : State) (die a n : Nat) : List (Byte × Bool) :=
  (List.range n).map fun i => (s.delivered (a + i), s.poisoned ((a + i) / 64) || s.cutOff die ((a + i) / 64))

/-- Whether any line of a range comes poisoned to a unit on a die. -/
def State.poisonFrom (s : State) (die a n : Nat) : Bool := s.readPoison a n || (linesOf a n).any (s.cutOff die)

/-- A number of `n` bytes, least significant first (R3). -/
def State.readNat (s : State) (a n : Nat) : Nat := leNat ((s.read a n).map (·.toNat))

/-! ### Writing (R188) -/

/-- The read half of a partial write: a demand read whose correction stays in the line (R188). -/
def readForMerge (line : Nat) (s : State) : State :=
  let s1 := readLine false line s
  match s1.lineResult line with
  | .corrected p => applyCorrection line p s1
  | .poisonedCorrected p => applyCorrection line p s1
  | _ => s1

/-- Write the part of a range that lies in one line. A write of the whole line replaces the check bytes and
clears the poison; a partial write reads the line first and leaves its poison. -/
def writeLine (a : Nat) (bs : List Byte) (psn : Bool) (s : State) : State :=
  let line := a / 64
  if bs.length = 64 then ((s.setBytes a bs).clearErrs line).setPoison line psn
  else
    let s1 := settle line (readForMerge line s)
    let s2 := s1.setBytes a bs
    if psn then s2.setPoison line true else s2

/-- Write a byte string from address `a`, line by line; `fuel` bounds the lines. -/
def writeLines : Nat → Nat → List Byte → Bool → State → State
  | 0, _, _, _, s => s
  | k + 1, a, bs, psn, s =>
      let n := 64 - a % 64
      if bs.length ≤ n then (if bs = [] then s else writeLine a bs psn s)
      else writeLines k (a + n) (bs.drop n) psn (writeLine a (bs.take n) psn s)

/-- Write a byte string, poisoned or not. -/
def State.write (s : State) (a : Nat) (bs : List Byte) (psn : Bool := false) : State :=
  writeLines (bs.length / 64 + 2) a bs psn s

/-- Bytes of a number, least significant first. -/
def natBytes (n v : Nat) : List Byte := (leBytes n v).map (BitVec.ofNat 8)

end Sys2Proof.Machine
end

