-- ==== Sys2Proof/Machine/Flags.lean ====
section
/-! DEFINITION. Flags, waits, predicates and overflow records: every condition a queue computes with
(R24 to R26, R56 to R59, R120, R124 to R127, R133, R370). -/

namespace Sys2Proof.Machine

/-! ### Waking a tile (R26) -/

/-- The STATE code of a gating phase (R27). -/
def GatePhase.code : GatePhase → Nat
  | .running => 0
  | .clockGated => 1
  | .entering => 1
  | .isolated => 1
  | .powerGated => 2
  | .waking => 3

def setPhase (t : Nat) (ph : GatePhase) (s : State) : State :=
  (s.setGate t { s.gate t with phase := ph, pgEn := none }).set (TIL_GATE_STATE t) ph.code

/-- A wake event reaches tile `t`: a gated tile starts waking; after isolation entry completes first. -/
def wakeTile (t : Nat) (s : State) : State :=
  match (s.gate t).phase with
  | .running => s
  | .waking => s
  | .isolated => s.setGate t { s.gate t with wakeAfter := true }
  | .clockGated => setPhase t .waking s
  | .entering => setPhase t .waking s
  | .powerGated => setPhase t .waking s

/-- Wake the tile of a set; the device set has none. -/
def wakeSet (g : Nat) (s : State) : State := if g < 24 then wakeTile g s else s

/-- The queues of a set, by their numbers over all sets. -/
def setQueues (g : Nat) : List Nat := (List.range 5).map (· + g * 5)

/-- Whether every queue of a tile is in one of some states. -/
def State.queuesIn (s : State) (t : Nat) (sts : List Nat) : Bool := (setQueues t).all fun q => sts.contains (s.qstate q)

/-- The power-gating timer of a clock-gated tile starts as its last queue comes to rest, and takes PG_EN as it stands (R24,
R27). -/
def startGateTimer (t : Nat) (s : State) : State :=
  if (s.gate t).phase = .clockGated ∧ (s.gate t).pgEn = none ∧ s.queuesIn t [qIdle, qParked, qFrozen] then
    s.setGate t { s.gate t with pgEn := some (s.isSet (TIL_GATE_PG_EN t)) }
  else s

/-- A tile's queue leaves WAITING while its tile is clock-gated: the timer may start. -/
def restTile (q : Nat) (s : State) : State := if q < 120 then startGateTimer (q / 5) s else s

/-- Cycles a level takes to rise or fall by `v` at RAMP, rounded up (R69, R83). -/
def rampCycles (ramp v : Nat) : Nat := (v * ramp * 1024 + 1022) / 1023

/-- The ballast level falls to 0 at the end of its HOLD and its ramp, whose cycles count (R82, R83). -/
def rampDown (t m : Nat) (s : State) : State :=
  let e := s.mxe (t * 2 + m)
  let v := s.get (MXE_STAT_LEVEL t m)
  let s1 := if v = 0 ∨ e.warm then s else grind t m (e.hold * 16 + rampCycles e.ramp v) s
  ((s1.set (MXE_STAT_LEVEL t m) 0).set (MXE_STAT_ARRAY t m) 0).setMxe (t * 2 + m) { s1.mxe (t * 2 + m) with warm := false }

/-- Lose what power gating does not retain: the stationary tiles, and the arrays' level, which rises from 0 after a wake
(R25, R83). -/
def loseArrays (t : Nat) (s : State) : State :=
  forAll [0, 1] (fun m s =>
    let s1 := rampDown t m s
    (s1.set (MXE_STAT_STV t m) 0).setMxe (t * 2 + m) { s1.mxe (t * 2 + m) with tile := [], tileScale := [], tilePoison := false }) s

/-- Tile `t` runs: a pre-wake that waited for it raises the level from now on (R26, R138). -/
def runTile (t : Nat) (s : State) : State :=
  forAll [0, 1] (fun m s =>
    let e := s.mxe (t * 2 + m)
    if e.prewake ∧ e.riseAt = none then s.setMxe (t * 2 + m) { e with riseAt := some s.now } else s) (setPhase t .running s)

/-- An access from outside reaches tile `t`'s scratchpad, flags or registers.  The network interface holds it until the tile
has woken: a gated tile wakes first (after isolation its entry completes before), and what follows acts on a running
tile (R26; log entry 19). -/
def accessTile (t : Nat) (s : State) : State :=
  match (s.gate t).phase with
  | .running => s
  | .isolated => let s1 := runTile t (loseArrays t s); s1.setGate t { s1.gate t with wakeAfter := false }
  | .clockGated => runTile t s
  | .entering => runTile t s
  | .powerGated => runTile t s
  | .waking => runTile t s

/-- An access to a flag of a set; the device set is never gated. -/
def accessSet (g : Nat) (s : State) : State := if g < 24 then accessTile g s else s

/-- An access to a range of local memory: the tile whose scratchpad holds it is awake first. -/
def accessRange (a n : Nat) (s : State) : State :=
  match padTile a with
  | some t => if n = 0 then s else accessTile t s
  | none => s

/-- Whether a queue can act: a privileged queue always, a tile queue while its tile runs. -/
def State.awake (s : State) (q : Nat) : Bool := decide (120 ≤ q) || decide ((s.gate (q / 5)).phase = .running)

/-! ### Flags (R124 to R127) -/

def State.flag (s : State) (g f : Nat) : Nat := if f = 0 then 0 else s.get (TIL_FLAG_VALUE g f)

/-- The target of wait value `v` in pass `n` (R125). -/
def State.target (s : State) (g f v n : Nat) : Nat := (v + n * s.get (TIL_FPER_PER g f)) % 65536

/-- R125's test: the flag is less than 32,768 counts past the target. -/
def targetMet (flag target : Nat) : Bool := decide ((flag + 65536 - target) % 65536 < 32768)

def State.waitMet (s : State) (g f v n : Nat) : Bool := targetMet (s.flag g f) (s.target g f v n)

/-- Fire every armed watch of flag `f` of set `g` whose condition holds, once (R370).  An armed watch is not
at its reset value, so it stands in the register file. -/
def fireWatches (g f : Nat) (s : State) : State :=
  forAll (s.regs.filter fun e => decide (aHST_FWATCH 0 0 ≤ e.1) && decide (e.1 < aHST_FWATCH 2 0)
      && decide ((e.1 - aHST_FWATCH 0 0) % 0x10000 < 8 * 1984)) (fun e s =>
    let p := (e.1 - aHST_FWATCH 0 0) / 0x10000
    let w := (e.1 - aHST_FWATCH p 0) / 8
    let v := e.2.toNat
    if getBits v 63 1 = 1 ∧ getBits v 57 5 = g ∧ getBits v 48 9 = f ∧ targetMet (s.flag g f) (getBits v 0 16) then
      raiseVector p (64 + w) (s.set (HST_FWATCH_ARM p w) 0)
    else s) s

/-- The WAIT_FLAG and WAIT_VALUE of a command word (R13). -/
def hdrWaitFlag (w : CmdBits) : Nat := (w.extractLsb' 16 9).toNat
def hdrWaitValue (w : CmdBits) : Nat := (w.extractLsb' 25 16).toNat

/-- The command at the head of a queue: the oldest one a thaw runs again, else the one at PC (R148). -/
def State.headCmd (s : State) (q : Nat) : Nat × Nat × CmdBits :=
  match (s.que q).issued.find? fun e => decide (e.status = .rerun) with
  | some e => (e.idx, e.pass, e.word)
  | none =>
      let pc := s.get (QUE_STAT_PC q)
      (pc, s.get (QUE_PASS_PASS q), tabGet (fun _ => 0) s.imem (q * 8192 + pc))

/-- What follows a change of flag `f` of set `g`: a waiting queue whose condition it meets wakes its tile, and
the flag watches are tested. -/
def flagChanged (g f : Nat) (s : State) : State :=
  let wakes := (setQueues g).any fun q =>
    s.qstate q == qWaiting && s.get (QUE_STAT_WHY q) == 0 && s.get (QUE_STAT_WFLAG q) == f &&
      s.waitMet g f (hdrWaitValue (s.headCmd q).2.2) (s.headCmd q).2.1
  fireWatches g f (if wakes then wakeSet g s else s)

/-- Add to a flag; flag 0 discards it (R124, R126). -/
def addFlag (g f v : Nat) (s : State) : State :=
  if f = 0 then s else flagChanged g f (s.set (TIL_FLAG_VALUE g f) (s.flag g f + v))

/-! ### Predicates (R120, R133) -/

/-- Whether a command executes: always, or its predicate XOR the invert bit. -/
def State.executes (s : State) (g : Nat) (w : CmdBits) : Bool :=
  w.getLsbD 14 || ((s.rd (aTIL_PRED g)).getLsbD (w.extractLsb' 8 6).toNat ^^ w.getLsbD 15)

/-! ### Whether a set's queues run (R127, R151) -/

def queueRuns (q : Nat) (s : State) : Bool := s.qstate q == qRunning || s.qstate q == qWaiting
def setRuns (g : Nat) (s : State) : Bool := (setQueues g).any fun q => queueRuns q s

/-! ### Overflow records (R56 to R59) -/

/-- Add a tally's counts, magnitude and NF to a record: what a remote controller returns (R57). -/
def addCounts (b : Nat) (t : Tally) (s : State) : State :=
  let s1 := ((s.incSat (TIL_OVF_W0_SAT_COUNT b) t.sat).incSat (TIL_OVF_W1_NAN_COUNT b) t.nan)
  let s2 := (s1.incSat (TIL_OVF_W2_INF_COUNT b) t.inf).incSat (TIL_OVF_W3_UNF_COUNT b) t.unf
  let s3 := s2.set (TIL_OVF_W4_MAX_ABS b) (max (s2.get (TIL_OVF_W4_MAX_ABS b)) t.maxAbs)
  if t.nf then s3.set (TIL_OVF_W7_NF b) 1 else s3

/-- Apply a command's tally to the record at base `b`, with its first event. -/
def applyTally (b queue cmd step : Nat) (t : Tally) (s : State) : State :=
  let s1 := addCounts b t s
  match t.first with
  | none => s1
  | some idx =>
      if s.isSet (TIL_OVF_W7_FIRSTV b) then s1
      else
        let s2 := (s1.set (TIL_OVF_W5_FIRST_QUEUE b) queue).set (TIL_OVF_W5_FIRST_CMD b) cmd
        let s3 := (s2.set (TIL_OVF_W5_FIRST_STEP b) step).set (TIL_OVF_W6_FIRST_ELEM b) idx
        s3.set (TIL_OVF_W7_FIRSTV b) 1

/-- Clear every field of a record but AUTOCLR (R57). -/
def clearOvf (b : Nat) (s : State) : State :=
  let auto := s.get (TIL_OVF_W7_AUTOCLR b)
  (s.resetRegs b 0x20).set (TIL_OVF_W7_AUTOCLR b) auto

/-- The record bases of a set: a tile's 64, or the four wheels' 16 each. -/
def setRecords (g : Nat) : List Nat :=
  if g < 24 then (List.range 64).map (tileOvfBase g)
  else (List.range 64).map fun k => wheelOvfBase (k / 16) (k % 16)

/-- The clear of a STEPEND: every record of the set with AUTOCLR (R58, R139). -/
def autoClear (g : Nat) (s : State) : State :=
  forAll (setRecords g) (fun b s => if s.isSet (TIL_OVF_W7_AUTOCLR b) then clearOvf b s else s) s

/-- The record CVT.ORI of a tile's conversion names. -/
def tileRecord (t : Nat) (c : Cvt) : Nat := tileOvfBase t c.ori

end Sys2Proof.Machine
end

