-- ==== Sys2Proof/Machine/Cell.lean ====
section
/-! DEFINITION. Bivin cells: fields, construction and CRC (R257 to R259). -/

namespace Sys2Proof.Machine

/-- Cell bits `[lo + w - 1 : lo]`. -/
def cellGet (c : CellBits) (lo w : Nat) : Nat := getBits c.toNat lo w
/-- The cell with those bits replaced. -/
def cellSet (c : CellBits) (lo w v : Nat) : CellBits := BitVec.ofNat 640 (putBits c.toNat lo w v)

def cLseq (c : CellBits) : Nat := cellGet c 0 12
def cAckseq (c : CellBits) : Nat := cellGet c 12 12
def cOnoff (c : CellBits) : Nat := cellGet c 24 12
def cCrc (c : CellBits) : Nat := cellGet c 36 16
def cType (c : CellBits) : Nat := cellGet c 64 4
def cVc (c : CellBits) : Nat := cellGet c 68 4
def cShade (c : CellBits) : Nat := cellGet c 72 1
def cDst (c : CellBits) : Nat := cellGet c 73 16
def cSrc (c : CellBits) : Nat := cellGet c 89 16
def cMsg (c : CellBits) : Nat := cellGet c 105 10
def cIdx (c : CellBits) : Nat := cellGet c 115 10
def cNf (c : CellBits) : Nat := cellGet c 125 1
def cPsn (c : CellBits) : Nat := cellGet c 126 1
def cCe (c : CellBits) : Nat := cellGet c 127 1

/-- A number of `n` payload bytes from payload byte `i`, least significant first. -/
def payNat (c : CellBits) (i n : Nat) : Nat := cellGet c (128 + 8 * i) (8 * n)
/-- The payload as bytes. -/
def payBytes (c : CellBits) : List Byte := (List.range 64).map fun i => BitVec.ofNat 8 (payNat c i 1)

/-- Bytes 0 to 79 as numbers. -/
def cellBytes (c : CellBits) : List Nat := (List.range 80).map fun i => cellGet c (8 * i) 8

/-- The CRC a cell should carry (R259). -/
def cellCrc (c : CellBits) : Nat := crc16 (cellBytes (cellSet c 36 16 0))
def crcOk (c : CellBits) : Bool := cellCrc c == cCrc c
/-- The cell with its CRC filled in. -/
def sealCell (c : CellBits) : CellBits := cellSet c 36 16 (cellCrc c)

/-- Cell types (R258). -/
abbrev ctIdle : Nat := 0
abbrev ctHello : Nat := 1
abbrev ctTime : Nat := 2
abbrev ctLink : Nat := 3
abbrev ctSegf : Nat := 4
abbrev ctSeg : Nat := 5
abbrev ctGrant : Nat := 6
abbrev ctSignal : Nat := 7
abbrev ctNotice : Nat := 8
abbrev ctRefuse : Nat := 9
abbrev ctFlush : Nat := 10

/-- A payload field: first byte, bytes, value. -/
abbrev PayField := Nat × Nat × Nat

/-- A payload number from its fields. -/
def payload (fs : List PayField) : Nat := fs.foldl (fun v f => v + f.2.2 % 256 ^ f.2.1 * 256 ^ f.1) 0
/-- A payload number from bytes. -/
def payloadOf (bs : List Byte) : Nat := leNat (bs.map (·.toNat))

/-- A routed cell before its envelope, VC and shade are filled in. -/
def mkCell (ctype dst src msg idx pay : Nat) : CellBits :=
  BitVec.ofNat 640 (ctype * 2 ^ 64 + dst % 65536 * 2 ^ 73 + src % 65536 * 2 ^ 89 + msg % 1024 * 2 ^ 105
    + idx % 1024 * 2 ^ 115 + pay % 2 ^ 512 * 2 ^ 128)

/-! ### Classes (R285, R294) -/

abbrev kCtl : Nat := 0
abbrev kCol : Nat := 1
abbrev kReq : Nat := 2
abbrev kRsp : Nat := 3
abbrev kBlk : Nat := 4

/-- A VC's class. -/
def vcClass (v : Nat) : Nat := if v < 2 then kCtl else if v < 4 then kCol else if v < 7 then kReq else if v < 10 then kRsp else kBlk
/-- A class's first escape VC. -/
def escVc (k : Nat) : Nat := if k = kCtl then 0 else if k = kCol then 2 else if k = kReq then 4 else if k = kRsp then 7 else 10
/-- A class's adaptive VC. -/
def adaVc (k : Nat) : Option Nat := if k = kReq then some 6 else if k = kRsp then some 9 else none
/-- A class's VCs in order. -/
def classVcs (k : Nat) : List Nat :=
  if k = kCtl then [0, 1] else if k = kCol then [2, 3] else if k = kReq then [4, 5, 6] else if k = kRsp then [7, 8, 9] else [10, 11]

end Sys2Proof.Machine
end

