-- ==== Sys2Proof/Machine/Access.lean ====
section
/-! DEFINITION. Register writes by their field maps, and who may make them (R8 to R11, R363, R371, R374). -/

namespace Sys2Proof.Machine

/-! ### Access codes and reserved encodings (R8, R10) -/

/-- A field after a write of the register bits `[whi:wlo]` of `v`. -/
def FieldRow.written (f : FieldRow) (old v wlo whi : Nat) : Nat :=
  let lo := max f.lo wlo
  let hi := min f.hi whi
  if hi < lo then getBits old f.lo (f.hi + 1 - f.lo)
  else
    let w := hi + 1 - lo
    let o := getBits old lo w
    let n := getBits v lo w
    let r := match f.acc with
      | .rw => n
      | .w1c => o - (o &&& n)
      | .w1s => o ||| n
      | _ => o
    getBits (putBits old lo w r) f.lo (f.hi + 1 - f.lo)

/-- Whether a value is a reserved encoding of a field. -/
def FieldRow.isBad (f : FieldRow) (v : Nat) : Bool := f.bad.any fun b => decide (b.1 ≤ v) && decide (v ≤ b.2)

/-- Whether a write of the bits `[whi:wlo]` of `v` puts a reserved encoding into a field. -/
def FieldRow.refused (f : FieldRow) (old v wlo whi : Nat) : Bool :=
  f.acc == .rw && decide (max f.lo wlo ≤ min f.hi whi) && f.isBad (f.written old v wlo whi)

/-- The register's value after a write of its bits `[whi:wlo]`; a field given a reserved encoding keeps its
value. -/
def RegRow.written (r : RegRow) (old v wlo whi : Nat) : Nat :=
  r.fields.foldl (fun x f =>
    if f.refused old v wlo whi then x else putBits x f.lo (f.hi + 1 - f.lo) (f.written old v wlo whi)) old

/-- SOURCE of an event about a register: the unit that holds it (R436). -/
def srcReg (a : Nat) : Nat :=
  if 0x01000000 ≤ a ∧ a < 0x02800000 then
    let t := (a - 0x01000000) / 0x100000
    let o := a % 0x100000
    if 0x80000 ≤ o then srcTile t 5 ((o - 0x80000) / 0x10000)
    else if 0x50000 ≤ o then srcTile t 4 0 else if 0x40000 ≤ o then srcTile t 3 0
    else if 0x30000 ≤ o then srcTile t 2 0 else if 0x20000 ≤ o then srcTile t 1 0
    else if 0x10000 ≤ o then srcTile t 0 0 else srcTile t 7 0
  else if 0x1F0000 ≤ a ∧ a < 0x200000 then 0x2004
  else if 0xF00000 ≤ a ∧ a < 0xF40000 then 0x2000 + (a - 0xF00000) / 0x10000
  else if 0xF80000 ≤ a ∧ a < 0x1000000 then 0x2007
  else if 0x100000 ≤ a ∧ a < 0x200000 then srcCore
  else if 0x200000 ≤ a ∧ a < 0x300000 then srcRecorder
  else if 0x300000 ≤ a ∧ a < 0x400000 then srcTime
  else if 0x400000 ≤ a ∧ a < 0x418000 then srcLink ((a - 0x400000) / 0x1000)
  else if 0x420000 ≤ a ∧ a < 0x420800 then srcPort ((a - 0x420000) / 0x100)
  else if 0x420800 ≤ a ∧ a < 0x430000 then srcPort 15
  else if 0x430000 ≤ a ∧ a < 0x500000 then srcRouter
  else if 0x500000 ≤ a ∧ a < 0x540000 then srcWheel ((a - 0x500000) / 0x10000)
  else if 0x3000000 ≤ a ∧ a < 0x3400000 then srcStack (if a < 0x3001000 then 0 else (a - 0x3001000) / 0x40)
  else if 0x3400000 ≤ a ∧ a < 0x3800000 then (if a < 0x3400100 then srcPackage 0 else srcMirror)
  else if 0x3800000 ≤ a ∧ a < 0x3C00000 then srcPower 0
  else if 0x3C80000 ≤ a ∧ a < 0x3CA0000 then srcHost ((a - 0x3C80000) / 0x10000) 0
  else if 0x3D00000 ≤ a ∧ a < 0x3D20000 then srcHost ((a - 0x3D00000) / 0x10000) (a % 0x10000 / 0x40)
  else if 0x3C00000 ≤ a ∧ a < 0x4000000 then srcSecurity
  else srcDevice

/-- Write bits `[whi:wlo]` of the register at key `a`, with one grey event if a field is given a reserved
encoding; nothing lies at an unoccupied key (R11). -/
def writeBits (a v wlo whi : Nat) (s : State) : State :=
  match regRow a with
  | none => s
  | some r =>
      let old := (s.rd a).toNat
      let s1 := s.wr a (BitVec.ofNat 64 (r.written old v wlo whi))
      if r.fields.any (fun f => f.refused old v wlo whi) then eventD r.grey (srcReg a) a s1 else s1

/-- Whether a write of bits `[whi:wlo]` puts a reserved encoding into a field of the register at key `a`. -/
def State.refuses (s : State) (a v wlo whi : Nat) : Bool :=
  (regRow a).any fun r => r.fields.any fun f => f.refused (s.rd a).toNat v wlo whi

/-- A field of a written register would hold a reserved encoding for another's sake: it keeps its value, and the write records
one grey event in all (R10). -/
def keepReserved (f : FRef) (code src v wlo whi : Nat) (old s : State) : State :=
  let s1 := s.set f (old.get f)
  if old.refuses f.addr v wlo whi then s1 else eventD code src f.addr s1

/-- Write a whole register. -/
def writeReg (a v : Nat) (s : State) : State := writeBits a v 0 63 s

/-! ### Who may write (R363, R371, R374) -/

/-- An ownership violation: the write is discarded, the port's writes freeze, and the first one is recorded. -/
def violation (p bar off : Nat) (s : State) : State :=
  let s1 := s.set (HST_STAT_FROZEN p) 1
  let s2 := if s.isSet (HST_VIOLREC_VALID p) then s1
    else (((s1.set (HST_VIOLREC_VALID p) 1).set (HST_VIOLREC_COUNT p) 1).set (HST_VIOLREC_BAR p) bar).set
      (HST_VIOLREC_OFFSET p) off
  let s3 := s2.setPort p { s2.port p with violRead := false }
  raiseBoth 34 (event 0xA002 (srcHost p 0) s3)

/-- Whether port `p` owns the device. -/
def State.owns (s : State) (p : Nat) : Bool := s.get HST_OWN_OWNER == p + 1

/-- Whether a host write is let through: the device is ready, the port is not frozen, and, where the field is
owner-only, the port owns the device. -/
def State.mayWrite (s : State) (p : Nat) (ownerOnly : Bool) : Bool :=
  s.ready && !s.isSet (HST_STAT_FROZEN p) && (!ownerOnly || s.owns p)

/-- A host memory write with its effect: before readiness it is lost, on a frozen port it is discarded and
counted, and one the port may not make is a violation. -/
def hostWrite (p : Nat) (ownerOnly : Bool) (bar off : Nat) (eff : State → State) (s : State) : State :=
  if !s.ready then s
  else if s.isSet (HST_STAT_FROZEN p) then s.incSat (HST_VIOLREC_COUNT p) 1
  else if ownerOnly && !s.owns p then violation p bar off s
  else eff s

/-- Whether an offset of a tile's window lies in its TIL, MXE, ELE, FLM or QUE blocks (R32). -/
def tileBlocks (o : Nat) : Bool := decide (o < 0x60000) || (decide (0x80000 ≤ o) && decide (o < 0xD0000))

/-- A BAR0 access to a tile's TIL, MXE, ELE, FLM or QUE block, other than TIL_GATE, finds the tile awake
(R26). -/
def wakeByAccess (a : Nat) (s : State) : State :=
  if 0x01000000 ≤ a ∧ a < 0x02800000 ∧ a % 0x100000 ≠ 0x10 ∧ tileBlocks (a % 0x100000) then accessTile ((a - 0x01000000) / 0x100000) s else s

/-- An owner-only write of a BAR0 register. -/
def ownerWrite (p a : Nat) (eff : State → State) (s : State) : State :=
  hostWrite p true 0 a (fun s => eff (wakeByAccess a s)) s

/-- What a register read returns to port `p`. -/
def readReply (p : Nat) (v : Word) (s : State) : State := s.emit (.completion p v false)

end Sys2Proof.Machine
end

