-- ==== Sys2Proof/Machine/Link.lean ====
section
/-! DEFINITION. The link layer: sending and receiving cells, retry, on/off flow control, hello, the plan, link
and port states (R246 to R282). -/

namespace Sys2Proof.Machine

def State.setFab (s : State) (f : FabSt) : State := { s with fab := f }

/-- LNK_STAT.STATE's values (R281). -/
abbrev lDown : Nat := 0
abbrev lTraining : Nat := 1
abbrev lHello : Nat := 2
abbrev lParked : Nat := 3
abbrev lAbsent : Nat := 4
abbrev lActive : Nat := 5
abbrev lFailed : Nat := 6

def State.lstate (s : State) (n : Nat) : Nat := s.get (LNK_STAT_STATE n)
/-- The logical port of a link; 15 if unassigned. -/
def State.lport (s : State) (n : Nat) : Nat := s.get (LNK_CFG_PORT n)
/-- Whether a link is in the Ethernet personality (R306). -/
def State.isEth (s : State) (n : Nat) : Bool := decide (s.lport n < 8) && s.isSet (PRT_CFG_MODE (s.lport n))
/-- Whether a link's lanes run cells: HELLO, PARKED or ACTIVE, and not in electrical idle. -/
def State.lanesUp (s : State) (n : Nat) : Bool :=
  (s.lstate n == lHello || s.lstate n == lParked || s.lstate n == lActive) && !s.isSet (LNK_STAT_LP n)
def State.devId (s : State) : Nat := s.get GLB_DEVID_DEVID

/-- All links in order. -/
def allLinks : List Nat := List.range 24
/-- The ACTIVE links of a port in ascending order (R254). -/
def State.activeLinks (s : State) (p : Nat) : List Nat := allLinks.filter fun n => s.lport n == p && s.lstate n == lActive

/-! ### Port states (R255) -/

/-- Recompute a port's PRT_STAT, reporting the degraded state entered or left. -/
def updatePort (p : Nat) (s : State) : State :=
  let ls := s.activeLinks p
  let k := ls.length
  let new := if k = 0 then 0 else if k < s.get (PRT_CFG_NOMLINKS p) then 1 else 2
  let old := s.get (PRT_STAT_STATE p)
  let s1 := ((s.set (PRT_STAT_STATE p) new).set (PRT_STAT_ACTIVE p) k).set (PRT_STAT_LINKS p) (ls.foldl (fun m n => m + 2 ^ n) 0)
  let s2 := if old ≠ 0 ∧ new = 0 then s1.setFab { s1.fab with litAt := tabPut (fun _ => none) s1.fab.litAt p (some s1.now) } else s1
  if (new = 1 ∧ old ≠ 1) ∨ (old = 1 ∧ new ≠ 1) then event 0x600F (srcPort p) s2 else s2
def updatePorts (s : State) : State := forAll (List.range 8) updatePort s

/-! ### Input buffers and the ONOFF bits (R266) -/

/-- The ONOFF bit of VC `v` after its free space changed. -/
def onoff (n v : Nat) (s : State) : State :=
  let free := s.get (LNK_VCFREE_FREE n v)
  let l := s.link n
  if free ≤ s.get (LNK_VCTHR_XOFF n) * 1024 then s.setLink n { l with rxOn := putBits l.rxOn v 1 0 }
  else if s.get (LNK_VCTHR_XON n) * 1024 ≤ free then s.setLink n { l with rxOn := putBits l.rxOn v 1 1 } else s

/-- A forwarded cell takes its input buffer's space, and gives it back when it leaves. -/
def takeRoom (inp : Option (Nat × Nat)) (s : State) : State :=
  match inp with
  | some (n, v) => onoff n v (s.set (LNK_VCFREE_FREE n v) (s.get (LNK_VCFREE_FREE n v) - 80))
  | none => s
def giveRoom (inp : Option (Nat × Nat)) (s : State) : State :=
  match inp with
  | some (n, v) => onoff n v (s.set (LNK_VCFREE_FREE n v) (min 65536 (s.get (LNK_VCFREE_FREE n v) + 80)))
  | none => s

/-- Count a discarded routed cell under its shade; COL cells have none (R302, R303). -/
def countDrop (c : CellBits) (s : State) : State := if vcClass (cVc c) = kCol then s else s.inc (RTE_SHDROP_CNT (cShade c)) 1

/-! ### Sending (R257, R258, R261) -/

/-- A cell with its envelope: sequence, acknowledgment, ONOFF bits and CRC. -/
def State.enveloped (s : State) (n seq : Nat) (c : CellBits) : CellBits :=
  let l := s.link n
  let c1 := cellSet (cellSet (cellSet c 0 12 seq) 12 12 (l.expect + 4095)) 24 12 l.rxOn
  sealCell (cellSet c1 52 12 0)

/-- Send a link-local cell: VC 0, DST 0xFFFF, no number of its own. -/
def sendLocal (n ctype pay : Nat) (s : State) : State :=
  s.emit (.cell n (s.enveloped n ((s.link n).txSeq + 1) (mkCell ctype 0xFFFF s.devId 0 0 pay)))

/-- Send a sequenced cell and keep its copy. -/
def sendSequenced (n : Nat) (c : CellBits) (s : State) : State :=
  let l := s.link n
  let seq := (l.txSeq + 1) % 4096
  let e := s.enveloped n seq c
  ((s.setLink n { l with txSeq := seq, copies := l.copies ++ [e] }).inc (LNK_TXCELLS_CNT n) 1).emit (.cell n e)

/-- 31 steps' worth of IDLE payload are one LFSR run: `k` bits of x³¹ + x²⁸ + 1, first bit lowest. -/
def idleBits : Nat → BitVec 31 → Nat × BitVec 31
  | 0, s => (0, s)
  | k + 1, s =>
      let b := s.getLsbD 30 ^^ s.getLsbD 27
      let r := idleBits k (s.shiftLeft 1 ||| (BitVec.ofBool b).setWidth 31)
      (b.toNat + 2 * r.1, r.2)

/-- Send an IDLE cell (R250): a slot that no CTL cell takes (R286). -/
def sendIdle (n : Nat) (s : State) : State :=
  let l := s.link n
  let r := idleBits 512 l.lfsr
  sendLocal n ctIdle r.1 (s.setLink n { l with lfsr := r.2, ctlGap := min 15 (l.ctlGap + 1) })

/-- Send a NAK for E, at most one per E within 500 ns (R261). -/
def sendNak (n : Nat) (s : State) : State :=
  let l := s.link n
  let again := match l.lastNak with
    | some (e, t) => e == l.expect && decide (s.since t < 2000)
    | none => false
  if again then s else sendLocal n ctLink l.expect (s.setLink n { l with lastNak := some (l.expect, s.now) })

/-! ### Hello (R270 to R272) -/

/-- The highest version both ends offer; 0 for none. -/
def State.version (s : State) (n : Nat) : Nat :=
  let both := s.get PRT_PROTO_PVSET &&& s.get (LNK_NBRVER_PVSET n)
  (List.range 16).foldl (fun v i => if both.testBit i then i + 1 else v) 0

/-- The first of checks 1 to 10 of R276 that fails, as its REASON; 0 if all pass.  A switch's checks from the
sixth on pass, and an Ethernet link needs a UDP port (R310, R314). -/
def State.planReason (s : State) (n : Nat) : Nat :=
  let st := s.get (LNK_PLAN_STATE n)
  let ser := s.get (LNK_PLANSER_SERIAL n)
  if s.isSet (LNK_CTRL_PARK n) then 10
  else if s.isSet (LNK_CTRL_LPM n) then 11
  else if st = 0 then 1
  else if st = 2 then 2
  else if st = 3 then 3
  else if s.isEth n && s.get RTE_ETHCFG_UDPPORT == 0 then 5
  else if (s.link n).switch then 0
  else if s.version n = 0 then 4
  else if !s.isSet GLB_COORD_COORDV || !(s.get (LNK_NBR_FLAGS n)).testBit 0 || decide (8 ≤ s.lport n) then 5
  else if s.get (LNK_NBR_COORD n) ≠ s.get (LNK_PLAN_EXPCOORD n) ∨ (ser ≠ 0 ∧ s.get (LNK_NBRSER_SERIAL n) ≠ ser) then 6
  else if s.get (LNK_NBR_LPORT n) ≠ s.get (LNK_PLAN_EXPLPORT n) then 7
  else if s.get (LNK_NBR_LINK n) ≠ s.get (LNK_PLAN_EXPLINK n) then 8
  else 0

/-- The MATCH a link sends: checks 1 to 10 pass on a neighbour it has heard. -/
def State.sendsMatch (s : State) (n : Nat) : Bool := ((s.link n).heard || (s.link n).switch) && s.planReason n == 0

/-- The HELLO payload of a link (R270). -/
def State.helloPayload (s : State) (n : Nat) : Nat :=
  let l := s.link n
  let p := s.lport n
  let long := decide (p < 8) && s.isSet (PRT_CFG_REACH p)
  let flags := s.get GLB_COORD_COORDV + 2 * (s.sendsMatch n).toNat + 4 * s.get (LNK_CTRL_LPM n) + 8 * long.toNat
  payload [(0, 8, (s.rd aGLB_SERIAL).toNat), (8, 2, s.devId), (10, 1, n), (11, 1, p), (12, 3, s.get GLB_COORD_COORD),
    (15, 1, flags), (16, 4, (s.rd aGLB_FWVER).toNat), (20, 2, s.get PRT_PROTO_PVSET), (22, 1, s.version n),
    (24, 2, s.get GLB_ROLEGEN_RGEN), (26, 2, l.hseq), (28, 8, if l.heard then s.get (LNK_NBRSER_SERIAL n) else 0),
    (36, 1, if l.heard then s.get (LNK_NBR_LINK n) else 0xFF)]

/-- Store a neighbour's hello in LNK_NBR, LNK_NBRSER and LNK_NBRVER. `f i n` reads `n` bytes from byte `i`. -/
def storeHello (n : Nat) (f : Nat → Nat → Nat) (s : State) : State :=
  let nbr := f 15 1 % 16 + f 10 1 % 32 * 2 ^ 11 + f 11 1 % 16 * 2 ^ 16 + f 22 1 % 16 * 2 ^ 20 + f 12 3 * 2 ^ 24 + f 8 2 * 2 ^ 48
  let s1 := (s.wr (aLNK_NBR n) (BitVec.ofNat 64 nbr)).wr (aLNK_NBRSER n) (BitVec.ofNat 64 (f 0 8))
  s1.wr (aLNK_NBRVER n) (BitVec.ofNat 64 (f 16 4 + f 20 2 * 2 ^ 32 + f 24 2 * 2 ^ 48))

/-! ### Link states (R256, R273 to R275) -/

/-- Change a link's STATE; REASON reads 0 outside PARKED and FCAUSE outside FAILED. -/
def setLinkState (n st : Nat) (s : State) : State :=
  let s1 := s.set (LNK_STAT_STATE n) st
  let s2 := if st = lParked then s1 else (s1.set (LNK_STAT_REASON n) 0).set (LNK_STAT_LP n) 0
  let s3 := if st = lFailed then s2 else s2.set (LNK_STAT_FCAUSE n) 0
  updatePorts s3

/-- Whether a queued cell belongs to a segment whose first cell is still queued too, or is a single cell. -/
def unbegun (q : List QCell) (c : CellBits) : Bool :=
  cType c != ctSeg || q.any fun x => cType x.cell == ctSegf && cSrc x.cell == cSrc c && cDst x.cell == cDst c
    && cMsg x.cell == cMsg c && vcClass (cVc x.cell) == vcClass (cVc c)

/-- Drop a queued cell with its link (R256). -/
def dropQueued (n : Nat) (q : QCell) (s : State) : State := giveRoom q.inp (countDrop q.cell (s.inc (LNK_DROPCNT_CNT n) 1))

/-- The cells queued for output on a link, those in frame assembly first. -/
def LinkSt.queued (l : LinkSt) : List QCell := l.frames.flatMap (·.cells) ++ l.queue

/-- What the router had queued on a link that leaves ACTIVE: segments not begun are held to be routed anew over
the port's other links; the rest of a begun segment, and wheel cells, are dropped (R254, R256). -/
def clearQueue (n : Nat) (s : State) : State :=
  let l := s.link n
  let all := l.queued
  let keep := all.filter fun q => unbegun all q.cell && vcClass (cVc q.cell) != kCol
  let lost := all.filter fun q => !(unbegun all q.cell && vcClass (cVc q.cell) != kCol)
  let s1 := forAll lost (dropQueued n) (s.setLink n { l with queue := [], frames := [] })
  let onLink (w : Path) : Bool := match w.way with
    | some (m, _) => m == n
    | none => false
  s1.setFab { s1.fab with
    adapt := s1.fab.adapt ++ keep,
    paths := s1.fab.paths.map fun w => if onLink w then { w with way := none } else w }

/-- Discard the unacknowledged copies of a link going to DOWN, TRAINING or FAILED (R256). -/
def dropCopies (n : Nat) (s : State) : State :=
  let l := s.link n
  forAll l.copies (fun c s => countDrop c (s.inc (LNK_DROPCNT_CNT n) 1)) (s.setLink n { l with copies := [] })

/-- Leave ACTIVE, if the link is there, for a state. -/
def leaveActive (n st : Nat) (s : State) : State :=
  let wasActive := s.lstate n == lActive
  let s1 := if wasActive then clearQueue n s else s
  let s2 := if st = lParked then s1 else dropCopies n s1
  setLinkState n st s2

/-- A six-bit field as a signed number. -/
def signed6 (x : Nat) : Int := if x < 32 then x else (x : Int) - 64

/-- What lane `k` of a link transmits with from its next TRAINING (R247, R248). -/
def State.laneSetting (s : State) (n k : Nat) : TxSetting :=
  if !s.isSet (LNK_CFG_MEDIA n) then .copper
  else if !s.isSet (LNK_HOSTEQ_VALID n k) then .hostDefault
  else .host (signed6 (s.get (LNK_HOSTEQ_CM2 n k))) (signed6 (s.get (LNK_HOSTEQ_CM1 n k))) (signed6 (s.get (LNK_HOSTEQ_C1 n k)))

/-- A fresh receiver and transmitter at TRAINING: all bits XON, all buffers empty, numbers restarted, the lanes' transmit
settings taken. -/
def startTraining (n : Nat) (s : State) : State :=
  let s1 := leaveActive n lTraining s
  let fresh (q : QCell) : QCell := match q.inp with
    | some (m, _) => if m = n then { q with inp := none } else q
    | none => q
  let l := s1.link n
  let s2 := s1.setLink n { ({} : LinkSt) with
    hseq := l.hseq, failTimes := l.failTimes, lfsr := l.lfsr, tx := (List.range 4).map (s1.laneSetting n) }
  let s3 := forAll allLinks (fun m s =>
    let k := s.link m
    if k.queue.any (fun q => q.inp.isSome) then s.setLink m { k with queue := k.queue.map fresh } else s) s2
  let s4 := s3.setFab { s3.fab with adapt := s3.fab.adapt.map fresh }
  let s5 := forAll (List.range 12) (fun v s => s.set (LNK_VCFREE_FREE n v) 65536) s4
  ((s5.set (LNK_STAT_LOCK n) 0).set (LNK_STAT_NPV n) 0)

/-- A link becomes FAILED with its cause; the fourth failure within 60 s holds it (R273, R274). -/
def failLink (n cause : Nat) (s : State) : State :=
  let l := s.link n
  let recent := s.recentFails l ++ [s.now]
  let s1 := leaveActive n lFailed (s.setLink n { l with failTimes := recent })
  let s2 := (s1.set (LNK_STAT_FLAPS n) (min 7 recent.length)).set (LNK_STAT_LOCK n) 0
  let s3 := eventD 0x6002 (srcLink n) cause (s2.set (LNK_STAT_FCAUSE n) cause)
  if 4 ≤ recent.length then event 0x600B (srcLink n) (s3.set (LNK_STAT_FCAUSE n) 4) else s3

/-- The event of a plan mismatch (R276). -/
def mismatchEvent (n r : Nat) (s : State) : State :=
  let d := r + s.get (LNK_NBR_LINK n) * 2 ^ 8 + s.get (LNK_NBRSER_SERIAL n) % 2 ^ 32 * 2 ^ 32
  if !s.isSet PRT_PLANCTL_PLANV then s
  else if r = 4 then eventD 0x6005 (srcLink n) d s
  else if r = 8 then eventD 0x6004 (srcLink n) d s
  else if r = 1 ∨ r = 2 ∨ r = 6 ∨ r = 7 then eventD 0x6003 (srcLink n) d s else s

/-- Evaluate a link's plan: ACTIVE if every check passes, else PARKED with the first failing reason (R276).  A PARKED link with
LPM = 1 whose neighbour asks for low power too turns its lanes to electrical idle, whatever its reason (R275, log entry 60). -/
def evaluate (n : Nat) (s : State) : State :=
  let st := s.lstate n
  let ready := (st == lHello && ((s.link n).shaken || s.isEth n)) || st == lParked || st == lActive
  if !ready then s else
  let r10 := s.planReason n
  let matched := (s.get (LNK_NBR_FLAGS n)).testBit 1 || (s.link n).switch
  let r := if r10 ≠ 0 then r10 else if matched then 0 else 9
  let v := if s.version n = s.get (LNK_NBR_NPV n) then s.version n else 0
  let s0 := s.set (LNK_STAT_NPV n) v
  if r = 0 then
    if st = lActive then s0 else event 0x6001 (srcLink n) (setLinkState n lActive s0)
  else
    let news := st ≠ lParked ∨ s.get (LNK_STAT_REASON n) ≠ r
    let s1 := (leaveActive n lParked s0).set (LNK_STAT_REASON n) r
    let idle := s1.isSet (LNK_CTRL_LPM n) && (s1.get (LNK_NBR_FLAGS n)).testBit 2
    let s2 := if idle then s1.set (LNK_STAT_LP n) 1 else s1
    if news then mismatchEvent n r s2 else s2

/-- Re-evaluate every link. -/
def evaluateAll (s : State) : State := forAll allLinks evaluate s

/-- What a write of LNK_CTRL does (R273, R275, R279). -/
def lnkCtrl (n v : Nat) (s : State) : State :=
  let wasLpm := s.isSet (LNK_CTRL_LPM n)
  let s1 := writeReg (aLNK_CTRL n) v s
  let s2 := if v.testBit 7 then forAll [aLNK_TXCELLS n, aLNK_RXCELLS n, aLNK_REPLAY n, aLNK_CRCERR n, aLNK_FECCW n,
    aLNK_FECSYM n, aLNK_FECUCW n, aLNK_OVRCNT n, aLNK_DROPCNT n, aLNK_TESTERR n] (fun a s => s.wr a 0) s1 else s1
  let st := s2.lstate n
  if !s2.isSet (LNK_CTRL_EN n) then
    let s3 := leaveActive n lDown s2
    (s3.set (LNK_STAT_LP n) (s2.get (LNK_CTRL_LPM n))).set (LNK_STAT_LOCK n) 0
  else if st = lDown then startTraining n s2
  else if v.testBit 4 ∧ (st = lParked ∨ st = lActive ∨ st = lAbsent ∨ st = lFailed) then startTraining n s2
  else if wasLpm ∧ !s2.isSet (LNK_CTRL_LPM n) ∧ st = lParked then startTraining n s2
  else evaluate n s2

/-! ### Receiving (R260, R261, R263, R268) -/

/-- Discard a received cell without using it, and ask for it again. -/
def discardCell (n : Nat) (s : State) : State := sendNak n (s.inc (LNK_CRCERR_CNT n) 1)

/-- Free the copies up to an acknowledgment, if it lies between the last applied and the last sent. -/
def applyAck (n ack : Nat) (s : State) : State :=
  let l := s.link n
  let d := (ack + 4096 - l.ackd) % 4096
  if d ≤ (l.txSeq + 4096 - l.ackd) % 4096 ∧ 0 < d then
    s.setLink n { l with ackd := ack, copies := l.copies.drop d, sameReplays := 0 }
  else s

/-- Apply a cell's envelope. -/
def applyEnvelope (n : Nat) (c : CellBits) (s : State) : State :=
  let s1 := applyAck n (cAckseq c) s
  s1.setLink n { s1.link n with txOn := cOnoff c }

/-- Receive a cell: the state after its link-level handling, and whether it is accepted. -/
def receive (n : Nat) (c : CellBits) (s : State) : State × Bool :=
  if !s.lanesUp n || s.isEth n then (s, false)
  else if !crcOk c then (discardCell n s, false)
  else
    let s1 := applyEnvelope n c s
    let l := s1.link n
    let bad := decide (11 ≤ cType c) || decide (12 ≤ cVc c)
    if cType c < 4 then
      if bad then (event 0x600C (srcLink n) (s1.inc (LNK_DROPCNT_CNT n) 1), false) else (s1, true)
    else if cLseq c ≠ l.expect then (sendNak n s1, false)
    else
      let accept (s : State) : State :=
        (s.setLink n { s.link n with expect := (l.expect + 1) % 4096 }).inc (LNK_RXCELLS_CNT n) 1
      if bad then (countDrop c (event 0x600C (srcLink n) ((accept s1).inc (LNK_DROPCNT_CNT n) 1)), false)
      else if s1.get (LNK_VCFREE_FREE n (cVc c)) < 80 then
        (sendNak n (event 0x6008 (srcLink n) (s1.inc (LNK_OVRCNT_CNT n) 1)), false)
      else (accept s1, true)

/-- Resend from the oldest unacknowledged cell: one replay; after LNK_RETRY.MAX of the same cell the link fails
(R261, R264). -/
def replay (n : Nat) (s : State) : State :=
  let l := s.link n
  if l.copies.isEmpty then s
  else if s.get (LNK_RETRY_MAX n) ≤ l.sameReplays then failLink n 2 s
  else
    let s1 := event 0x6007 (srcLink n) ((s.setLink n { l with sameReplays := l.sameReplays + 1 }).inc (LNK_REPLAY_CNT n) 1)
    forAll l.copies (fun c s => s.emit (.cell n (s.enveloped n (cLseq c) c))) s1

/-- What the FEC decoder counted (R251); a window is named by its number, counted from fabric time 0 (R354). -/
def fecCount (n : Nat) (f : Fec) (s : State) : State :=
  if s.lstate n = lDown then s else
  let s1 := ((s.inc (LNK_FECCW_CNT n) f.cw).inc (LNK_FECSYM_CNT n) f.sym).inc (LNK_FECUCW_CNT n) f.ucw
  let l := s1.link n
  let add (w : Nat × Nat) (len k : Nat) : Nat × Nat := if s.now / len = w.1 then (w.1, w.2 + k) else (s.now / len, k)
  let sw := add l.symWin 4000000 f.sym
  let uw := add l.ucwWin 4000000000 f.ucw
  let s2 := s1.setLink n { l with symWin := sw, ucwWin := uw }
  let symThr := s.get (LNK_FECTHR_SYM n) * 1024
  let ucwThr := s.get (LNK_FECTHR_UCW n)
  let before (w : Nat × Nat) (k thr : Nat) : Bool := decide (thr < w.2) && decide (w.2 ≤ thr + k)
  let s3 := if symThr ≠ 0 ∧ before sw f.sym symThr then event 0x600A (srcLink n) s2 else s2
  if ucwThr ≠ 0 ∧ before uw f.ucw ucwThr then
    let s4 := event 0x6009 (srcLink n) s3
    if s4.isSet (LNK_FECTHR_UCWFAIL n) && s4.lstate n == lActive then failLink n 3 s4 else s4
  else s3

/-! ### The plan check (R277) -/

/-- The plan-check reason of a link, or 0. -/
def State.linkCheck (s : State) (n : Nat) : Nat :=
  let st := s.lstate n
  let r := s.get (LNK_STAT_REASON n)
  let p := s.lport n
  let expected (m : Nat) : Bool := s.get (LNK_PLAN_STATE m) == 1
  let same (m : Nat) : Bool := s.get (LNK_PLAN_EXPCOORD m) == s.get (LNK_PLAN_EXPCOORD n)
    && s.get (LNK_PLAN_EXPLPORT m) == s.get (LNK_PLAN_EXPLPORT n) && s.rd (aLNK_PLANSER m) == s.rd (aLNK_PLANSER n)
  let mates := allLinks.filter fun m => expected m && s.lport m == p
  if st = lParked ∧ (expected n ∨ [1, 2, 4, 6, 7, 8, 9].contains r) then r
  else if expected n ∧ p ≥ 8 then 13
  else if expected n ∧ mates.length > 12 then 13
  else if expected n ∧ !(mates.all same) then 12
  else if expected n ∧ st ≠ lActive then 14
  else 0

/-- Run the plan check: the state with its report, and whether it passes. -/
def planCheck (s : State) : State × Bool :=
  match allLinks.find? fun n => s.linkCheck n != 0 with
  | none => (((s.set PRT_PLANSTAT_RESULT 1).set PRT_PLANSTAT_LINK 0).set PRT_PLANSTAT_REASON 0, true)
  | some n => (((s.set PRT_PLANSTAT_RESULT 2).set PRT_PLANSTAT_LINK n).set PRT_PLANSTAT_REASON (s.linkCheck n), false)

/-- What a write of PRT_PLANCTL does (R277, R279). -/
def planCtl (v : Nat) (s : State) : State :=
  let s1 := writeReg aPRT_PLANCTL v s
  if v.testBit 1 ∧ v.testBit 2 then event 0x600C (srcPort 15) s1
  else if v.testBit 2 then
    let s2 := s1.set PRT_PLANSTAT_ARMED 0
    if v.testBit 0 then (planCheck s2).1 else s2
  else if v.testBit 1 then
    let r := planCheck s1
    if r.2 then r.1.set PRT_PLANSTAT_ARMED 1 else event 0x600D (srcPort 15) r.1
  else if v.testBit 0 then (planCheck s1).1 else s1

def State.armed (s : State) : Bool := s.isSet PRT_PLANSTAT_ARMED

end Sys2Proof.Machine
end

