-- ==== Sys2Proof/Machine/Route.lean ====
section
/-! DEFINITION. The router: tables, escape and adaptive routing, output queues (R284 to R291, R301, R302, R307). -/

namespace Sys2Proof.Machine

/-! ### Shades and tables (R287, R302) -/

/-- RTE_STAT's shade states (R314). -/
abbrev shRetired : Nat := 0
abbrev shOpen : Nat := 1
abbrev shLive : Nat := 2
abbrev shDraining : Nat := 3

def shadeRef (sh : Nat) : FRef := if sh = 0 then RTE_STAT_LIGHT else RTE_STAT_DARK
def State.shade (s : State) (sh : Nat) : Nat := s.get (shadeRef sh)
/-- The shade sources stamp. -/
def State.stamp (s : State) : Nat := s.get RTE_CTRL_STAMP

/-- The entry for a destination in a shade's table. -/
def State.entryOf (s : State) (sh dst : Nat) : Nat := (s.rd (if sh = 0 then aRTE_LTAB dst else aRTE_DTAB dst)).toNat
def entValid (e : Nat) : Bool := e.testBit 31
def entPort (e : Nat) : Nat := getBits e 24 3
def entMask (e : Nat) : Nat := getBits e 16 8
def entWin (e : Nat) : Bool := e.testBit 15
def entGw (e : Nat) : Nat := getBits e 0 8

/-! ### Choosing a link (R254) -/

/-- The member of a port's ACTIVE links that a segment travels on. -/
def State.memberLink (s : State) (p : Nat) (c : CellBits) : Option Nat :=
  let ls := s.activeLinks p
  let h := crc16 (leBytes 2 (cDst c) ++ leBytes 2 (cSrc c) ++ leBytes 2 (cMsg c))
  if ls = [] then none else ls[h % ls.length]?

/-! ### Escape routes and the date line (R289, R290) -/

def State.ringSize (s : State) (a : Nat) : Nat := s.get (RTE_AXIS_SIZE a) + 1
def State.position (s : State) (a : Nat) : Nat := getBits (s.get GLB_COORD_COORD) (6 * a) 6
/-- Whether leaving by port `p` crosses the date line of its axis (R284). -/
def State.crosses (s : State) (p : Nat) : Bool :=
  if p % 2 = 0 then s.position (p / 2) + 1 == s.ringSize (p / 2) else s.position (p / 2) == 0

/-- How a cell stands at this router: originated (or as good as), or arrived on an escape VC of a port. -/
def State.arrival (s : State) (inp : Option (Nat × Nat)) : Option (Nat × Nat) :=
  match inp with
  | none => none
  | some (n, v) => if s.isEth n || v == 6 || v == 9 then none else some (s.lport n, v)

/-- The escape step of a cell of class `k` by entry `e`: a discard reason of R288, or the port and VC. -/
def State.escapeStep (s : State) (e k : Nat) (arr : Option (Nat × Nat)) : Nat ⊕ (Nat × Nat) :=
  let p := entPort e
  let first := escVc k
  let plain := if s.crosses p then first + 1 else first
  if !entValid e then .inl 1
  else if s.isSet (PRT_CFG_MODE p) && !s.isSet (RTE_GWMAC_VALID (entGw e)) then .inl 1
  else match arr with
    | none => .inr (p, plain)
    | some (ip, v) =>
        if p / 2 < ip / 2 then .inl 2
        else if p = ip then .inl 3
        else if p / 2 = ip / 2 ∧ v = first + 1 then (if s.crosses p then .inl 5 else .inr (p, first + 1))
        else .inr (p, plain)

/-! ### Output queues -/

/-- Cells queued for output on a port. -/
def State.portQueued (s : State) (p : Nat) : Nat := (s.activeLinks p).foldl (fun k n => k + (s.link n).queued.length) 0
/-- Bytes queued for output on a port's VC. -/
def State.vcQueued (s : State) (p v : Nat) : Nat :=
  (s.activeLinks p).foldl (fun k n => k + ((s.link n).queued.filter fun q => cVc q.cell == v).length * 80) 0

/-- Mark congestion on a cell this router forwards (R301). -/
def markCe (p v : Nat) (q : QCell) (s : State) : QCell × State :=
  if q.inp.isSome ∧ s.get RTE_CFG_CETHR * 1024 < s.vcQueued p v then
    ({ q with cell := cellSet q.cell 127 1 1 }, s.inc RTE_CEMARK_CNT 1)
  else (q, s)

/-- Add a cell to a link's frame assembly (R307). -/
def addFrame (gw k : Nat) (q : QCell) (fs : List FrameAsm) : List FrameAsm :=
  if fs.any (fun f => f.cls == k && f.gw == gw) then
    fs.map fun f => if f.cls = k ∧ f.gw = gw then { f with cells := f.cells ++ [q] } else f
  else fs ++ [{ cls := k, gw := gw, cells := [q] }]

/-- Cells of a class in frame assembly: a link holds at most 63 (R312). -/
def LinkSt.assembled (l : LinkSt) (k : Nat) : Nat := ((l.frames.filter (·.cls == k)).map (·.cells.length)).sum

/-- Queued cells enter frame assembly in order while their class has room. -/
def fillFrames (l : LinkSt) : LinkSt :=
  l.queue.foldl (fun l q =>
    let k := vcClass (cVc q.cell)
    if l.assembled k < 63 then { l with frames := addFrame q.gw k q l.frames } else { l with queue := l.queue ++ [q] })
    { l with queue := [] }

/-- Queue a cell for output on a link with its VC. -/
def enqueue (n v gw : Nat) (q : QCell) (s : State) : State :=
  let r := markCe (s.lport n) v { q with cell := cellSet q.cell 68 4 v, gw := gw } s
  let l := r.2.link n
  let l1 := { l with queue := l.queue ++ [r.1] }
  r.2.setLink n (if r.2.isEth n then fillFrames l1 else l1)

/-! ### Routing a cell (R288, R291) -/

/-- Discard a cell at the router; `held` cells give back their room. -/
def discardRouted (held : Bool) (q : QCell) (s : State) : State :=
  let s1 := countDrop q.cell (s.inc RTE_NOROUTE_CNT 1)
  if held then giveRoom q.inp s1 else s1

/-- Discard a cell for a reason of R288. -/
def discardWhy (held : Bool) (r : Nat) (q : QCell) (s : State) : State :=
  eventD 0x7002 srcRouter (r + cDst q.cell * 2 ^ 16) (discardRouted held q s)

/-- The cells of the segment a SEGF begins (R293). -/
def segCells (c : CellBits) : Nat := if payNat c 0 1 = 2 then 1 else 1 + (payNat c 4 4 + 63) / 64

def inpLink (i : Option (Nat × Nat)) : Option Nat := i.map (·.1)

/-- Whether a path is a cell's. -/
def Path.is (w : Path) (q : QCell) : Bool :=
  w.inp == inpLink q.inp && w.src == cSrc q.cell && w.dst == cDst q.cell && w.cls == vcClass (cVc q.cell) && w.msg == cMsg q.cell

/-- Remember the way a segment's first cell took, or why it was discarded. -/
def openPath (q : QCell) (way : Option (Nat × Nat)) (why : Nat) (s : State) : State :=
  if cType q.cell = ctSegf ∧ 1 < segCells q.cell then
    let w : Path := { inp := inpLink q.inp, src := cSrc q.cell, dst := cDst q.cell, cls := vcClass (cVc q.cell), msg := cMsg q.cell, left := segCells q.cell - 1, way := way, why := why }
    s.setFab { s.fab with paths := s.fab.paths.filter (fun x => !x.is q) ++ [w] }
  else s

/-- Count one continuation cell off its path. -/
def advancePath (q : QCell) (s : State) : State :=
  s.setFab { s.fab with paths := (s.fab.paths.map fun w => if w.is q then { w with left := w.left - 1 } else w).filter fun w => w.left != 0 }

/-- The adaptive port a cell takes: the eligible one with the fewest cells queued, the lowest of equals. -/
def State.adaptivePort (s : State) (e : Nat) (c : CellBits) : Option Nat :=
  match adaVc (vcClass (cVc c)) with
  | none => none
  | some v =>
      let ok (p : Nat) : Bool := (entMask e).testBit p && (match s.memberLink p c with
        | some n => (s.link n).txOn.testBit v
        | none => false)
      ((List.range 8).filter ok).foldl (fun b p => match b with
        | none => some p
        | some x => if s.portQueued p < s.portQueued x then some p else some x) none

/-- Send a first or single cell by its escape step. -/
def routeEscape (held : Bool) (arr : Option (Nat × Nat)) (e : Nat) (q : QCell) (s : State) : State :=
  let fail (r : Nat) : State := discardWhy held r q (openPath q none r s)
  match s.escapeStep e (vcClass (cVc q.cell)) arr with
  | .inl r => fail r
  | .inr (p, v) => match s.memberLink p q.cell with
      | none => fail 4
      | some n =>
          let s1 := if held then s else takeRoom q.inp s
          enqueue n v (entGw e) q (openPath q (some (n, v)) 0 s1)

/-- Hold a cell at the router. -/
def holdCell (held : Bool) (q : QCell) (s : State) : State :=
  let s1 := if held then s else takeRoom q.inp s
  s1.setFab { s1.fab with adapt := s1.fab.adapt ++ [q] }

/-- Whether a port is an Ethernet port and the gateway an entry names is not usable (R314). -/
def State.badGateway (s : State) (e p : Nat) : Bool := s.isSet (PRT_CFG_MODE p) && !s.isSet (RTE_GWMAC_VALID (entGw e))

/-- Route a first or single cell that may go adaptively. -/
def routeAdaptive (held : Bool) (e : Nat) (q : QCell) (s : State) : State :=
  match s.adaptivePort e q.cell with
  | none => if s.get RTE_CFG_ADTMO = 0 then routeEscape held none e q s else holdCell held q s
  | some p =>
      if s.badGateway e p then discardWhy held 1 q (openPath q none 1 s)
      else match s.memberLink p q.cell, adaVc (vcClass (cVc q.cell)) with
        | some n, some v =>
            let s1 := if held then s else takeRoom q.inp s
            enqueue n v (entGw e) q (openPath q (some (n, v)) 0 s1)
        | _, _ => s

/-- Whether a cell goes adaptively from here: one on an adaptive VC, or an originated one of REQ or RSP whose
entry names adaptive ports. -/
def State.goesAdaptive (s : State) (e : Nat) (q : QCell) : Bool :=
  (adaVc (vcClass (cVc q.cell))).isSome && (match q.inp with
    | none => entMask e != 0
    | some (n, v) => if s.isEth n then entMask e != 0 else v == 6 || v == 9)

/-- Route a cell whose DST is another device.  A continuation cell follows its first cell: onto its link, or into the same
discard (R288, R291); where that link has left ACTIVE, or no first cell came this way, it is dropped with no event (log entry
60). -/
def routeCell (held : Bool) (q : QCell) (s : State) : State :=
  let c := q.cell
  if s.shade (cShade c) = shRetired then event 0x7006 srcRouter (discardRouted held q s)
  else if cType c = ctSeg then
    if s.fab.adapt.any (fun x => cType x.cell == ctSegf && inpLink x.inp == inpLink q.inp && cSrc x.cell == cSrc c
        && cDst x.cell == cDst c && cMsg x.cell == cMsg c && vcClass (cVc x.cell) == vcClass (cVc c)) then holdCell held q s
    else match s.fab.paths.find? (·.is q) with
      | some w => match w.way with
          | some (n, v) =>
              let s1 := if held then s else takeRoom q.inp s
              advancePath q (enqueue n v (entGw (s.entryOf (cShade c) (cDst c))) q s1)
          | none => advancePath q (if w.why = 0 then discardRouted held q s else discardWhy held w.why q s)
      | none => discardRouted held q s
  else
    let e := s.entryOf (cShade c) (cDst c)
    if s.goesAdaptive e q then
      if !entValid e then routeEscape held none e q s else routeAdaptive held e q s
    else routeEscape held (s.arrival q.inp) e q s

/-- Try again every cell held at the router. -/
def routeHeld (s : State) : State :=
  forAll s.fab.adapt (routeCell true) (s.setFab { s.fab with adapt := [] })

/-- The oldest cell waiting for an adaptive port leaves for its escape route (R291). -/
def adaptiveFallback (s : State) : State :=
  match s.fab.adapt with
  | [] => s
  | q :: rest =>
      let s1 := s.setFab { s.fab with adapt := rest }
      routeHeld (routeEscape true none (s.entryOf (cShade q.cell) (cDst q.cell)) q s1)

/-- Originate a routed cell: it is counted, and a cell for this device goes to its inbox (R288, R303). -/
def originate (k : Nat) (c : CellBits) (s : State) : State :=
  let c1 := cellSet c 68 4 (escVc k)
  let s1 := if cType c = ctFlush then s else s.inc (RTE_SHINJ_CNT (cShade c)) 1
  if cDst c = s.devId then s1.setFab { s1.fab with inbox := s1.fab.inbox ++ [c1] }
  else routeCell false { cell := c1, inp := none } s1

/-! ### The transmitter's choice (R286) -/

/-- The first queued cell of a VC that may go. -/
def State.eligibleVc (s : State) (n v : Nat) : Option QCell :=
  if (s.link n).txOn.testBit v then (s.link n).queue.find? fun q => cVc q.cell == v else none

/-- The next cell of a class: its VCs take turns. -/
def State.eligible (s : State) (n k : Nat) : Option (Nat × QCell) :=
  let last := (s.link n).lastVc.getD k 0
  let vs := (classVcs k).filter (fun v => decide (last < v)) ++ (classVcs k).filter (fun v => decide (v ≤ last))
  vs.findSome? fun v => (s.eligibleVc n v).map fun q => (v, q)

/-- A class's weight; all equal when all four are 0. -/
def State.weight (s : State) (k : Nat) : Nat :=
  let w := fun k => if k = kCol then s.get RTE_VCW_COL else if k = kReq then s.get RTE_VCW_REQ else if k = kRsp then s.get RTE_VCW_RSP else s.get RTE_VCW_BLK
  if w 1 = 0 ∧ w 2 = 0 ∧ w 3 = 0 ∧ w 4 = 0 then 1 else w k

/-- The class deficit round robin takes next, and what is then left of its turn: the class in turn while its
quantum lasts, else the next class in order with weight, else any waiting class. -/
def State.nextClass (s : State) (n : Nat) : Option (Nat × Nat) :=
  let l := s.link n
  let can (k : Nat) : Bool := (s.eligible n k).isSome
  if can l.turn && decide (0 < l.left) then some (l.turn, l.left - 1)
  else
    let order := [l.turn % 4 + 1, (l.turn + 1) % 4 + 1, (l.turn + 2) % 4 + 1, (l.turn + 3) % 4 + 1]
    match order.find? fun k => can k && s.weight k != 0 with
    | some k => some (k, s.weight k - 1)
    | none => (order.find? can).map fun k => (k, 0)

/-- Remove the first queued cell of a VC. -/
def removeFirst (v : Nat) : List QCell → List QCell
  | [] => []
  | q :: t => if cVc q.cell = v then t else q :: removeFirst v t

/-- Send the cell chosen of class `k`. -/
def sendChosen (n k v : Nat) (q : QCell) (turn left gap : Nat) (s : State) : State :=
  let l := s.link n
  let s1 := s.setLink n { l with queue := removeFirst v l.queue, lastVc := l.lastVc.set k v, turn := turn, left := left, ctlGap := gap }
  let c := if s.get (LNK_STAT_NPV n) = 1 then cellSet q.cell 127 1 0 else q.cell
  sendSequenced n c (giveRoom q.inp s1)

/-- The link's transmitter takes its next cell slot (R286): CTL, at most one slot in 16 while others wait, then the
four classes by deficit round robin, then IDLE.  With 4,095 cells outstanding only link-local cells go (R261); a link that is
not ACTIVE takes no new cells (R256). -/
def cellSlot (n : Nat) (s : State) : State :=
  let l := s.link n
  if !s.lanesUp n || s.isEth n then s
  else if s.lstate n ≠ lActive ∨ 4095 ≤ l.copies.length then sendIdle n s
  else
    let others := s.nextClass n
    match s.eligible n kCtl with
    | some (v, q) =>
        if others.isNone || decide (15 ≤ l.ctlGap) then sendChosen n kCtl v q l.turn l.left 0 s
        else match others with
          | some (k, left) => match s.eligible n k with
              | some (w, x) => sendChosen n k w x k left (min 15 (l.ctlGap + 1)) s
              | none => sendIdle n s
          | none => sendIdle n s
    | none => match others with
        | some (k, left) => match s.eligible n k with
            | some (w, x) => sendChosen n k w x k left (min 15 (l.ctlGap + 1)) s
            | none => sendIdle n s
        | none => sendIdle n s

end Sys2Proof.Machine
end

