-- ==== Sys2Proof/Machine/Transport.lean ====
section
/-! DEFINITION. The transport: messages in flight, windows, grants and refusals, and what the originators of
remote work do with the outcome (R129, R142, R199, R210, R211, R293 to R301, R379 to R385). -/

namespace Sys2Proof.Machine

/-! ### Commands that have issued (R122, R148) -/

def State.findIssued (s : State) (q uid : Nat) : Option Issued := (s.que q).issued.find? (·.uid == uid)
/-- Change the issued commands of a queue. -/
def mapIssued (q : Nat) (f : Issued → Issued) (s : State) : State := s.setQue q { s.que q with issued := (s.que q).issued.map f }
def setIssued (q uid : Nat) (f : Issued → Issued) (s : State) : State := mapIssued q (fun e => if e.uid = uid then f e else e) s

/-! ### Windows (R300) -/

/-- Change the window context of a destination and class; a context with no cells outstanding is freed (R300). -/
def setWin (dst cls : Nat) (f : Win → Win) (s : State) : State :=
  s.setFab { s.fab with wins := (s.fab.wins.map fun w => if w.dst = dst ∧ w.cls = cls then f w else w).filter (·.out != 0) }

/-- Forget the outstanding cells of messages that are dropped. -/
def releaseWindow (m : Send) (s : State) : State :=
  if m.windowed then setWin m.dst m.cls (fun w => { w with out := w.out - m.out }) s else s

/-- The give-up time of the transport, in ticks (R295). -/
def State.giveUpTime (s : State) : Nat := (s.get RTE_XPORT_MAX + 1) * s.get RTE_XPORT_TMO * 4000

/-- A message's number rests: it is not used again within the give-up time (R296). -/
def restNumber (m : Send) (s : State) : State :=
  match m.msg with
  | some num => s.setFab { s.fab with
      msgUsed := (s.fab.msgUsed.filter fun u => decide (s.since u.2.2 < s.giveUpTime)) ++ [(m.dst * 8 + m.cls, num, s.now)] }
  | none => s

/-- Drop the messages a condition picks: their window cells are returned and their numbers rest. -/
def dropSends (p : Send → Bool) (s : State) : State :=
  let gone := s.fab.sends.filter p
  forAll gone (fun m s => restNumber m (releaseWindow m s)) (s.setFab { s.fab with sends := s.fab.sends.filter fun m => !p m })

/-- A command that has issued fails: its other remote work is called off, and its queue freezes with RESUME 0. -/
def failIssued (q uid code : Nat) (s : State) : State :=
  match s.findIssued q uid with
  | none => s
  | some e =>
      let mine (m : Send) : Bool := match m.origin with
        | .remote q' u _ => q' == q && u == uid
        | _ => false
      let s1 := dropSends mine s
      let s2 := s1.setFab { s1.fab with hostReads := s1.fab.hostReads.filter fun h => !(h.q == q && h.uid == uid) }
      let s3 := setIssued q uid (fun e => { e with status := .rerun, waits := [], parts := [], gathered := false, asking := false, asked := [] }) s2
      freezeQueue q code 0 e.idx 0 (showEngine q s3)

/-- An FMIRSYNC's region is mirrored: record the STEP, and count STATUS with TRY (R210). -/
def mirsyncDone (q : Nat) (e : Issued) (s : State) : State :=
  let g := homeSet q
  let r := cmdGet e.word 64 4
  let s1 := (s.set (LPC_MIRDONE_VALID r) 1).set (LPC_MIRDONE_STEP r) (s.step40 g)
  if cmdGet e.word 68 1 = 1 then addFlag g (cmdGet e.word 69 9) 1 s1 else s1

/-- A message or host read that commands wait for has been answered. -/
def clearWaits (uid : Nat) (s : State) : State :=
  forAll (s.ques.map (·.1)) (fun q s =>
    if (s.que q).issued.any (fun e => e.waits.contains uid) then
      let before := (s.que q).issued
      let after := before.map fun e =>
        let w := e.waits.filter (· != uid)
        if e.waits.contains uid then { e with waits := w, status := if w = [] ∧ e.gathered then .done else e.status } else e
      let s1 := s.setQue q { s.que q with issued := after }
      showEngine q (forAll (before.filter fun e => e.waits == [uid] && opcode e.word == 0x73) (fun e s => mirsyncDone q e s) s1)
    else s) s

/-! ### The outcome of a message -/

/-- The outcome of a queue's POST: 0 accepted, 1 full, 2 stale role, 3 unreachable (R142). -/
def postOutcome (q k : Nat) (s : State) : State :=
  match (s.que q).issued.find? fun e => opcode e.word == 5 && decide (e.status = .busy) with
  | none => s
  | some e =>
      let s1 := s.set (QUE_POSTREC_LAST q) k
      let code := if k = 1 then 0x3004 else if k = 2 then 0x3005 else 0x3006
      let done (s : State) : State :=
        let s := setIssued q e.uid (fun e => { e with status := .done }) s
        if s.qstate q = qWaiting then s.set (QUE_STAT_STATE q) qRunning else s
      if cmdGet e.word 176 1 = 0 then
        if k = 0 then done s1
        else freezeQueue q code 0 e.idx 0 (event code (srcQueue q) (setIssued q e.uid (fun e => { e with status := .rerun }) s1))
      else if k = 0 then done (addFlag (homeSet q) (cmdGet e.word 177 9) 1 s1)
      else if k = 1 then done s1
      else done (event code (srcQueue q) s1)

/-- The outcome of a host's POST: it completes a read that still waits, and resolves a pending slot (R381). -/
def hostPostOutcome (p k out : Nat) (s : State) : State :=
  match (s.port p).posts.find? (·.1 == k) with
  | none => s
  | some (_, waiting) =>
      let s1 := s.setPort p { s.port p with posts := (s.port p).posts.filter (·.1 != k) }
      let s2 := (s1.set (MBX_STGSTAT_LAST p k) out).set (MBX_STGSTAT_PENDING p k) 0
      if waiting then
        let s3 := s2.set (MBX_POST_OUTCOME p k) out
        s3.emit (.completion p (if out = 1 then 0 else BitVec.ofNat 64 (out * 2 ^ 28)) (out == 1))
      else raiseVector p 36 s2

/-- Freeze a queue at its next command boundary, RESUME 1 (R129). -/
def freezeSoon (q code cmd : Nat) (s : State) : State :=
  if s.qstate q = qWaiting ∧ s.get (QUE_STAT_WHY q) ≠ 3 then restTile q (freezeQueue q code 1 cmd 0 s)
  else s.setQue q { s.que q with pendingFreeze := some (code, cmd) }

/-- Outbound mirroring stops (R211); a pending FMIRSYNC behaves as POST on an unreachable receiver. -/
def mirrorLost (s : State) : State :=
  let s0 := (s.set LPC_MIRSTAT_ACTIVE 0).set LPC_MIRSTAT_LOST 1
  let s1 := event 0x5007 srcMirror (s0.setFab { s0.fab with mirStop := true })
  let s2 := dropSends (fun m => match m.origin with | .mirror _ => true | _ => false) s1
  forAll (s2.ques.map (·.1)) (fun q s =>
    forAll ((s.que q).issued.filter fun e => opcode e.word == 0x73 && decide (e.status = .busy)) (fun e s =>
      if cmdGet e.word 68 1 = 1 then
        event 0x3006 (srcQueue q) (showEngine q (setIssued q e.uid (fun e => { e with status := .done, waits := [] }) s))
      else failIssued q e.uid 0x3006 (event 0x3006 (srcQueue q) s)) s) s2

/-- Outcomes of a message. -/
inductive Answer where
  | accepted | full | stale | gaveUp | exposed | mirrorRefused
  deriving DecidableEq, Repr

def Answer.post : Answer → Nat
  | .accepted => 0
  | .full => 1
  | .stale => 2
  | _ => 3

/-- The originator acts on its message's outcome (R129, R142, R211, R295, R297, R381). -/
def concluded (m : Send) (a : Answer) (s : State) : State :=
  match m.origin with
  | .none => s
  | .reply => s
  | .signal q k cmd =>
      let g := homeSet q
      match a with
      | .accepted => s
      | .gaveUp => freezeSoon q 0x3006 cmd (event 0x3006 (srcQueue q) (s.set (TIL_FLAGLINK_UNREACH g k) 1))
      | _ => freezeSoon q 0x3005 cmd (event 0x3005 (srcQueue q) (s.set (TIL_FLAGLINK_STALE g k) 1))
  | .post q => postOutcome q a.post s
  | .hostPost p k => hostPostOutcome p k a.post s
  | .remote q uid _ =>
      match a with
      | .accepted => clearWaits m.uid s
      | .gaveUp => failIssued q uid 0x7003 s
      | _ => failIssued q uid 0x7004 (event 0x7004 srcRouter s)
  | .mirror _ =>
      match a with
      | .accepted => clearWaits m.uid s
      | _ => if s.fab.mirStop then s else mirrorLost s

/-! ### Sending (R295, R296, R298, R300) -/

/-- Whether windows are engaged towards a destination for a message (R300). -/
def State.engaged (s : State) (dst cls : Nat) (c : CellBits) : Bool :=
  let e := s.entryOf s.stamp dst
  let hop := match (if entMask e = 0 then none else s.adaptivePort e c) with
    | some p => p
    | none => entPort e
  let sort := s.isSet (PRT_CFG_REACH hop) || s.isSet (PRT_CFG_MODE hop) || s.get (PRT_STAT_STATE hop) == 1
  (cls == kReq || cls == kRsp || cls == kBlk) && (entWin e || sort)

/-- The window contexts of a class (R300). -/
def winLimit (cls : Nat) : Nat := if cls = kReq then 1024 else 512

/-- The next message number to a destination and class, unless it was used within the give-up time (R296). -/
def State.nextMsg (s : State) (dst cls : Nat) : Option Nat :=
  let key := dst * 8 + cls
  let m := tabGet (fun _ => 0) s.fab.msgNext key
  let busy := s.fab.sends.any fun x => x.dst == dst && x.cls == cls && x.msg == some m
  let fresh := s.fab.msgUsed.any fun u => u.1 == key && u.2.1 == m && decide (s.since u.2.2 < s.giveUpTime)
  if busy || fresh then none else some m

/-- The lines a MIRROR segment writes. -/
def mirrorLines (cells : List CellBits) : List Nat :=
  match cells with
  | c :: _ => linesOf (payNat c 8 6) (payNat c 4 4)
  | [] => []

/-- Whether a MIRROR segment is held back by an earlier unacknowledged one on a line of it (R298). -/
def State.heldBack (s : State) (m : Send) : Bool :=
  m.cls == kBlk && s.fab.sends.any fun x => x.cls == kBlk && x.dst == m.dst && decide (x.uid < m.uid)
    && (mirrorLines x.cells).any fun l => (mirrorLines m.cells).contains l

def setSend (uid : Nat) (f : Send → Send) (s : State) : State :=
  s.setFab { s.fab with sends := s.fab.sends.map fun m => if m.uid = uid then f m else m }
def State.send (s : State) (uid : Nat) : Option Send := s.fab.sends.find? (·.uid == uid)
def State.win (s : State) (dst cls : Nat) : Option Win := s.fab.wins.find? fun w => w.dst == dst && w.cls == cls
/-- The window a context has, or would start with, and the cells outstanding in it; none while a message needs a context and
none of its class is free (R300). -/
def State.winRoom (s : State) (dst cls : Nat) : Option Win :=
  match s.win dst cls with
  | some w => some w
  | none =>
      let w := s.get RTE_WIN_W
      if (s.fab.wins.filter (·.cls == cls)).length < winLimit cls then some { dst := dst, cls := cls, w := w, sinceCut := w } else none

/-- Send one more cell in a window, taking a context where none is held. -/
def takeWin (w : Win) (s : State) : State :=
  let w1 := { w with out := w.out + 1 }
  if (s.win w.dst w.cls).isSome then setWin w.dst w.cls (fun _ => w1) s
  else s.setFab { s.fab with wins := s.fab.wins ++ [w1] }

/-- Whether this device may originate a message of a class now: COL, REQ and BLK need ARMED, responses do not
(R278). -/
def State.mayOriginate (s : State) (m : Send) : Bool :=
  s.armed || decide (m.origin = .reply) || !(m.cls == kReq || m.cls == kBlk)

/-- Give a message its number and shade when it may start: one that needs a window context waits for one (R300). -/
def startSend (uid : Nat) (s : State) : State :=
  match s.send uid with
  | none => s
  | some m =>
      if m.msg.isSome || s.heldBack m || !s.mayOriginate m then s
      else match s.nextMsg m.dst m.cls, m.cells with
        | some num, c :: _ =>
            let eng := s.engaged m.dst m.cls c
            if eng && (s.winRoom m.dst m.cls).isNone then s
            else
              let s1 := s.setFab { s.fab with msgNext := tabPut (fun _ => 0) s.fab.msgNext (m.dst * 8 + m.cls) ((num + 1) % 1024) }
              setSend uid (fun m => { m with msg := some num, shade := s.stamp, windowed := eng, next := 0, out := 0 }) s1
        | _, _ => s

/-- Send the cells of a message that its window lets go; `fuel` bounds them. -/
def sendCells (uid : Nat) : Nat → State → State
  | 0, s => s
  | fuel + 1, s =>
      match s.send uid with
      | none => s
      | some m => match m.msg, m.cells[m.next]? with
          | some num, some c =>
              let win := s.winRoom m.dst m.cls
              let room := !m.windowed || win.any fun w => decide (w.out < w.w)
              if !room || !s.mayOriginate m then s
              else
                let c1 := cellSet (cellSet c 105 10 num) 72 1 m.shade
                let s1 := setSend uid (fun m => { m with next := m.next + 1, out := m.out + 1 }) s
                let s2 := match win with
                  | some w => if m.windowed then takeWin w s1 else s1
                  | none => s1
                sendCells uid fuel (originate m.cls c1 s2)
          | _, _ => s

/-- Start and continue every message that can go. -/
def pump (s : State) : State :=
  forAll (s.fab.sends.map (·.uid)) (fun uid s => sendCells uid 1024 (startSend uid s)) s

/-- Send a message on a class: the state with it under way. -/
def sendMessage (dst cls : Nat) (cells : List CellBits) (o : Origin) (s : State) : State :=
  let m : Send := { uid := s.nextUid, dst := dst, cls := cls, cells := cells, origin := o }
  let s1 := { s with nextUid := s.nextUid + 1 }
  pump (s1.setFab { s1.fab with sends := s1.fab.sends ++ [m] })

/-- A single unacknowledged cell: GRANT, REFUSE or FLUSH. -/
def sendCell (dst cls ctype msg pay : Nat) (s : State) : State :=
  originate cls (cellSet (mkCell ctype dst s.devId msg 0 pay) 72 1 s.stamp) s

/-- A message has its outcome: it leaves, and its number rests. -/
def finishSend (uid : Nat) (a : Answer) (s : State) : State :=
  match s.send uid with
  | none => s
  | some m => pump (concluded m a (dropSends (·.uid == uid) s))

/-- The message a cell from `dst` answers. -/
def State.sendFor (s : State) (dst cls num : Nat) : Option Send :=
  s.fab.sends.find? fun m => m.dst == dst && m.cls == cls && m.msg == some num

/-- Resend a whole message with the same number in the shade now stamped (R295); the cells of the earlier copy no
longer count in its window. -/
def resend (uid : Nat) (s : State) : State :=
  match s.send uid with
  | none => s
  | some m =>
      let s1 := (s.inc RTE_XRETRY_CNT 1)
      let s2 := if m.windowed then setWin m.dst m.cls (fun w => { w with out := w.out - m.out }) s1 else s1
      pump (setSend uid (fun m => { m with tries := m.tries + 1, next := 0, out := 0, shade := s.stamp }) s2)

/-! ### Segments (R293) -/

/-- The class code of a GRANT or REFUSE (R294). -/
abbrev classCode (k : Nat) : Nat := k

/-- 64-byte data cells of a byte string, each with its poison. -/
def dataCells (dst src : Nat) (psn : Nat → Bool) : Nat → Nat → List Byte → List CellBits
  | 0, _, _ => []
  | fuel + 1, i, bs =>
      if bs = [] then []
      else
        let c := mkCell ctSeg dst src 0 i (payloadOf (bs.take 64))
        (if psn (i - 1) then cellSet c 126 1 1 else c) :: dataCells dst src psn fuel (i + 1) (bs.drop 64)

/-- The cells of a segment: descriptor and data.  `psn i` says whether data cell i is poisoned. -/
def segment (dst src op flags rgen len addr rmsg : Nat) (data : List Byte) (psn : Nat → Bool) : List CellBits :=
  mkCell ctSegf dst src 0 0 (payload [(0, 1, op), (1, 1, flags), (2, 2, rgen), (4, 4, len), (8, 8, addr), (16, 2, rmsg)])
    :: dataCells dst src psn 1024 1 data

/-! ### Grants and refusals received (R294, R297, R301) -/

/-- Return cells to a message's window, with the CE echo's reduction or the growth by one. -/
def windowGrant (m : Send) (cells : Nat) (echo : Bool) (s : State) : State :=
  if !m.windowed then s else
  let wmin := s.get RTE_WIN_WMIN
  let wmax := s.get RTE_WIN_W
  let ecn := s.isSet RTE_WIN_ECN
  setWin m.dst m.cls (fun w =>
    let since := w.sinceCut + cells
    let w1 := { w with out := w.out - cells, sinceCut := since }
    if echo then (if ecn && decide (w.w ≤ since) then { w1 with w := max wmin (w.w / 2), sinceCut := 0 } else w1)
    else { w1 with w := min wmax (w.w + 1) }) (setSend m.uid (fun m => { m with out := m.out - cells }) s)

/-- Counts that a remote ADD's controller returns: they add to the record CVT.ORI names (R199); with CVT.OVF_NF a returned
saturation sets NF (R59). -/
def addReturned (m : Send) (c : CellBits) (s : State) : State :=
  match m.origin with
  | .remote q uid _ => match s.findIssued q uid with
      | some e =>
          let cvt := Cvt.ofBits (cmdGet e.word 72 16)
          let t : Tally := { sat := payNat c 8 4, nan := payNat c 12 4, inf := payNat c 16 4, unf := payNat c 20 4,
                             maxAbs := payNat c 24 4, nf := (payNat c 28 1) % 2 == 1 || (cvt.ovfNf && payNat c 8 4 != 0) }
          if q < 120 then addCounts (tileOvfBase (q / 5) cvt.ori) t s else s
      | none => s
  | _ => s

/-- A GRANT delivered to this device. -/
def grantArrives (c : CellBits) (s : State) : State :=
  match s.sendFor (cSrc c) (payNat c 2 1) (payNat c 0 2 % 1024) with
  | none => s
  | some m =>
      let s1 := windowGrant m (payNat c 4 2) ((payNat c 3 1).testBit 1) s
      if (payNat c 3 1).testBit 0 then finishSend m.uid .accepted (addReturned m c s1) else pump s1

/-- A REFUSE delivered to this device. -/
def refuseArrives (c : CellBits) (s : State) : State :=
  match s.sendFor (cSrc c) (payNat c 2 1) (payNat c 0 2 % 1024) with
  | none => s
  | some m =>
      let r := payNat c 3 1
      finishSend m.uid (if r = 1 then .stale else if r = 3 then .mirrorRefused else .exposed) s

/-- Answer a segment or cell of class `k`: its GRANT goes on RSP for REQ, on CTL for the rest (R285). -/
def answerClass (k : Nat) : Nat := if k = kReq then kRsp else kCtl
def sendGrant (dst k msg cells : Nat) (final echo : Bool) (counts : List PayField) (s : State) : State :=
  sendCell dst (answerClass k) ctGrant msg
    (payload ([(0, 2, msg), (2, 1, classCode k), (3, 1, final.toNat + 2 * echo.toNat), (4, 2, cells)] ++ counts)) s
def sendRefuse (dst k msg reason : Nat) (s : State) : State :=
  sendCell dst (answerClass k) ctRefuse msg
    (payload [(0, 2, msg), (2, 1, classCode k), (3, 1, reason), (4, 2, s.get GLB_ROLEGEN_RGEN)]) s

/-! ### Duplicate suppression (R296) -/

/-- The part of the cache a class may fill. -/
def dedupLimit (k : Nat) : Nat := if k = kCtl then 2048 else if k = kReq then 6144 else 4096
def State.isDup (s : State) (src k msg : Nat) : Bool := s.fab.dedup.contains (src, k, msg)
def State.dedupFull (s : State) (k : Nat) : Bool := decide (dedupLimit k ≤ (s.fab.dedup.filter (·.2.1 == k)).length)
def keepKey (src k msg : Nat) (s : State) : State := s.setFab { s.fab with dedup := s.fab.dedup ++ [(src, k, msg)] }

/-- Apply something of `cells` cells once, by its key: a key held is answered again, a full part discards, and otherwise
`eff` acts; `eff` answers whether the key is to be kept. -/
def deliverOnce (src k msg : Nat) (sh cells : Nat) (again : State → State) (eff : State → State × Bool) (s : State) : State :=
  if s.isDup src k msg then again s
  else if s.dedupFull k then
    event 0x7009 srcRouter ((s.inc RTE_DEDUPFULL_CNT 1).inc (RTE_SHDROP_CNT sh) cells)
  else
    let r := eff s
    if r.2 then keepKey src k msg r.1 else r.1

/-! ### Mailboxes (R376, R379, R383) -/

/-- The role generation of a mailbox's receiver. -/
def State.mailRole (s : State) (m : Nat) : Nat :=
  if m < 16 then s.get (HST_ROLEGEN_RGEN 0) else if m < 32 then s.get (HST_ROLEGEN_RGEN 1) else s.get GLB_ROLEGEN_RGEN

/-- Unread notices of a mailbox. -/
def State.mailHeld (s : State) (m : Nat) : Nat := (s.get (MBX_PROD_PROD m) + 65536 - s.get (MBX_CONS_CONS m)) % 65536

/-- Put a notice into a mailbox, if its role generation is right and there is room. -/
def acceptNotice (m notice srcdev kind unit : Nat) (s : State) : State × Answer :=
  if getBits notice 112 16 ≠ s.mailRole m then (s, .stale)
  else if 16 ≤ s.mailHeld m then (s, .full)
  else
    let prod := s.get (MBX_PROD_PROD m)
    let e := prod % 16 * 4
    let s1 := (s.wr (aMBX_ENT m e) (BitVec.ofNat 64 notice)).wr (aMBX_ENT m (e + 1)) (BitVec.ofNat 64 (notice / 2 ^ 64))
    let s2 := (s1.wr (aMBX_ENT m (e + 2)) (BitVec.ofNat 64 (srcdev + kind * 2 ^ 16 + unit * 2 ^ 24))).wr
      (aMBX_ENT m (e + 3)) (s.rd aFTM_NOW)
    let s3 := s2.set (MBX_PROD_PROD m) (prod + 1)
    if m < 32 ∧ (s3.get (HST_CFG_MBXIE (m / 16))).testBit (m % 16) then (raiseVector (m / 16) (m % 16) s3, .accepted)
    else (s3, .accepted)

/-- The queue a SRCKIND and SRCUNIT name. -/
def unitQueue (kind unit : Nat) : Option Nat :=
  if kind = 3 ∧ unit / 8 < 24 ∧ unit % 8 < 5 then some (unit / 8 * 5 + unit % 8)
  else if kind = 4 ∧ unit < 5 then some (120 + unit) else none
/-- A queue's SRCKIND and SRCUNIT. -/
def queueKind (q : Nat) : Nat := if q < 120 then 3 else 4
def queueUnit (q : Nat) : Nat := if q < 120 then q / 5 * 8 + q % 5 else q - 120

/-- An aborted notice reaches its local sender (R142, R383). -/
def abortedNotice (kind unit : Nat) (s : State) : State :=
  if kind < 2 then s.incSat (HST_POSTREC_ABORTCNT kind) 1
  else match unitQueue kind unit with
    | some q => event 0x3007 (srcQueue q) (s.incSat (QUE_POSTREC_ABORTCNT q) 1)
    | none => s

/-- A notice as a message to another device (R385). -/
def noticeCell (dst src notice kind mbox skind sunit : Nat) : CellBits :=
  mkCell ctNotice dst src 0 0 (notice % 2 ^ 128 + payload [(16, 1, kind), (17, 1, mbox), (18, 1, skind), (19, 1, sunit)])

/-- Abort the unread notices of mailbox `m` and empty it (R383): the state and how many there were. -/
def clearMailbox (m : Nat) (s : State) : State × Nat :=
  let n := min 16 (s.mailHeld m)
  let cons := s.get (MBX_CONS_CONS m)
  let one (i : Nat) (s : State) : State :=
    let e := (cons + i) % 16 * 4
    let w2 := (s.rd (aMBX_ENT m (e + 2))).toNat
    let dev := getBits w2 0 16
    let kind := getBits w2 16 8
    let unit := getBits w2 24 8
    if dev = s.devId then abortedNotice kind unit s
    else sendMessage dev kReq [noticeCell dev s.devId ((s.rd (aMBX_ENT m e)).toNat + (s.rd (aMBX_ENT m (e + 1))).toNat * 2 ^ 64) 3 m kind unit] .none s
  let s1 := forAll (List.range n) one s
  (s1.set (MBX_CONS_CONS m) (s1.get (MBX_PROD_PROD m)), n)

/-- A receiver's reset clears its mailboxes `lo` to `lo + 15`. -/
def clearMailboxes (lo src : Nat) (s : State) : State :=
  let r := (List.range 16).foldl (fun r i => let x := clearMailbox (lo + i) r.1; (x.1, r.2 + x.2)) (s, 0)
  eventD 0xA009 src r.2 r.1

/-! ### Delivery (R288, R294, R303) -/

/-- Send a SIGNAL's payload: role generation, set, addition and flag (log entry 12). -/
def signalPay (rgen set add flag : Nat) : Nat := payload [(0, 2, rgen), (2, 1, set), (3, 1, add), (4, 2, flag)]

/-- A remote flag addition arrives (R129). -/
def signalArrives (c : CellBits) (s : State) : State :=
  let src := cSrc c
  let grant := sendGrant src kReq (cMsg c) 1 true (cCe c == 1) []
  deliverOnce src kReq (cMsg c) (cShade c) 1 grant (fun s =>
    if payNat c 0 2 ≠ s.get GLB_ROLEGEN_RGEN then (sendRefuse src kReq (cMsg c) 1 s, false)
    else
      let g := payNat c 2 1
      let f := payNat c 4 2
      let s1 := if g < 25 ∧ f < 512 then addFlag g f (payNat c 3 1) (accessSet g s) else s
      (grant s1, true)) s

/-- A mailbox notice arrives (R385): KIND 1. -/
def noticeArrives (c : CellBits) (s : State) : State :=
  let src := cSrc c
  let grant := sendGrant src kReq (cMsg c) 1 true (cCe c == 1) []
  deliverOnce src kReq (cMsg c) (cShade c) 1 grant (fun s =>
    let m := payNat c 17 1
    if 48 ≤ m then (sendRefuse src kReq (cMsg c) 4 s, false)
    else
      let r := acceptNotice m (payNat c 0 16) src (payNat c 18 1) (payNat c 19 1) s
      match r.2 with
      | .accepted => (grant r.1, true)
      | .full => (sendMessage src kReq [noticeCell src s.devId (payNat c 0 16) 2 m (payNat c 18 1) (payNat c 19 1)] .reply r.1, false)
      | _ => (sendRefuse src kReq (cMsg c) 1 r.1, false)) s

/-- The post of a SRCKIND and SRCUNIT that awaits its outcome from a device. -/
def State.postOf (s : State) (dst kind unit : Nat) : Option Send :=
  s.fab.sends.find? fun m => m.dst == dst && (match m.origin with
    | .post q => queueKind q == kind && queueUnit q == unit
    | .hostPost p k => p == kind && k == unit
    | _ => false)

/-- A NOTICE of KIND 2: the mailbox was full.  It is delivered by SRCKIND and SRCUNIT. -/
def noticeFullArrives (c : CellBits) (s : State) : State :=
  let src := cSrc c
  let grant := sendGrant src kReq (cMsg c) 1 true (cCe c == 1) []
  deliverOnce src kReq (cMsg c) (cShade c) 1 grant (fun s =>
    match s.postOf src (payNat c 18 1) (payNat c 19 1) with
    | some m => (grant (finishSend m.uid .full s), true)
    | none => (grant s, true)) s

/-- A NOTICE of KIND 3: an unread notice was aborted. -/
def noticeAbortedArrives (c : CellBits) (s : State) : State :=
  let src := cSrc c
  let grant := sendGrant src kReq (cMsg c) 1 true (cCe c == 1) []
  deliverOnce src kReq (cMsg c) (cShade c) 1 grant (fun s => (grant (abortedNotice (payNat c 18 1) (payNat c 19 1) s), true)) s

/-- A segment's cell arrives: a first cell begins it anew, a continuation in order extends it; after each 64 cells
of a windowed segment its cells are granted (R294, R295, log entry 13). -/
def segmentArrives (c : CellBits) (s : State) : State :=
  let k := vcClass (cVc c)
  let mine (r : Reasm) : Bool := r.src == cSrc c && r.cls == k && r.msg == cMsg c
  let ce := cCe c == 1
  let new : Reasm := { src := cSrc c, cls := k, msg := cMsg c, cells := [c], ce := ce, via := s.fab.inLink }
  let extend (r : Reasm) : Reasm :=
    if mine r && r.cells.length == cIdx c then { r with cells := r.cells ++ [c], ce := r.ce || ce } else r
  let held := if cType c = ctSegf then s.fab.reasm.filter (fun r => !mine r) ++ [new] else s.fab.reasm.map extend
  let s1 := s.setFab { s.fab with reasm := held }
  match s1.fab.reasm.find? mine with
  | none => s1
  | some r =>
      if s1.engaged r.src r.cls c && decide (64 ≤ r.cells.length - r.granted) then
        let s2 := s1.setFab { s1.fab with reasm := s1.fab.reasm.map fun x => if mine x then { x with granted := r.cells.length, ce := false } else x }
        sendGrant r.src r.cls r.msg (r.cells.length - r.granted) false r.ce [] s2
      else s1

/-- A FLUSH report reaches the coordinator (R304). -/
def flushArrives (c : CellBits) (s : State) : State :=
  let first := (payNat c 3 1).testBit 0
  let s1 := if first then s.inc RTE_FLSTAT_REPORTED 1 else s
  let s2 := ((s1.inc RTE_FLINJ_SUM (payNat c 8 8)).inc RTE_FLEJ_SUM (payNat c 16 8)).inc RTE_FLDROP_SUM (payNat c 24 8)
  let whole := s2.get RTE_FLSTAT_REPORTED = s2.get RTE_FLCFG_NDEV ∧ s2.get RTE_FLINJ_SUM ≤ s2.get RTE_FLEJ_SUM + s2.get RTE_FLDROP_SUM
  if s2.isSet RTE_FLSTAT_DONE || s2.fab.flushGuard || !decide whole then s2
  else if s2.get RTE_FLDROP_SUM ≠ 0 then s2.setFab { s2.fab with flushGuard := true }
  else event 0x7001 srcRouter (s2.set RTE_FLSTAT_DONE 1)

/-- A routed cell for this device is delivered. -/
def deliver (c : CellBits) (s : State) : State :=
  let s1 := s.inc (RTE_SHEJ_CNT (cShade c)) 1
  if cType c = ctSegf ∨ cType c = ctSeg then segmentArrives c s1
  else if cType c = ctGrant then grantArrives c s1
  else if cType c = ctSignal then signalArrives c s1
  else if cType c = ctNotice then
    (if payNat c 16 1 = 1 then noticeArrives c s1 else if payNat c 16 1 = 2 then noticeFullArrives c s1
     else if payNat c 16 1 = 3 then noticeAbortedArrives c s1 else s1)
  else if cType c = ctRefuse then refuseArrives c s1
  else if cType c = ctFlush then flushArrives c s1
  else s1

/-- Deliver what this device has sent itself; `fuel` bounds the rounds. -/
def drainInbox : Nat → State → State
  | 0, s => s
  | k + 1, s =>
      if s.fab.inbox = [] then s
      else drainInbox k (forAll s.fab.inbox deliver (s.setFab { s.fab with inbox := [] }))

/-- A routed cell accepted from link `n` is delivered or forwarded. -/
def routeIn (n : Nat) (c : CellBits) (s : State) : State :=
  let c1 := if s.get (LNK_STAT_NPV n) = 1 then cellSet c 127 1 0 else c
  if cDst c1 = s.devId then drainInbox 64 (deliver c1 (s.setFab { s.fab with inLink := n }))
  else routeCell false { cell := c1, inp := some (n, cVc c1) } s

end Sys2Proof.Machine
end

