-- ==== Sys2Proof/Machine/Operands.lean ====
section
/-! DEFINITION. Operand addresses, grants, and the stages every command of a queue passes through
(R29, R30, R84, R119 to R123, R131, R148, R156, R162, R278). -/

namespace Sys2Proof.Machine

/-! ### Addresses (R30, R131) -/

/-- Base register `n` of a queue; BR0 is fixed. -/
def State.br (s : State) (q n : Nat) : Nat :=
  if n = 0 then s.devId * 2 ^ 48 + (if q < 120 then padBase (q / 5) else 0) else (s.rd (aQUE_BASE q n)).toNat

/-- The address a base register and an offset give; none if bit 47 carries. -/
def State.operand (s : State) (q reg off : Nat) : Option Nat :=
  let b := s.br q reg
  let lo := b % 2 ^ 48 + off
  if lo < 2 ^ 48 then some (b / 2 ^ 48 * 2 ^ 48 + lo) else none

def devOf (a : Nat) : Nat := a / 2 ^ 48
def localOf (a : Nat) : Nat := a % 2 ^ 48

/-- The operand at bits `[lo + w + 3 : lo]` of a command: a base register above an offset of `w` bits in units. -/
def State.cmdOperand (s : State) (q : Nat) (wd : CmdBits) (lo w unit : Nat) : Option Nat :=
  s.operand q (cmdGet wd (lo + w) 4) (cmdGet wd lo w * unit)

/-! ### Grants (R29, R156, R209) -/

/-- The last byte a tile may reach from `a` in one window that permits the access. -/
def State.windowEnd (s : State) (t a : Nat) (wr : Bool) : Option Nat :=
  if padBase t ≤ a ∧ a < padBase t + padSize then some (padBase t + padSize)
  else
    let ok (w : Nat) : Bool := (if wr then s.isSet (TIL_GRANTBASE_W t w) else s.isSet (TIL_GRANTBASE_R t w))
      && decide (s.get (TIL_GRANTBASE_BASE t w) * 4096 ≤ a) && decide (a < (s.get (TIL_GRANTLIM_LIMIT t w) + 1) * 4096)
    (List.range 8).foldl (fun b w => if ok w then
      (match b with
        | some e => some (max e ((s.get (TIL_GRANTLIM_LIMIT t w) + 1) * 4096))
        | none => some ((s.get (TIL_GRANTLIM_LIMIT t w) + 1) * 4096)) else b) none

/-- Whether every byte of a range lies in some window that permits the access. -/
def State.windowsCover (s : State) (t : Nat) (wr : Bool) : Nat → Nat → Nat → Bool
  | 0, _, _ => false
  | fuel + 1, a, e =>
      decide (e ≤ a) || (s.windowEnd t a wr).any fun x => s.windowsCover t wr fuel x e

/-- Whether a range meets the partner-mirror area while LPC_MIRCTL.LOCK keeps writers out (R209). -/
def State.locked (s : State) (a n : Nat) : Bool :=
  s.isSet LPC_MIRCTL_LOCK && decide (a < tier2End) && decide (mirrorBase < a + n)

/-- Whether queue `q` may access `n` local bytes at `a`. -/
def State.granted (s : State) (q a n : Nat) (wr : Bool) : Bool :=
  rangePopulated a n && !(wr && s.locked a n) && (decide (120 ≤ q) || s.windowsCover (q / 5) wr 10 a (a + n))

/-! ### A queue's next command (R119, R121, R148, R171) -/

/-- The issued command a thaw runs again next. -/
def State.rerunHead (s : State) (q : Nat) : Option Issued := (s.que q).issued.find? fun e => decide (e.status = .rerun)

/-- Whether the head of a queue is a command with opcode `op` that may now start its stages.  A PARKPOINT that has not retired
holds the next command back only while a park request is pending (R143). -/
def State.atHead (s : State) (q op : Nat) : Bool :=
  let st := s.que q
  s.qstate q == qRunning && opcode (s.headCmd q).2.2 == op && ((s.rerunHead q).isSome || !st.passEnd)
    && st.lib.isNone && !st.dead && !st.parkDue
    && !(s.isSet (QUE_CTRL_PARKREQ q) && st.issued.any fun e => opcode e.word == 6 && !e.skipped && decide (e.status ≠ .rerun))

/-- Become WAITING for a reason (R145, R151). -/
def waitFor (q why flag : Nat) (s : State) : State :=
  ((s.set (QUE_STAT_STATE q) qWaiting).set (QUE_STAT_WHY q) why).set (QUE_STAT_WFLAG q) flag

/-- RUNNING again. -/
def runAgain (q : Nat) (s : State) : State :=
  ((s.set (QUE_STAT_STATE q) qRunning).set (QUE_STAT_WHY q) 0).set (QUE_STAT_WFLAG q) 0

/-- Move past the command at PC (R119). -/
def advance (q : Nat) (s : State) : State :=
  let pc := s.get (QUE_STAT_PC q) + 1
  if pc < s.get (QUE_PROG_LEN q) then s.set (QUE_STAT_PC q) pc
  else
    let s1 := (s.set (QUE_STAT_PC q) 0).inc (QUE_PASS_PASS q) 1
    let lim := s1.get (QUE_PASSLIM_PASSES q)
    if lim ≠ 0 ∧ s1.get (QUE_PASS_PASS q) = lim then s1.setQue q { s1.que q with passEnd := true } else s1

/-- A command issues: it joins the queue's issued commands, or takes its old place when a thaw runs it again. -/
def issue (q : Nat) (e : Issued) (s : State) : State :=
  let st := s.que q
  match s.rerunHead q with
  | some old =>
      s.setQue q { st with waited := false, chosen := false, issued := st.issued.map fun x => if x.uid = old.uid then e else x }
  | none => advance q (s.setQue q { st with waited := false, chosen := false, issued := st.issued ++ [e] })

/-- A fresh record of the head command. -/
def State.newIssued (s : State) (q : Nat) : Issued :=
  let h := s.headCmd q
  { idx := h.1, pass := h.2.1, word := h.2.2, uid := s.nextUid, step := s.step40 (homeSet q), seed := s.seed }

def bumpUid (s : State) : State := { s with nextUid := s.nextUid + 1 }

/-- Freeze a queue at its head command, which will run again: the event, then the freeze with RESUME 0. -/
def freezeHead (q code : Nat) (detail : Nat) (s : State) : State :=
  freezeQueue q code 0 (s.headCmd q).1 0 (eventD code (srcQueue q) detail (s.setQue q { s.que q with waited := false, chosen := false }))

/-- SOURCE of an event a queue's engine detects (R436). -/
def srcEngine (q : Nat) : Nat := if q < 120 then srcTile (q / 5) (q % 5) 0 else srcQueue q

/-- Freeze a queue at its head command for a check of its engine, RESUME 0 (R147). -/
def freezeEngineD (q code detail : Nat) (s : State) : State :=
  freezeQueue q code 0 (s.headCmd q).1 0 (eventD code (srcEngine q) detail (s.setQue q { s.que q with waited := false, chosen := false }))
def freezeEngine (q code : Nat) (s : State) : State := freezeEngineD q code 0 s

/-- Whether a command's SIGNAL goes to another device through a link flag (R128). -/
def State.signalsOut (s : State) (q : Nat) (w : CmdBits) : Bool :=
  let g := homeSet q
  let f := cmdGet w 41 9
  let k := f - 496
  decide (496 ≤ f) && cmdGet w 50 8 != 0 && s.isSet (TIL_FLAGLINK_EN g k) && s.get (TIL_FLAGLINK_DSTDEV g k) != s.devId

/-- What a command's work makes of its issue. -/
inductive Issue where
  | issued (e : Issued)                    -- it has issued
  | held                                   -- it has not: it froze, or waits

/-- The commands issued before the head command that have not retired. -/
def State.earlier (s : State) (q : Nat) : List Issued := (s.que q).issued.takeWhile fun e => decide (e.status ≠ .rerun)

/-- Whether the predicate may be read: every earlier SETPRED of the queue has retired (R121, R135). -/
def State.predReady (s : State) (q : Nat) : Bool := !(s.earlier q).any fun e => opcode e.word == 3

/-- Whether the earlier commands a command must follow have retired: all of them for the commands that begin only
then (R122) and for any command of a QCOL queue (R315), an unretired SETPRED for any (R121). -/
def State.mayBegin (s : State) (q : Nat) (serial : Bool) : Bool :=
  if serial || (decide (120 ≤ q) && decide (q < 124)) then (s.earlier q).isEmpty else s.predReady q

/-- Whether a park request is honoured before the head command: with QUE_PARK.ANY, before a command that has not issued
yet; commands that a thaw runs again run first, as PARKED asks that every issued command has retired (R169, R171; log
entry 26). -/
def State.parksHere (s : State) (q : Nat) : Bool :=
  s.isSet (QUE_CTRL_PARKREQ q) && s.isSet (QUE_PARK_ANY q) && (s.rerunHead q).isNone

/-- Whether the fetch of the next command meets an uncorrectable line; a command that a thaw runs again is not fetched anew. -/
def State.fetchFails (s : State) (q : Nat) : Bool := (s.rerunHead q).isNone && (s.que q).bad.contains (s.get (QUE_STAT_PC q) / 2)

/-- The stages of R121 for the head command of queue `q`, if its opcode is `op`: a gated tile is woken first, a
freeze due at this boundary takes place, a fetch that fails freezes the queue again after every thaw (R430), the WAIT is met or waited for, the predicate is read once no earlier SETPRED is
unretired, and the work issues, once the commands it must follow have retired, or the command is skipped.  `work` answers
the state and whether the command has issued. -/
def runHead (q op : Nat) (serial : Bool) (work : Issued → State → State × Issue) (s : State) : State :=
  if !s.atHead q op then s
  else if !s.awake q then wakeTile (q / 5) s
  else
    let g := homeSet q
    let e := s.newIssued q
    let st := s.que q
    match st.pendingFreeze with
    | some (code, cmd) => freezeQueue q code 1 cmd 0 (s.setQue q { st with pendingFreeze := none })
    | none =>
      if s.parksHere q then s
      else if s.fetchFails q then freezeHead q 0x300C 0 s
      else if hdrWaitFlag e.word ≠ 0 ∧ !st.waited ∧ !s.waitMet g (hdrWaitFlag e.word) (hdrWaitValue e.word) e.pass then
        waitFor q 0 (hdrWaitFlag e.word) s
      else if !st.chosen && !s.predReady q then s.setQue q { st with waited := true }
      else if s.signalsOut q e.word && !s.armed then freezeHead q 0x600E 0 s
      else if !st.chosen && !s.executes g e.word then issue q { e with skipped := true } (bumpUid s)
      else if !s.mayBegin q serial then s.setQue q { st with waited := true, chosen := true }
      else
        let r := work e (bumpUid s)
        match r.2 with
        | .issued e => issue q e r.1
        | .held => r.1

/-! ### Retiring (R80, R119, R122, R128, R129) -/

/-- Send a SIGNAL on through an enabled link flag: to another set of this device, or to another device. -/
def forwardSignal (q f v cmd : Nat) (s : State) : State :=
  let g := homeSet q
  let k := f - 496
  if f < 496 ∨ !s.isSet (TIL_FLAGLINK_EN g k) then s
  else
    let dev := s.get (TIL_FLAGLINK_DSTDEV g k)
    let set := if s.isSet (TIL_FLAGLINK_DSET g k) then 24 else s.get (TIL_FLAGLINK_DTILE g k)
    let flag := s.get (TIL_FLAGLINK_DFLAG g k)
    let rgen := s.get (TIL_FLAGLINK_RGEN g k)
    if dev = s.devId then
      if rgen = s.get GLB_ROLEGEN_RGEN then (if set < 25 then addFlag set flag v (accessSet set s) else s)
      else freezeSoon q 0x3005 cmd (event 0x3005 (srcQueue q) (s.set (TIL_FLAGLINK_STALE g k) 1))
    else sendMessage dev kReq [mkCell ctSignal dev s.devId 0 0 (signalPay rgen set v flag)] (.signal q k cmd) s

/-- A command's SIGNAL. -/
def doSignal (q : Nat) (e : Issued) (s : State) : State :=
  let f := cmdGet e.word 41 9
  let v := cmdGet e.word 50 8
  if v = 0 then s else forwardSignal q f v e.idx (addFlag (homeSet q) f v s)

/-- The oldest issued command retires, if its work is complete: it counts, signals, freezes its queue where a freeze
is due at its retirement, and the queue becomes IDLE after its last pass. -/
def retireOne (q : Nat) (s : State) : State :=
  let st := s.que q
  match st.issued with
  | [] => s
  | e :: rest =>
      if e.status ≠ .done then s
      else
        let s0 := match e.record with
          | some (a, v) => s.write a (natBytes 8 v)
          | none => s
        let s1 := s0.setQue q { st with issued := rest }
        let s2 := s1.inc (QUE_CMDCNT_CNT q) 1
        let s3 := showEngine q (if e.signalled then s2 else doSignal q e s2)
        let s4 := if opcode e.word = 6 ∧ !e.skipped ∧ rest = [] ∧ s3.isSet (QUE_CTRL_PARKREQ q) then s3.setQue q { s3.que q with parkDue := true } else s3
        let s5 := match e.freeze with
          | some code => freezeQueue q code 1 e.idx 0 s4
          | none => s4
        if rest = [] ∧ (s5.que q).passEnd ∧ s5.qstate q = qRunning then
          (s5.set (QUE_STAT_STATE q) qIdle).set (QUE_CTRL_PARKREQ q) 0
        else s5

end Sys2Proof.Machine
end

