-- ==== Sys2Proof/Machine/Units.lean ====
section
/-! DEFINITION. The function units of the drain and the lanes (R76, R77, R97, R99).  The spec gives each function and an
accuracy, not the bits: the exact value is found here to some 500 bits, and the unit's value is a free choice in the
narrow cell of numbers that holds it, so that it keeps the bound and is monotonic wherever the function is (log entry
56). -/

namespace Sys2Proof.Machine.Units

/-! ### Fixed point: integers in units of 2⁻⁵¹² -/

def one : Int := 2 ^ 512
def fmul (a b : Int) : Int := a * b / one
def fdiv (a b : Int) : Int := a * one / b

/-- ln 2, 1/√2, √(2/π), 1/√(2π) and 2/√π. -/
def ln2 : Int := 0xb17217f7d1cf79abc9e3b39803f2f6af40f343267298b62d8a0d175b8baafa2be7b876206debac98559552fb4afa1b10ed2eae35c138214427573b291169b825
def invSqrt2 : Int := 0xb504f333f9de6484597d89b3754abe9f1d6f60ba893ba84ced17ac85833399154afc83043ab8a2c3a8b1fe6fdc83db390f74a85e439c7b4a780487363dfa2768
def sqrt2DivPi : Int := 0xcc42299ea1b284687e59e2805d5c717fa7053e60a24e0db1808e369004c73a5d3bf158aa88fa7b6e47eba75766e9d11bd6284ef2e17c2a264f1d32688be119ff
def invSqrt2Pi : Int := 0x662114cf50d942343f2cf1402eae38bfd3829f30512706d8c0471b4802639d2e9df8ac55447d3db723f5d3abb374e88deb14277970be1513278e993445f08cff
def twoDivSqrtPi : Int := 0x120dd750429b6d11ae3a914fed7fd8688281341d7587cea2e7342b06199cc416180eb39f0b24e1e2281806c12d98f35d77a3e9ddc91c394f0e9eedf0efffd84a2

/-- A number beyond which every function here stands at its limit. -/
def cap : Nat := 256

/-- A finite value in fixed point, cut to at most `cap` in magnitude. -/
def ofVal (v : Val) : Int :=
  match v with
  | .fin n m e =>
      let big := decide (8 < (Nat.log2 m : Int) + e)
      let k : Nat := if big then cap * 2 ^ 512 else min (cap * 2 ^ 512) (roundQuanta .zero m e (-512))
      if n then -(k : Int) else k
  | _ => 0

def toVal (k : Int) : Val := .fin (decide (k < 0)) k.natAbs (-512)

/-- Horner's rule on `x / n`: 1 + x/1 (1 + x/2 (1 + …)), `k` terms. -/
def taylor (x : Int) : Nat → Int → Int
  | 0, acc => acc
  | k + 1, acc => taylor x k (one + fmul x acc / (k + 1 : Nat))

/-- e to −x, for x ≥ 0. -/
def expNeg (x : Int) : Int := taylor (-(x % ln2)) 110 one / 2 ^ (x / ln2).toNat

/-- Σ z^(2k+1) / (2k + 1) over `k` terms. -/
def atanhSum (z2 : Int) : Nat → Int → Nat → Int
  | 0, _, _ => 0
  | k + 1, p, d => p / (d : Int) + atanhSum z2 k (fmul p z2) (d + 2)

/-- ln of m · 2^e, for m > 0. -/
def ln (m : Nat) (e : Int) : Int :=
  let l := Nat.log2 m
  let t : Int := if l ≤ 512 then (m : Int) * 2 ^ (512 - l) else (m : Int) / 2 ^ (l - 512)
  let z := fdiv (t - one) (t + one)
  2 * atanhSum (fmul z z) 170 z 1 + (e + l) * ln2

/-- tanh of x ≥ 0. -/
def tanhPos (x : Int) : Int := let a := expNeg (2 * x); fdiv (one - a) (one + a)
def tanh (x : Int) : Int := if x < 0 then -tanhPos (-x) else tanhPos x

/-- σ(x) = 1 / (1 + e^(−x)). -/
def sigmoid (x : Int) : Int :=
  if x < 0 then (let a := expNeg (-x); fdiv a (one + a)) else fdiv one (one + expNeg x)

/-- Terms of Σ 2ⁿ x^(2n+1) / (1 · 3 · … · (2n + 1)); `fuel` bounds them. -/
def erfSum (x2 : Int) : Nat → Int → Nat → Int
  | 0, _, _ => 0
  | k + 1, p, d => if p = 0 then 0 else p + erfSum x2 k (2 * fmul p x2 / (d : Int)) (d + 2)

/-- erf of x ≥ 0: from 14 on, where erfc is below 2⁻²⁸⁰, its limit. -/
def erfPos (x : Int) : Int :=
  if 14 * one ≤ x then one
  else fmul twoDivSqrtPi (fmul (expNeg (fmul x x)) (erfSum (fmul x x) 1400 x 3))
def erf (x : Int) : Int := if x < 0 then -erfPos (-x) else erfPos x

/-- Φ(x) and φ(x) of the normal distribution. -/
def normCdf (x : Int) : Int := (one + erf (fmul x invSqrt2)) / 2
def normPdf (x : Int) : Int := fmul invSqrt2Pi (expNeg (fmul x x / 2))

/-- u = √(2/π) (x + 0.044715 x³) of the tanh form of GELU. -/
def geluArg (x : Int) : Int := fmul sqrt2DivPi (x + fmul x (fmul x x) * 44715 / 1000000)

/-- The functions of R76 by their codes. -/
def drain (code : Nat) (x : Int) : Int :=
  let th := tanh (geluArg x)
  let sg := sigmoid x
  if code = 0x3 then fmul x ((one + th) / 2)
  else if code = 0x4 then fmul x (normCdf x)
  else if code = 0x5 then fmul x sg
  else if code = 0x6 then sg
  else if code = 0x7 then tanh x
  else if code = 0xB then
    (one + th) / 2 + fmul (fmul x (one - fmul th th) / 2) (fmul sqrt2DivPi (one + fmul x x * 134145 / 1000000))
  else if code = 0xC then normCdf x + fmul x (normPdf x)
  else if code = 0xD then fmul sg (one + fmul x (one - sg))
  else if code = 0xE then fmul sg (one - sg)
  else one - fmul (tanh x) (tanh x)

/-! ### The exact values -/

/-- A drain function of a finite argument: beyond `cap` GELU and SiLU are x, or 0 from below. -/
def drainExact (code : Nat) (x : Val) : Val :=
  match x with
  | .fin n m e =>
      if code ∈ [0x3, 0x4, 0x5] ∧ 8 < (Nat.log2 m : Int) + e ∧ m ≠ 0 then (if n then .fin true 0 0 else x)
      else toVal (drain code (ofVal x))
  | v => v

/-- Integer square root by bits: `n` bits below `2^n`. -/
def isqrt : Nat → Nat → Nat → Nat
  | 0, _, r => r
  | n + 1, x, r => let c := r + 2 ^ n; isqrt n x (if c * c ≤ x then c else r)

/-- e^x of a finite value, to 2¹⁰²⁴ and more beyond the formats' range. -/
def expExact (x : Val) : Val :=
  let k := ofVal x
  if 0 ≤ k then .fin false (taylor (k % ln2) 110 one).toNat ((k / ln2) - 512)
  else .fin false (taylor (-((-k) % ln2)) 110 one).toNat (-((-k) / ln2) - 512)

/-- The element engine's units: RCP, RSQ, EXP, LOG, TANH, ERF and SIGM of a finite argument in their domain. -/
def laneExact (op : Nat) (x : Val) : Val :=
  match x with
  | .fin n m e =>
      if op = 0x10 then .fin n (2 ^ (Nat.log2 m + 128) / m) (-e - (Nat.log2 m + 128))
      else if op = 0x11 then
        let k : Nat := if e % 2 = 0 then 256 else 257
        let r := isqrt ((Nat.log2 m + k) / 2 + 1) (m * 2 ^ k) 0
        .fin false (2 ^ (Nat.log2 r + 128) / r) (-((e - k) / 2) - (Nat.log2 r + 128))
      else if op = 0x13 then expExact x
      else if op = 0x14 then toVal (ln m e)
      else if op = 0x15 then toVal (tanh (ofVal x))
      else if op = 0x16 then toVal (erf (ofVal x))
      else toVal (sigmoid (ofVal x))
  | v => v

/-- −ln(−ln U) for U = (2 · pair + 1) · 2⁻³³ (R99). -/
def gumbelExact (pair : Nat) : Val :=
  let l := -(ln (2 * pair + 1) (-33))
  toVal (-(ln l.toNat (-512)))

/-! ### The units' values -/

/-- The unit's value of an exact value y: a free point in the cell that holds y.  Cells are 2⁻²³ of their binade wide, and
2⁻¹²⁷ near 0, so the point lies within 2⁻²³ |y| + 2⁻¹²⁷ of y, and a greater y never gives a smaller point. -/
def freePoint (unit : Nat) (y : Val) : Val :=
  match y with
  | .fin n m e =>
      let q : Int := if m = 0 then -127 else max ((Nat.log2 m : Int) + e - 23) (-127)
      let k := if m = 0 then 0 else roundQuanta .zero m e q
      .fin n (k * 256 + (Config.unitPoint unit (n, k, q)).toNat) (q - 8)
  | v => v

end Sys2Proof.Machine.Units
end

