-- ==== Sys2Proof/Machine/Numeric.lean ====
section
/-! DEFINITION. Elements in memory, random draws, and the functions of the drain (R38, R40, R49, R51, R76, R77). -/

namespace Sys2Proof.Machine

/-! ### Elements in memory (R38) -/

/-- Bytes that `n` elements of a format take. -/
def elemBytes (fmt n : Nat) : Nat := (n * fmtBits fmt + 7) / 8

/-- The bits of element `i` of an array of a format, of memory read through `rd`. -/
def bitsThrough (rd : Nat → Byte) (a fmt i : Nat) : Nat :=
  if fmtBits fmt = 4 then getBits (rd (a + i / 2)).toNat (4 * (i % 2)) 4
  else
    let w := fmtBits fmt / 8
    leNat ((List.range w).map fun k => (rd (a + i * w + k)).toNat)

/-- The value of element `i` of an array: unscaled, or under the scale byte at `sc` (R40). -/
def valThrough (rd : Nat → Byte) (a fmt i : Nat) (sc : Option Nat) : Val :=
  match sc with
  | some x => decodeScaled fmt (rd x).toNat (bitsThrough rd a fmt i)
  | none => decodeElem fmt (bitsThrough rd a fmt i)

def State.elemBits (s : State) (a fmt i : Nat) : Nat := bitsThrough s.delivered a fmt i
def State.elemVal (s : State) (a fmt i : Nat) (sc : Option Nat) : Val := valThrough s.delivered a fmt i sc

/-- Elements packed into bytes (R38). -/
def packElems (fmt : Nat) (es : List Nat) : List Byte :=
  let b := fmtBits fmt
  natBytes (elemBytes fmt es.length) ((es.zipIdx).foldl (fun v e => v + e.1 % 2 ^ b * 2 ^ (b * e.2)) 0)

/-- The signed value of a `w`-bit field. -/
def signed (w v : Nat) : Int := if v < 2 ^ (w - 1) then v else (v : Int) - 2 ^ w

/-- An address displaced by a signed amount; an address below 0 becomes one outside every region. -/
def displace (a : Nat) (d : Int) : Nat := if 0 ≤ (a : Int) + d then ((a : Int) + d).toNat else 2 ^ 48

/-! ### Random draws (R49 to R51) -/

/-- The stream ID of a conversion point. -/
def streamId (source unit sid : Nat) : Nat := source * 2 ^ 19 + unit * 2 ^ 16 + sid % 65536

/-- The draws of a stream at the STEP of set `g`. -/
def State.draws (s : State) (g stream : Nat) (idx : Nat) : Nat := rngDraw s.seed stream (s.step40 g) idx

/-! ### Values -/

/-- The drain's functions: exact for ReLU, squared ReLU and their derivatives; otherwise the unit's value of the function's
exact value, with the limits at the infinities (R76, R77; log entry 56). -/
def drainApply (code : Nat) (x : Val) : Val :=
  match x with
  | .nan => .nan
  | .inf neg =>
      if code < 8 then
        (if neg then (if code = 7 then .fin true 1 0 else Val.zero) else if code ≤ 5 then .inf false else Val.one)
      else if neg then Val.zero
      else if code = 0xA then .inf false
      else if code = 0xE ∨ code = 0xF then Val.zero else Val.one
  | .fin n m e =>
      let pos := !n && m != 0
      if code = 1 then (if pos then x else Val.zero)
      else if code = 2 then (if pos then x.mul x else Val.zero)
      else if code = 9 then (if pos then Val.one else Val.zero)
      else if code = 0xA then (if pos then .fin false m (e + 1) else Val.zero)
      else Units.freePoint code (Units.drainExact code x)

end Sys2Proof.Machine
end

