-- ==== Sys2Proof/Machine/Matrix.lean ====
section
/-! DEFINITION. The matrix commands MMF, MMBI and MMBW, their hazards, parity faults and ballast (R42 to R45, R61 to
R87). -/

namespace Sys2Proof.Machine

/-! ### Modes (R42, R61) -/

/-- The array mode a pair of formats selects: 0 BF16, 1 FP8, 2 FP8 block, 3 INT8, 4 FP4, 5 FP32. -/
def arrayMode (w x : Nat) : Nat :=
  if w = fFP32 ∧ x = fFP32 then 5
  else if w = fE4M3 ∨ w = fE5M2 then 1
  else if w = fBE4M3 ∨ w = fBE5M2 then 2
  else if w = fINT8 then 3
  else if w = fBE2M1 then 4
  else 0

/-- Contraction values of a stationary tile. -/
def modeDepth (mode : Nat) : Nat := if mode = 4 then 512 else if mode = 0 ∨ mode = 5 then 128 else 256
/-- Contraction values of a cell group. -/
def modeGroup (mode : Nat) : Nat := if mode = 0 ∨ mode = 5 then 16 else 32
def modeBlocks (mode : Nat) : Bool := mode == 2 || mode == 4

/-! ### The command and its auxiliary descriptor (R64, R65) -/

/-- A matrix command. -/
structure MxCmd where
  op : Nat                                 -- 0x10 MMF, 0x11 MMBI, 0x12 MMBW
  cvt : Cvt
  wfmt : Nat
  xfmt : Nat
  epi : Nat
  bank : Nat
  acc : Bool
  loadw : Bool
  csc : Bool
  rows : Nat
  row0 : Nat
  masken : Bool
  hen : Bool
  xpitch : Nat
  rep : List Nat                           -- repetitions in each dimension
  kdim : Nat

def MxCmd.ofWord (w : CmdBits) : MxCmd :=
  { op := opcode w, cvt := Cvt.ofBits (cmdGet w 64 16), wfmt := cmdGet w 80 4, xfmt := cmdGet w 84 4,
    epi := cmdGet w 88 4, bank := cmdGet w 92 1, acc := cmdGet w 93 1 == 1, loadw := cmdGet w 94 1 == 1,
    csc := cmdGet w 95 1 == 1, rows := cmdGet w 96 11 + 1, row0 := cmdGet w 107 11, masken := cmdGet w 118 1 == 1,
    hen := cmdGet w 119 1 == 1, xpitch := cmdGet w 176 12 * 32,
    rep := [cmdGet w 216 8 + 1, cmdGet w 224 8 + 1, cmdGet w 232 8 + 1], kdim := cmdGet w 240 2 }

def MxCmd.mode (c : MxCmd) : Nat := arrayMode c.wfmt c.xfmt
def MxCmd.depth (c : MxCmd) : Nat := modeDepth c.mode
def MxCmd.passes (c : MxCmd) : Nat := if c.mode = 5 then 3 else 1
def MxCmd.reps (c : MxCmd) : Nat := c.rep.foldl (· * ·) 1

/-- The auxiliary descriptor's words. -/
def State.auxWord (s : State) (a i : Nat) : Nat := s.readNat (a + 4 * i) 4

/-- The index of linear repetition `n` in dimension `d`. -/
def MxCmd.index (c : MxCmd) (n d : Nat) : Nat :=
  let r0 := c.rep.getD 0 1
  let r1 := c.rep.getD 1 1
  if d = 0 then n % r0 else if d = 1 then n / r0 % r1 else n / (r0 * r1)

/-- Where one repetition's operands lie: absolute local addresses, and its place in the command (R66). -/
structure MxRep where
  n : Nat
  w : Nat
  x : Nat
  wsc : Nat
  xsc : Nat
  h : Nat
  cs : Nat
  bank : Nat
  wipes : Bool                             -- the bank is overwritten, not accumulated into
  epilogue : Bool
  wpitch : Nat
  wscPitch : Nat
  xscPitch : Nat
  hpitch : Nat
  hfmt : Nat

/-- The repetition `n` of a command of tile `t` whose W and X are at local addresses `w`, `x` and whose descriptor's
words are `wd`. -/
def mxRep (t : Nat) (c : MxCmd) (w x : Nat) (wd : Nat → Nat) (n : Nat) : MxRep :=
  let sum (f : Nat → Int) : Int := (List.range 3).foldl (fun a d => a + (c.index n d : Int) * f d) 0
  let str (k lo : Nat) (d : Nat) : Int := signed 16 (getBits (wd (k + 4 * d)) lo 16)
  let base (v : Nat) : Nat := padBase t + getBits v 0 20 * 32
  let bankx := (List.range 3).foldl (fun a d => a + c.index n d * getBits (wd (11 + 4 * d)) 0 1) 0
  let dense := if c.op = 0x11 then elemBytes c.wfmt c.depth else elemBytes c.wfmt 128
  let k := if c.kdim = 3 then 0 else c.index n c.kdim
  { n := n
    w := displace w (32 * sum (str 8 0)), x := displace x (32 * sum (str 8 16))
    wsc := displace (base (wd 0)) (sum (str 10 0)), xsc := displace (base (wd 1)) (sum (str 10 16))
    h := displace (base (wd 2)) (32 * sum (str 9 0)), cs := displace (base (wd 3)) (32 * sum (str 9 16))
    bank := (c.bank + bankx) % 2
    wipes := !c.acc && k == 0
    epilogue := c.kdim == 3 || k + 1 == c.rep.getD c.kdim 1
    wpitch := if getBits (wd 4) 20 12 = 0 then dense else getBits (wd 4) 20 12 * 32
    wscPitch := getBits (wd 0) 20 12, xscPitch := getBits (wd 1) 20 12
    hpitch := getBits (wd 2) 20 12 * 32, hfmt := getBits (wd 3) 20 4 }

/-! ### Masks (R79) -/

/-- Whether command row `r` is masked by bitmap `m`. -/
def rowMasked (m r : Nat) : Bool := m.testBit (r / 16)
/-- The output tiles fed: those with a group of command rows that is not masked. -/
def fedTiles (m rows : Nat) : List Nat :=
  (List.range ((rows + 127) / 128)).filter fun j => (List.range 8).any fun g => decide (128 * j + 16 * g < rows) && !m.testBit (8 * j + g)
/-- The command rows fed, in order. -/
def fedRows (m rows : Nat) : List Nat := (List.range rows).filter fun r => (fedTiles m rows).contains (r / 128)

/-! ### Ranges of the operands (R67) -/

/-- An array of rows: start, rows, pitch and bytes a row. -/
structure Rows where
  a : Nat
  n : Nat
  pitch : Nat
  len : Nat

/-- The row ranges of an array. -/
def Rows.ranges (r : Rows) : List (Nat × Nat) := (List.range r.n).map fun i => (r.a + i * r.pitch, r.len)

/-- The stationary source of a repetition. -/
def MxRep.wRows (p : MxRep) (c : MxCmd) : Rows :=
  if c.op = 0x11 then ⟨p.w, 128, p.wpitch, elemBytes c.wfmt c.depth⟩ else ⟨p.w, c.depth, p.wpitch, elemBytes c.wfmt 128⟩
/-- The streamed source. -/
def MxRep.xRows (p : MxRep) (c : MxCmd) : Rows :=
  if c.op = 0x12 then ⟨p.x, c.depth, c.xpitch, elemBytes c.xfmt c.rows⟩ else ⟨p.x, c.rows, c.xpitch, elemBytes c.xfmt c.depth⟩
/-- The streamed rows that are read: those of fed tiles, or for MMBW the fed chunks of 128 elements of each source row (R67,
R79). -/
def MxRep.xRanges (p : MxRep) (c : MxCmd) (mask : Nat) : List (Nat × Nat) :=
  if c.op = 0x12 then (fedTiles mask c.rows).flatMap fun j =>
      (List.range c.depth).map fun k => (p.x + k * c.xpitch + elemBytes c.xfmt (128 * j), elemBytes c.xfmt 128)
  else (fedRows mask c.rows).map fun r => (p.x + r * c.xpitch, elemBytes c.xfmt c.depth)

def MxRep.wscRows (p : MxRep) (c : MxCmd) : Rows := ⟨p.wsc, c.depth / 32, p.wscPitch, 128⟩
/-- The scale rows of the streamed rows that are read. -/
def MxRep.xscRanges (p : MxRep) (c : MxCmd) (mask : Nat) : List (Nat × Nat) :=
  (fedRows mask c.rows).map fun r => (p.xsc + r * p.xscPitch, c.depth / 32)
def MxRep.hRows (p : MxRep) (c : MxCmd) : Rows := ⟨p.h, c.rows, p.hpitch, elemBytes p.hfmt 128⟩

/-- What a repetition reads: nothing where every tile is masked; no stationary operand without LOADW (R67, R79). -/
def MxRep.readRanges (p : MxRep) (c : MxCmd) (mask : Nat) : List (Nat × Nat) :=
  if fedTiles mask c.rows = [] then []
  else
    (if c.loadw then (p.wRows c).ranges else []) ++ p.xRanges c mask
      ++ (if modeBlocks c.mode then (if c.loadw then (p.wscRows c).ranges else [])
            ++ p.xscRanges c mask else [])
      ++ (if c.hen && c.op == 0x11 && p.epilogue then (p.hRows c).ranges else [])
      ++ (if c.csc && p.epilogue then [(p.cs, 512)] else [])

/-- Every range a repetition accesses: what it reads, and the H rows that MMF writes. -/
def MxRep.ranges (p : MxRep) (c : MxCmd) (mask : Nat) : List (Nat × Nat) :=
  p.readRanges c mask ++ (if c.hen && c.op == 0x10 && p.epilogue then (p.hRows c).ranges else [])

/-- Whether a range lies in tile `t`'s own scratchpad (R68). -/
def inPad (t a n : Nat) : Bool := decide (padBase t ≤ a) && decide (a + n ≤ padBase t + padSize)

/-- Whether a block-scaled array's row starts are aligned (R39). -/
def Rows.aligned (r : Rows) (fmt : Nat) : Bool :=
  !fmtIsBlock fmt || (List.range r.n).all fun i => (r.a + i * r.pitch) % (if fmtBits fmt = 4 then 16 else 32) == 0

/-- Whether the row starts of the operands that a repetition reads are aligned. -/
def MxRep.aligned (p : MxRep) (c : MxCmd) (mask : Nat) : Bool :=
  fedTiles mask c.rows == [] || ((!c.loadw || (p.wRows c).aligned c.wfmt) && (p.xRows c).aligned c.xfmt)

/-! ### The array (R43 to R45) -/

/-- hi and lo of an FP32 element (R45). -/
def hiPart (v : Val) : Val :=
  match v with
  | .fin _ _ _ => (floatFmt fBF16).decode ((floatFmt fBF16).convert .zero true v).bits
  | v => v
def loPart (v : Val) : Val :=
  match v with
  | .fin _ _ _ => (floatFmt fBF16).decode ((floatFmt fBF16).convert .nearest false (f32 (f32Round (v.sub (hiPart v))))).bits
  | _ => Val.zero

/-- The exact sum of products of one cell group. -/
def groupSum : List (Val × Val) → Val
  | [] => Val.zero
  | [p] => p.1.mul p.2
  | p :: ps => (p.1.mul p.2).add (groupSum ps)

/-- A column's output: groups flow down it from +0, one rounding each; exact in INT8 mode (R43, R44). -/
def columnOut (mode : Nat) (ws xs : List Val) : Val :=
  let pairs (l : List Val) (i : Nat) := (l.drop (i * modeGroup mode)).take (modeGroup mode)
  (List.range (ws.length / modeGroup mode)).foldl (fun sum i =>
    let g := groupSum ((pairs ws i).zip (pairs xs i))
    if mode = 3 then sum.add g else f32 (f32Round (sum.add g))) Val.zero

/-- Stationary element (k, c) of a loaded tile: contraction index major, kept with its scale bytes. -/
def MxSt.weight (e : MxSt) (k c : Nat) : Val :=
  let b := e.tile.getD (k * 128 + c) 0
  if fmtIsBlock e.fmt then decodeScaled e.fmt (e.tileScale.getD (k / 32 * 128 + c) 0) b else decodeElem e.fmt b

/-- Load the stationary tile of a repetition (R62, R67). -/
def loadTile (k : Nat) (c : MxCmd) (p : MxRep) (s : State) : State :=
  let e := s.mxe k
  let d := c.depth
  let elem (i : Nat) : Nat :=
    let kk := i / 128
    let col := i % 128
    if c.op = 0x11 then s.elemBits (p.w + col * p.wpitch) c.wfmt kk else s.elemBits (p.w + kk * p.wpitch) c.wfmt col
  let ranges := (p.wRows c).ranges ++ (if modeBlocks c.mode then (p.wscRows c).ranges else [])
  s.setMxe k { e with
    mode := c.mode, fmt := c.wfmt,
    tile := (List.range (d * 128)).map elem,
    tileScale := if modeBlocks c.mode then (List.range (d / 32 * 128)).map (fun i => (s.delivered (p.wsc + i / 128 * p.wscPitch + i % 128)).toNat) else [],
    tilePoison := ranges.any fun x => s.readPoison x.1 x.2 }

/-- Streamed element (r, k). -/
def State.streamVal (s : State) (c : MxCmd) (p : MxRep) (r k : Nat) : Val :=
  let sc := if modeBlocks c.mode then some (p.xsc + r * p.xscPitch + k / 32) else none
  if c.op = 0x12 then s.elemVal (p.x + k * c.xpitch) c.xfmt r sc else s.elemVal (p.x + r * c.xpitch) c.xfmt k sc

/-- Whether a line that feeds streamed row `r` is poisoned (R74). -/
def State.streamPoison (s : State) (c : MxCmd) (p : MxRep) (r : Nat) : Bool :=
  (if c.op = 0x12 then (List.range c.depth).any fun k => s.readPoison (p.x + k * c.xpitch + r * fmtBits c.xfmt / 8) 1
   else s.readPoison (p.x + r * c.xpitch) (elemBytes c.xfmt c.depth))
  || (modeBlocks c.mode && s.readPoison (p.xsc + r * p.xscPitch) (c.depth / 32))

/-! ### A run of a command -/

/-- What a command has done so far. -/
structure MxRun where
  s : State
  time : Nat                               -- the next ACLK cycle the array is free
  tally : Tally := {}
  groups : List (Nat × Bool × List (BitVec 32)) := []
  lines : List (Nat × Bool × List Byte) := []
  fedBefore : Nat := 0                     -- fed rows of the repetition before
  load : Nat := 0                          -- load and fill cycles
  fed : Nat := 0                           -- cycles with a fed row
  hazard : Bool := false
  psn : Bool := false
  consumed : Nat := 0                      -- poisoned lines consumed (R74)
  marks : List (Nat × Nat) := []           -- groups and lines begun after each row
  entryOf : Issued

/-- The group key of a bank row key's row: 16 rows a group (R73). -/
def groupOfRow (t m b row : Nat) : Nat := ((t * 2 + m) * 2 + b) * 128 + row / 16

/-- Note a group before it is first written. -/
def noteGroup (g : Nat) (r : MxRun) : MxRun :=
  if r.groups.any (·.1 == g) then r
  else { r with groups := r.groups ++ [(g, r.s.groupValid g, (List.range 2048).map fun i => r.s.entry (g * 16 + i / 128) (i % 128))] }

/-- Note a memory line before it is first written. -/
def noteLine (ls : List (Nat × Bool × List Byte)) (l : Nat) (s : State) : List (Nat × Bool × List Byte) :=
  if ls.any (·.1 == l) then ls else ls ++ [(l, s.poisoned l, s.bytes (l * 64) 64)]

/-- Record a hazard (R80): queue `q` of number `qn` in its tile met a pending row of engine `m`. -/
def recordHazard (t m qn cmd b row : Nat) (element : Bool) (s : State) : State :=
  let empty := !s.isSet (MXE_STAT_HAZ t m) && !s.isSet (MXE_STAT_ELEHAZ t m)
  let st := s.step40 t % 65536
  let v := row + element.toNat * 2 ^ 14 + b * 2 ^ 15 + cmd * 2 ^ 16 + qn * 2 ^ 29 + st * 2 ^ 48
  let s1 := if empty then s.wr (aMXE_HAZREC t m) (BitVec.ofNat 64 v) else s
  let s2 := if element then s1.set (MXE_STAT_ELEHAZ t m) 1 else s1.set (MXE_STAT_HAZ t m) 1
  recordEvent 0x1001 (srcTile t m 0) (s2.rd (aMXE_HAZREC t m)) s2

/-- The last of some writes to land; of two that land together the later one recorded. -/
def lastLanding (ws : List Landing) : Option Landing :=
  ws.foldl (fun b w => match b with
    | some x => if x.land ≤ w.land then some w else some x
    | none => some w) none

/-- Entry `c` of a bank row as an access at cycle `at_` meets it: what the writes landed by then have left (R72, R80). -/
def State.bankSeen (s : State) (rk at_ c : Nat) : BitVec 32 :=
  let l := tabGet (fun _ => {}) s.landings rk
  if l.writes = [] then s.entry rk c
  else match lastLanding (l.writes.filter fun w => decide (w.land ≤ at_)) with
    | some w => w.bits.getD c 0
    | none => l.base.getD c 0

/-- Whether a bank row is pending at a cycle. -/
def State.pendingAt (s : State) (rk at_ : Nat) : Bool :=
  (tabGet (fun _ => {}) s.landings rk).writes.any fun w => decide (w.rise ≤ at_) && decide (at_ < w.land)

/-- A write of a whole bank row, pending from `rise` until it lands; those landed by cycle `past` join what the row held.  Of
writes in flight, the one that lands last stands. -/
def writeRow (rk past rise land : Nat) (bits : List (BitVec 32)) (s : State) : State :=
  let l := tabGet (fun _ => {}) s.landings rk
  let held := l.writes.filter fun w => decide (past < w.land)
  let base := match lastLanding (l.writes.filter fun w => decide (w.land ≤ past)) with
    | some w => w.bits
    | none => if l.writes = [] then (List.range 128).map fun c => s.entry rk c else l.base
  let s1 := if held.all fun w => decide (w.land ≤ land) then (bits.zipIdx).foldl (fun s b => s.setEntry rk b.2 b.1) s else s
  { s1 with landings := tabPut (fun _ => {}) s1.landings rk { base := base, writes := held ++ [{ rise := rise, land := land, bits := bits }] } }

/-- One entry through the drain (R44, R75): the bank's new bits, and what is written to H if it is.  In INT8 mode with CSC = 1
the spec leaves open whether the sum first saturates to INT32 (R44) before it is scaled: the model scales the exact sum,
and nothing counts before the final rounding (DESIGN CHOICE, log entry 57). -/
def drainEntry (c : MxCmd) (p : MxRep) (last : Bool) (idx : Nat) (draw hdraw : Nat → Nat) (old : BitVec 32) (col cs h : Val)
    (t : Tally) : Nat × Option Nat × Tally :=
  let int := c.mode = 3
  let epi := p.epilogue && last
  let wipes := p.wipes
  let prev := if int then decodeElem fINT32 old.toNat else f32 old.toNat
  let sum := if wipes then col else prev.add col
  let writesH := epi && c.hen && c.op == 0x10
  let toH (v : Val) : Conv := (floatFmt p.hfmt).convert (c.cvt.mode (if c.cvt.rnd = 2 then hdraw idx else 0)) c.cvt.sat v
  if int ∧ !(epi && c.csc) then
    let cv := convertInt 32 .nearest sum
    let t1 := t.count c.cvt.ovfNf idx sum cv
    if writesH then (cv.bits, some (toH sum).bits, t1.count c.cvt.ovfNf idx sum (toH sum)) else (cv.bits, none, t1)
  else
    let s1 := if epi && c.csc then sum.mul cs else sum
    let f := if !epi || c.epi == 0 then s1 else if c.epi < 8 then drainApply c.epi s1 else s1.mul (drainApply c.epi h)
    let cv := (floatFmt fFP32).convert (c.cvt.mode (if c.cvt.rnd = 2 then draw idx else 0)) c.cvt.sat f
    let t1 := t.count c.cvt.ovfNf idx f cv
    if writesH then (cv.bits, some (toH s1).bits, t1.count c.cvt.ovfNf idx s1 (toH s1)) else (cv.bits, none, t1)

/-- One output row of one pass of a repetition: array, drain, bank and H. -/
def mxRow (t m : Nat) (c : MxCmd) (p : MxRep) (past pass start f r : Nat) (masked : Bool) (sid idxBase : Nat) (run : MxRun) : MxRun :=
  if masked then run else
  let s := run.s
  let k := t * 2 + m
  let e := s.mxe k
  let last := pass + 1 == c.passes
  let row := c.row0 + r
  let rk := bankRow t m p.bank row
  let g := groupOfRow t m p.bank row
  let lat := if p.epilogue && (c.csc || c.epi != 0) then 280 else 264
  let slot := start + f + 256
  let land := start + f + lat
  let hz := s.pendingAt rk slot || s.pendingAt rk land
  let part (v : Val) (lo : Bool) : Val := if c.mode = 5 then (if lo then loPart v else hiPart v) else v
  let xs := (List.range c.depth).map fun i => part (s.streamVal c p r i) (pass == 1)
  let wipes := p.wipes && pass == 0
  let p1 := { p with wipes := wipes }
  let deriv := p.epilogue && last && decide (9 ≤ c.epi)
  let draw := s.draws t (streamId t m sid)
  let hdraw := s.draws t (streamId t m (sid ^^^ 0x8000))
  let run1 := noteGroup g { run with hazard := run.hazard || hz }
  let out := (List.range 128).foldl (fun (a : List Nat × List Nat × Tally) col =>
      let ws := (List.range c.depth).map fun i => part (e.weight i col) (pass == 2)
      let idx := idxBase + ((p.n * c.passes + pass) * c.rows + r) * 128 + col
      let cs := if c.csc then f32 (s.elemBits p.cs fFP32 col) else Val.one
      let h := if deriv then decodeElem p.hfmt (s.elemBits (p.h + r * p.hpitch) p.hfmt col) else Val.zero
      let d := drainEntry c p1 last idx draw hdraw (s.bankSeen rk slot col) (columnOut c.mode ws xs) cs h a.2.2
      (a.1 ++ [d.1], a.2.1 ++ d.2.1.toList, d.2.2)) ([], [], run.tally)
  let readsH := p.epilogue && last && c.hen && c.op == 0x11
  let hpsn := readsH && s.readPoison (p.h + r * p.hpitch) (elemBytes p.hfmt 128)
  let cpsn := p.epilogue && last && c.csc && s.readPoison p.cs 512
  let psn := s.streamPoison c p r || e.tilePoison || hpsn || cpsn
  let s2 := writeRow rk past slot land (out.1.map (BitVec.ofNat 32)) s
  let s3 := if psn then s2.setGroup g false else s2
  let s4 := if hz then recordHazard t m m run.entryOf.idx p.bank row false s3 else s3
  let hBytes := packElems p.hfmt out.2.1
  let wr := c.op == 0x10 && c.hen && p.epilogue && last
  let lines := if wr then (linesOf (p.h + r * p.hpitch) hBytes.length).foldl (fun ls l => noteLine ls l s) run1.lines else run1.lines
  let s5 := if wr then s4.write (p.h + r * p.hpitch) hBytes psn else s4
  { run1 with s := s5, tally := out.2.2, lines := lines, psn := run1.psn || psn, marks := run1.marks ++ [(run1.groups.length, lines.length)] }

/-- Groups whose 16 rows a repetition has all written by overwriting become valid again (R73). -/
def revalidate (t m : Nat) (c : MxCmd) (p : MxRep) (mask : Nat) (s : State) : State :=
  if !p.wipes then s else
  forAll (List.range 128) (fun g s =>
    let rowsOk := (List.range 16).all fun i =>
      let row := g * 16 + i
      decide (c.row0 ≤ row) && decide (row < c.row0 + c.rows) && !rowMasked mask (row - c.row0)
    let key := ((t * 2 + m) * 2 + p.bank) * 128 + g
    let psn := (s.mxe (t * 2 + m)).tilePoison || (c.csc && p.epilogue && s.readPoison p.cs 512)
      || (List.range 16).any (fun i => s.streamPoison c p (g * 16 + i - c.row0))
      || (c.hen && c.op == 0x11 && p.epilogue && (List.range 16).any fun i => s.readPoison (p.h + (g * 16 + i - c.row0) * p.hpitch) (elemBytes p.hfmt 128))
    if rowsOk && !psn then s.setGroup key true else s) s

/-- The poisoned lines that a repetition consumes (R74). -/
def MxRep.poisonedLines (p : MxRep) (c : MxCmd) (mask : Nat) (s : State) : Nat :=
  ((p.readRanges c mask).map fun x => ((linesOf x.1 x.2).filter s.poisoned).length).foldl (· + ·) 0

/-- One repetition (R62, R66, R69, R79); `first` is the overlap A of the command's first Fantail fill.  After streams of fewer
than 128 rows R69 does not state A for a later repetition: the model takes the cycles with a fed row of the repetition
before, without the lo(W) load between the passes of an FP32 one (DESIGN CHOICE, log entry 57). -/
def mxRepetition (t m : Nat) (c : MxCmd) (p : MxRep) (past mask sid idxBase first : Nat) (run : MxRun) : MxRun :=
  let k := t * 2 + m
  let rows := fedRows mask c.rows
  if rows = [] then
    { run with s := (run.s.setMxe k { run.s.mxe k with tile := [], tileScale := [], tilePoison := false }).set (MXE_STAT_STV t m) 0, fedBefore := 0 }
  else
    let overlap := if p.n = 0 then min 128 first else min 128 run.fedBefore
    let fillW := if c.op = 0x11 ∧ c.loadw then 128 - overlap else 0
    let fillX := if c.op = 0x12 ∧ !c.loadw then 128 else 0
    let load := if c.loadw then 128 else 0
    let s1 := forAll (p.readRanges c mask) (fun x s => touch x.1 x.2 s) run.s
    let used := p.poisonedLines c mask s1
    let s2 := if c.loadw then (loadTile k c p s1).set (MXE_STAT_STV t m) 1 else s1
    let one (r : MxRun) (pass : Nat) : MxRun :=
      let before := if pass = 0 then fillW + fillX + load else if pass = 2 then load else 0
      let start := r.time + before
      let r1 := (rows.zipIdx).foldl (fun r x => mxRow t m c p past pass start x.2 x.1 (c.masken && rowMasked mask x.1) sid idxBase r) r
      { r1 with time := start + rows.length, load := r1.load + before, fed := r1.fed + rows.length }
    let r := (List.range c.passes).foldl one { run with s := s2 }
    { r with s := revalidate t m c p mask r.s, fedBefore := rows.length * c.passes, psn := r.psn || used != 0, consumed := r.consumed + used }

/-! ### Ballast (R82, R83) -/

/-- The ballast level at a cycle: what a pre-wake has reached, else falling after HOLD × 16 gap cycles, with HOLD and RAMP as
they stood when the gap began (R87). -/
def State.levelAt (s : State) (t m cyc : Nat) : Nat :=
  let e := s.mxe (t * 2 + m)
  let v := s.get (MXE_STAT_LEVEL t m)
  if e.prewake then s.riseLevel t m
  else if e.warm then v
  else
    let gap := cyc - e.streamEnd - e.hold * 16
    v - gap * 1023 / (e.ramp * 1024)

/-- Cycles of ramp-up from level `v` (R69). -/
def State.rampUp (s : State) (t m v : Nat) : Nat := rampCycles (s.mxe (t * 2 + m)).ramp (1023 - v)

/-- Gap cycles under dry grind since the last fed row: while the level is above 0.  A pre-wake that ended has counted its own. -/
def State.grindSince (s : State) (t m cyc : Nat) : Nat :=
  let e := s.mxe (t * 2 + m)
  let v := s.get (MXE_STAT_LEVEL t m)
  if e.prewake then s.heldCycles t m
  else if v = 0 ∨ e.warm then 0
  else min (cyc - e.streamEnd) (e.hold * 16 + rampCycles e.ramp v)

/-- A gap begins: HOLD and RAMP as written now are in force for it (R87). -/
def latchGrind (t m : Nat) (s : State) : State :=
  s.setMxe (t * 2 + m) { s.mxe (t * 2 + m) with hold := s.get (MXE_DGCTRL_HOLD t m), ramp := s.get (MXE_DGCTRL_RAMP t m) }

/-- The fabric time at which a hold goes on after a command that ends `n` ACLK cycles from now (R359). -/
def State.holdFrom (s : State) (t n : Nat) : Nat := (s.now + n * 16 / (16 - s.get (PWR_STRETCH_S (t / 6)))) % 2 ^ 64

/-! ### Issue -/

/-- The overlap A of a command's first Fantail fill, for a load that may start at cycle `load` (R69).  The fill starts when the
matrix command just before it in the queue issued, or, where it has a WAIT or follows no matrix command, at the moment its
WAIT was met or the queue fetched it: `fill` cycles before the load. -/
def MxSt.firstOverlap (e : MxSt) (w : CmdBits) (pass idx len fill load : Nat) : Nat :=
  match e.last with
  | some (p, i, c0) =>
      let next := decide ((p = pass ∧ i + 1 = idx) ∨ (p + 1 = pass ∧ i + 1 = len ∧ idx = 0))
      if next then min 128 (if hdrWaitFlag w = 0 then load - c0 else min fill (load - c0)) else min 128 fill
  | none => min 128 fill

/-- A matrix command at its issue moment: its checks, then its repetitions (R68, R69, R84).  An AUX that its base register
misaligns freezes with 0x5001, for which the spec names no outcome (DESIGN CHOICE, log entry 57); unused fields of a
descriptor that the image did not show are not looked at, and its lines and the mask's are read with no regard to
poison (log entry 57). -/
def matrixIssue (t m cyc fill : Nat) (e : Issued) (s : State) : State × Issue :=
  let q := t * 5 + m
  let c := MxCmd.ofWord e.word
  let k := t * 2 + m
  match s.cmdOperand q e.word 128 20 32, s.cmdOperand q e.word 152 20 32, s.cmdOperand q e.word 192 20 32 with
  | some wG, some xG, some auxG =>
      let own := (!c.loadw || devOf wG == s.devId) && devOf xG == s.devId && devOf auxG == s.devId
      let w := localOf wG
      let x := localOf xG
      let aux := localOf auxG
      if !own || !inPad t aux 128 || aux % 128 != 0 then (freezeEngine q 0x5001 s, .held)
      else
        let s0 := touch aux 128 s
        let maskA := padBase t + getBits (s0.auxWord aux 4) 0 20 * 32
        if c.masken && !inPad t maskA 16 then (freezeEngine q 0x5001 s0, .held)
        else
        let s1 := if c.masken then touch maskA 16 s0 else s0
        let mask := if c.masken then s1.readNat maskA 16 else 0
        let reps := (List.range c.reps).map fun n => mxRep t c w x (s1.auxWord aux) n
        let st := s1.mxe k
        if !(reps.all fun p => (p.ranges c mask).all fun r => inPad t r.1 r.2) then (freezeEngine q 0x5001 s1, .held)
        else if !(reps.all fun p => p.aligned c mask) then (freezeEngine q 0x1004 s1, .held)
        else if !c.loadw && (!s1.isSet (MXE_STAT_STV t m) || st.mode != c.mode || c.mode == 5) then (freezeEngine q 0x1003 s1, .held)
        else
          let sid := getBits (s1.auxWord aux 5) 0 16
          let idxBase := s1.auxWord aux 6
          let at0 := max cyc (st.free + 16 * cmdGet e.word 58 6)
          let ramp := s1.rampUp t m (s1.levelAt t m at0)
          let ground := s1.grindSince t m at0
          let first := st.firstOverlap e.word e.pass e.idx (s.get (QUE_PROG_LEN q)) fill (at0 + ramp)
          let run := reps.foldl (fun r p => mxRepetition t m c p cyc mask sid idxBase first r) { s := s1, time := at0 + ramp, entryOf := e }
          let s2 := applyTally (tileOvfBase t c.cvt.ori) m e.idx (s1.step40 t % 65536) run.tally run.s
          let s3 := grind t m (ground + ramp + run.load) ((s2.inc (MXE_STRMCNT_CNT t m) run.fed).inc (MXE_LOADCNT_CNT t m) run.load)
          let s4 := latchGrind t m ((s3.set (MXE_STAT_LEVEL t m) 1023).set (MXE_STAT_ARRAY t m) 1)
          let woken := s.preWoken t
          let s5 := s4.setMxe k { s4.mxe k with free := run.time, streamEnd := run.time, warm := false, prewake := woken,
                                                riseAt := if woken then some (s.holdFrom t (run.time - cyc)) else none,
                                                last := some (e.pass, e.idx, at0), consumed := (s4.mxe k).consumed + run.consumed }
          let s6 := if run.psn then event 0x1007 (srcTile t m 0) s5 else s5
          let hz := run.hazard && s6.isSet (MXE_CTRL_HAZ_FREEZE t m)
          (s6, .issued { e with groups := run.groups, lines := run.lines, marks := run.marks, freeze := if hz then some 0x1001 else none })
  | _, _, _ => (freezeHead q 0x3009 0 s, .held)

def execMmf (t : TileId) (m : Fin 2) (cyc fill : Nat) (s : State) : Res :=
  .next (runHead (t.val * 5 + m.val) 0x10 false (matrixIssue t m cyc fill) s)
def execMmbi (t : TileId) (m : Fin 2) (cyc fill : Nat) (s : State) : Res :=
  .next (runHead (t.val * 5 + m.val) 0x11 false (matrixIssue t m cyc fill) s)
def execMmbw (t : TileId) (m : Fin 2) (cyc fill : Nat) (s : State) : Res :=
  .next (runHead (t.val * 5 + m.val) 0x12 false (matrixIssue t m cyc fill) s)

/-! ### Faults and ramp-down -/

/-- Put a group back as it was, with no write on its way. -/
def restoreGroup (g : Nat × Bool × List (BitVec 32)) (s : State) : State :=
  let s1 := (g.2.2.zipIdx.foldl (fun s e => s.setEntry (g.1 * 16 + e.2 / 128) (e.2 % 128) e.1) s).setGroup g.1 g.2.1
  { s1 with landings := tabClear s1.landings (g.1 * 16) 16 }

/-- Put a line back as it was. -/
def restoreLine (l : Nat × Bool × List Byte) (s : State) : State := (s.setBytes (l.1 * 64) l.2.2).setPoison l.1 l.2.1

/-- The groups and lines a command had begun, of those it writes in order: for a matrix command `begun` counts output rows, with
the groups and H lines of each; else it counts lines (R85, R112). -/
def Issued.begunOf (e : Issued) (begun : Nat) : Nat × Nat :=
  if e.marks = [] then (begun, begun) else if begun = 0 then (0, 0) else e.marks.getD (begun - 1) (e.groups.length, e.lines.length)

/-- The command an engine has in progress. -/
def State.inEngine (s : State) (q : Nat) : Option Issued :=
  (s.que q).issued.reverse.find? fun e => e.isEngine && decide (e.status ≠ .rerun)

/-- Abort a command in an engine: what it had begun writing is marked invalid or poisoned, the rest of its writes had not begun,
and it is to run again (R85, R112). -/
def abortWork (q begun : Nat) (e : Issued) (s : State) : State :=
  let b := e.begunOf begun
  let s1 := forAll (e.groups.drop b.1) restoreGroup s
  let s2 := invalidateGroups (e.groups.take b.1) s1
  let s3 := forAll (e.lines.drop b.2) restoreLine s2
  let s4 := markAbort q e.idx (poisonLines (e.lines.take b.2) s3)
  setIssued q e.uid (fun e => { e with status := .rerun, groups := [], lines := [], marks := [], freeze := none }) s4

/-- A datapath parity fault aborts the command an engine has in progress, and freezes its queue (R85, R112, R147). -/
def abortCommand (q : Nat) (begun code src : Nat) (s : State) : State :=
  match s.inEngine q with
  | none => s
  | some e => showEngine q (freezeQueue q code 0 e.idx 0 (event code src (abortWork q begun e s)))

/-- A parity fault in a matrix engine (R85). -/
def execMatrixParityFault (t : TileId) (m : Fin 2) (begun : Nat) (s : State) : Res :=
  .next (abortCommand (t.val * 5 + m.val) begun 0x1002 (srcTile t m 0) s)

/-- After HOLD × 16 gap cycles the level falls to 0 (R83); a pre-wake holds it. -/
def execBallastRampDown (t : TileId) (m : Fin 2) (s : State) : Res :=
  .next (if (s.mxe (t.val * 2 + m.val)).prewake then s else rampDown t.val m.val s)

/-- MXE_CTRL.CNT_CLR (R87). -/
def execMxeCntClr (p : PortId) (t : TileId) (m : Fin 2) (s : State) : Res :=
  .next (ownerWrite p (aMXE_CTRL t m) (fun s =>
    ((s.wr (aMXE_DGCNT t m) 0).wr (aMXE_STRMCNT t m) 0).wr (aMXE_LOADCNT t m) 0) s)

end Sys2Proof.Machine
end

