-- ==== Sys2Proof/Machine/Element.lean ====
section
/-! DEFINITION. The element commands ERUN and ESTAMP, the element programs, and the reduction (R88 to R115, R479). -/

namespace Sys2Proof.Machine

/-! ### Micro-operations (R95 to R99) -/

def uOp (u : Nat) : Nat := getBits u 26 6
def uD (u : Nat) : Nat := getBits u 21 5
def uA (u : Nat) : Nat := getBits u 16 5
def uB (u : Nat) : Nat := getBits u 11 5
def uC (u : Nat) : Nat := getBits u 6 5
def uMod (u : Nat) : Nat := getBits u 0 6

/-- A slot's program: its micro-operations before the first END. -/
def State.program (s : State) (t slot : Nat) : List Nat :=
  ((List.range 32).map fun u => (s.rd (aELE_PROG t slot u)).toNat).takeWhile fun u => uOp u != 0

/-- The input streams a program names. -/
def namesInput (prog : List Nat) (i : Nat) : Bool := prog.any fun u => uA u == 16 + i || uB u == 16 + i || uC u == 16 + i
/-- Whether a program writes output `o`. -/
def writesOutput (prog : List Nat) (o : Nat) : Bool := prog.any fun u => uOp u != 0x30 && uD u == 16 + o
/-- A program's RED. -/
def findRed (prog : List Nat) : Option Nat := prog.find? fun u => uOp u == 0x30

/-- Order of R96's MAX: +0 above −0. -/
def rankLt (a b : Val) : Bool := a.lt b || (!b.lt a && a.isNeg && !b.isNeg)
def Val.max (a b : Val) : Val := if a = .nan ∨ b = .nan then .nan else if rankLt a b then b else a
def Val.min (a b : Val) : Val := if a = .nan ∨ b = .nan then .nan else if rankLt a b then a else b

/-- √A, correctly rounded to FP32. -/
def fsqrt (a : Val) : Val :=
  match a with
  | .nan => .nan
  | .inf n => if n then .nan else .inf false
  | .fin n m e =>
      if m = 0 then a
      else if n then .nan
      else
        -- 2^80 extra bits make the root exact but for a sticky bit
        let k : Nat := if e % 2 = 0 then 80 else 81
        let x := m * 2 ^ k
        let r := Units.isqrt ((Nat.log2 x) / 2 + 1) x 0
        let sticky := if r * r = x then 0 else 1
        .fin false (2 * r + sticky) ((e - k) / 2 - 1)

/-- The function units: R97's special cases, else the unit's point near the exact value, rounded to FP32: within R97's bound,
monotonic, and a fixed function of the argument (log entry 56). -/
def laneFn (op : Nat) (a : Val) : Val :=
  match a with
  | .nan => .nan
  | .inf n =>
      if op = 0x10 then .fin n 0 0
      else if op = 0x11 then (if n then .nan else Val.zero)
      else if op = 0x13 then (if n then Val.zero else .inf false)
      else if op = 0x14 then (if n then .nan else .inf false)
      else if op = 0x17 then (if n then Val.zero else Val.one)
      else .fin n 1 0
  | .fin n m _ =>
      if op = 0x10 ∧ m = 0 then .inf n
      else if op = 0x11 ∧ m = 0 then .inf n
      else if op = 0x11 ∧ n then .nan
      else if op = 0x14 ∧ m = 0 then .inf true
      else if op = 0x14 ∧ n then .nan
      else f32 (f32Round (Units.freePoint (0x100 + op) (Units.laneExact op a)))

/-- SEL's condition on a number. -/
def selCond (k : Nat) (a : Val) : Bool :=
  let pos := Val.zero.lt a
  let neg := a.lt Val.zero
  if k = 0 then pos else if k = 1 then !neg else if k = 2 then !pos && !neg else if k = 3 then pos || neg
  else if k = 4 then neg else !pos

/-- RDROP's threshold. -/
def dropThreshold (a : Val) : Nat :=
  match a with
  | .fin n m e => if n then 0 else min 65536 (roundQuanta .zero m (e + 16) 0)
  | .inf n => if n then 0 else 65536
  | .nan => 0

/-- One micro-operation's result, rounded once to FP32.  `draw k j` is the draw of number `k` at index `j`. -/
def laneOp (u : Nat) (a b c : Val) (draw : Nat → Nat → Nat) (j : Nat) : Val :=
  let op := uOp u
  let r (v : Val) : Val := f32 (f32Round v)
  let k := uMod u % 4
  let pair := draw k (2 * j + 1) * 65536 + draw k (2 * j)
  if op = 0x01 then r (a.add b)
  else if op = 0x02 then r (a.sub b)
  else if op = 0x03 then r (a.mul b)
  else if op = 0x04 then r ((a.mul b).add c)
  else if op = 0x05 then r (c.sub (a.mul b))
  else if op = 0x06 then r (a.max b)
  else if op = 0x07 then r (a.min b)
  else if op = 0x08 then r a.abs
  else if op = 0x09 then r a.neg
  else if op = 0x0A then r a
  else if op = 0x0B then r (if a ≠ .nan ∧ selCond (uMod u % 8) a then b else c)
  else if op = 0x12 then r (fsqrt a)
  else if op = 0x20 then (if a = .nan then .nan else if dropThreshold a ≤ draw k j then r b else Val.zero)
  else if op = 0x21 then r (.fin false (2 * pair + 1) (-33))
  else if op = 0x22 then f32 (f32Round (Units.freePoint 0x122 (Units.gumbelExact pair)))
  else laneFn op a

/-- What a program has made of one element so far. -/
structure Lane where
  t : List Val := List.replicate 16 Val.zero
  o0 : Option Val := none
  o1 : Option Val := none
  red : Option Val := none
  bad : List Bool := List.replicate 16 false   -- temporaries computed from a poisoned element
  bad0 : Bool := false                         -- and the outputs and the reduction's value
  bad1 : Bool := false
  badR : Bool := false

/-- The source operands that a micro-operation reads, A first (R95, R96, R99). -/
def uSources (u : Nat) : List Nat :=
  let op := uOp u
  if op = 0x21 ∨ op = 0x22 then []
  else if op = 0x04 ∨ op = 0x05 ∨ op = 0x0B then [uA u, uB u, uC u]
  else if op = 0x01 ∨ op = 0x02 ∨ op = 0x03 ∨ op = 0x06 ∨ op = 0x07 ∨ op = 0x20 then [uA u, uB u]
  else [uA u]

/-- Whether a source operand comes from a poisoned element; `psn` are the inputs'. -/
def laneBad (l : Lane) (psn : List Bool) (n : Nat) : Bool :=
  if n < 16 then l.bad.getD n false else if n < 20 then psn.getD (n - 16) false else false

/-- A source operand: temporaries, inputs, constants, row, column, +1.0 and +0.0. -/
def laneSrc (l : Lane) (ins consts : List Val) (r c n : Nat) : Val :=
  if n < 16 then l.t.getD n Val.zero
  else if n < 20 then ins.getD (n - 16) Val.zero
  else if n < 28 then consts.getD (n - 20) Val.zero
  else if n = 28 then f32 (f32Round (.fin false r 0))
  else if n = 29 then f32 (f32Round (.fin false c 0))
  else if n = 30 then Val.one else Val.zero

/-- Run a program on one element, and follow what it computes from poisoned inputs (R111). -/
def runLane (prog : List Nat) (ins consts : List Val) (psn : List Bool) (r c : Nat) (draw : Nat → Nat → Nat) (j : Nat) : Lane :=
  prog.foldl (fun l u =>
    let src := laneSrc l ins consts r c
    let bad := (uSources u).any (laneBad l psn)
    if uOp u = 0x30 then { l with red := some (src (uA u)), badR := bad }
    else
      let v := laneOp u (src (uA u)) (src (uB u)) (src (uC u)) draw j
      if uD u < 16 then { l with t := l.t.set (uD u) v, bad := l.bad.set (uD u) bad }
      else if uD u = 16 then { l with o0 := some v, bad0 := bad } else { l with o1 := some v, bad1 := bad }) {}

/-! ### The reduction (R101, R102, R479) -/

/-- A reduction node: value, SMX sum, ranked entries, and whether poison or a non-finite value reached it. -/
structure RNode where
  v : Val
  sum : Val := Val.one
  top : List (Val × Nat) := []
  psn : Bool := false
  odd : Bool := false

/-- ARGMAX order: NaN above all, lower index first of equals. -/
def ranksBefore (p q : Val × Nat) : Bool :=
  let lt (a b : Val) : Bool := if a = .nan then false else if b = .nan then true else rankLt a b
  lt q.1 p.1 || (!lt p.1 q.1 && decide (p.2 < q.2))
def insertTop (p : Val × Nat) : List (Val × Nat) → List (Val × Nat)
  | [] => [p]
  | q :: r => if ranksBefore p q then p :: q :: r else q :: insertTop p r

/-- SMX's factor e^(x − m). -/
def smxFactor (x m : Val) : Val :=
  match x, m with
  | .inf a, .inf b => if a = b then (if a then Val.zero else Val.one) else laneFn 0x13 (f32 (f32Round (x.sub m)))
  | _, _ => laneFn 0x13 (f32 (f32Round (x.sub m)))

def combine (kind k : Nat) (a b : RNode) : RNode :=
  let r (v : Val) : Val := f32 (f32Round v)
  let flags (n : RNode) : RNode := { n with psn := a.psn || b.psn, odd := a.odd || b.odd }
  flags (
    if kind = 0 then { v := r (a.v.add b.v) }
    else if kind = 1 then { v := a.v.max b.v }
    else if kind = 2 then { v := a.v.min b.v }
    else if kind = 5 then
      let m := a.v.max b.v
      { v := m, sum := r ((r (a.sum.mul (smxFactor a.v m))).add (r (b.sum.mul (smxFactor b.v m)))) }
    else { v := a.v, top := (b.top.foldl (fun l p => insertTop p l) a.top).take k })

def combineOpt (kind k : Nat) : Option RNode → Option RNode → Option RNode
  | some a, some b => some (combine kind k a b)
  | some a, none => some a
  | none, b => b

def pairUp (kind k : Nat) : List (Option RNode) → List (Option RNode)
  | a :: b :: r => combineOpt kind k a b :: pairUp kind k r
  | l => l

/-- A pairwise tree of `n` levels. -/
def tree (kind k : Nat) : Nat → List (Option RNode) → Option RNode
  | 0, l => (l.head?).join
  | n + 1, l => tree kind k n (pairUp kind k l)

/-! ### The descriptor (R91 to R93) -/

/-- A stream entry. -/
structure EStream where
  kind : Nat
  fmt : Nat
  reg : Nat
  off : Nat
  pitch : Nat
  scpitch : Nat
  sc : Nat
  bank : Nat
  brow0 : Nat
  bcol0 : Nat
  bcol : Bool
  brow : Bool
  baxis : Bool
  cvt : Cvt
  str : List Int
  scstr : List Int
  bankx : Nat

/-- The entry at word `i` of a descriptor of tile `t`. -/
def EStream.ofWords (t : Nat) (w : Nat → Nat) (i : Nat) : EStream :=
  let g (k lo n : Nat) : Nat := getBits (w (i + k)) lo n
  { kind := g 0 28 4, fmt := g 0 24 4, reg := g 0 20 4, off := g 0 0 20, pitch := g 1 0 20, scpitch := g 2 20 12,
    sc := padBase t + g 2 0 20 * 32, bank := g 0 19 1, brow0 := g 0 7 11, bcol0 := g 0 0 7, bcol := g 3 20 1 == 1,
    brow := g 3 19 1 == 1, baxis := g 3 18 1 == 1, cvt := Cvt.ofBits (g 3 0 16),
    str := [signed 16 (g 4 0 16), signed 16 (g 4 16 16), signed 16 (g 5 0 16)],
    scstr := [signed 16 (g 5 16 16), signed 16 (g 6 0 16), signed 16 (g 6 16 16)], bankx := g 7 0 3 }

def EStream.isBlock (x : EStream) : Bool := x.kind == 1 && fmtIsBlock x.fmt

/-- A command with its descriptor, its stream bases and the state it reads. -/
structure ERun where
  t : Nat
  cyc : Nat
  rows : Nat
  cols : Nat
  rep : List Nat
  ins : List EStream
  outs : List EStream
  bases : List Nat                         -- stream start addresses, in descriptor order
  idx : Nat
  mask : Nat
  rv : Nat
  rx : Nat
  roff : Nat
  rori : Nat
  km1 : Nat
  consts : List Val
  prog : List Nat
  sid : Nat
  wild : List Bool := []                   -- inputs that overlap an output in a way R107 forbids
  s : State
  fresh : List (Nat × Byte × Bool) := []   -- what earlier lane blocks have written, for such inputs: address, byte, poison

/-- The six stream entries of a descriptor. -/
def elementStreams (t : Nat) (wd : Nat → Nat) : List EStream := (List.range 6).map fun k => EStream.ofWords t wd (8 * k)

/-- ERUN `w` with descriptor words `wd`, its streams at local addresses `bases`. -/
def ERun.ofWords (t cyc : Nat) (w : CmdBits) (wd : Nat → Nat) (bases : List Nat) (mask : Nat) (prog : List Nat) (s : State) : ERun :=
  { t := t, cyc := cyc, rows := cmdGet w 96 16 + 1, cols := cmdGet w 112 16 + 1,
    rep := [cmdGet w 160 8 + 1, cmdGet w 168 8 + 1, cmdGet w 176 8 + 1],
    ins := (elementStreams t wd).take 4, outs := (elementStreams t wd).drop 4, bases := bases, idx := wd 48, mask := mask,
    rv := padBase t + getBits (wd 50) 0 20 * 32, rx := padBase t + getBits (wd 51) 0 20 * 32, roff := wd 52,
    rori := getBits (wd 53) 10 6, km1 := getBits (wd 53) 0 6, consts := (List.range 8).map fun k => f32 (wd (56 + k)),
    prog := prog, sid := cmdGet w 80 16, s := s }

def ERun.reps (c : ERun) : Nat := c.rep.foldl (· * ·) 1
/-- The index of linear repetition `n` in dimension `d`. -/
def ERun.index (c : ERun) (n d : Nat) : Nat :=
  let r0 := c.rep.getD 0 1
  let r1 := c.rep.getD 1 1
  if d = 0 then n % r0 else if d = 1 then n / r0 % r1 else n / (r0 * r1)
def ERun.step (c : ERun) (n : Nat) (f : List Int) : Int := (List.range 3).foldl (fun a d => a + (c.index n d : Int) * f.getD d 0) 0
/-- The unmasked rows.  MASKEN with more than 2,048 rows, which the Bolter rejects where the image shows it, runs: rows from
2,048 on have no bit and are unmasked (DESIGN CHOICE, log entry 58). -/
def ERun.live (c : ERun) : List Nat := (List.range c.rows).filter fun r => !rowMasked c.mask r
def ERun.streams (c : ERun) : List (EStream × Nat) := (c.ins ++ c.outs).zip c.bases

/-- Start of a stream with base `b` in repetition `n`, of its scale array, its bank and its first bank row. -/
def ERun.start (c : ERun) (x : EStream) (b n : Nat) : Nat := displace b (32 * c.step n x.str)
def ERun.scStart (c : ERun) (x : EStream) (n : Nat) : Nat := displace x.sc (c.step n x.scstr)
def ERun.bankOf (c : ERun) (x : EStream) (n : Nat) : Nat :=
  (x.bank + (List.range 3).foldl (fun a d => a + c.index n d * (x.bankx / 2 ^ d % 2)) 0) % 2
def ERun.bankRow0 (c : ERun) (x : EStream) (n : Nat) : Int := (x.brow0 : Int) + c.step n x.str

/-- The rows of a stream that a repetition touches: for a BAXIS = 1 output, also those that pad its last block. -/
def ERun.streamRows (c : ERun) (x : EStream) (out : Bool) : List Nat :=
  if x.brow then (if c.live = [] then [] else [0])
  else if out && x.isBlock && x.baxis && c.live.any (fun r => decide (c.rows / 32 * 32 ≤ r)) then
    c.live ++ (List.range ((32 - c.rows % 32) % 32)).map (· + c.rows)
  else c.live

/-- The bytes a row of a stream takes: a block-scaled row of BAXIS = 0 is padded to whole blocks. -/
def ERun.rowBytes (c : ERun) (x : EStream) : Nat :=
  let n := if x.bcol then 1 else c.cols
  elemBytes x.fmt (if x.isBlock && !x.baxis then (n + 31) / 32 * 32 else n)

/-- The byte ranges of a scratchpad stream's elements in one repetition. -/
def ERun.elemRanges (c : ERun) (x : EStream) (b n : Nat) (out : Bool) : List (Nat × Nat) :=
  (c.streamRows x out).map fun r => (c.start x b n + r * x.pitch, c.rowBytes x)

/-- Those of its scale array, whose place is absolute. -/
def ERun.scaleRanges (c : ERun) (x : EStream) (n : Nat) (out : Bool) : List (Nat × Nat) :=
  let sa := c.scStart x n
  let cols := if x.bcol then 1 else c.cols
  let rows := c.streamRows x out
  if !x.isBlock then []
  else if x.baxis then ((rows.map (· / 32)).eraseDups).map fun g => (sa + g * x.scpitch, cols)
  else rows.map fun r => (sa + r * x.scpitch, (cols + 31) / 32)

/-- The byte ranges of a scratchpad stream in one repetition. -/
def ERun.ranges (c : ERun) (x : EStream) (b n : Nat) (out : Bool) : List (Nat × Nat) :=
  c.elemRanges x b n out ++ c.scaleRanges x n out

/-! ### Reading one element (R104, R105, R108, R111) -/

/-- Element (r, c) of input stream `i` in repetition `n`: its exact value and whether it is poisoned.  An element that shares
memory with an output in a way R107 forbids is the old one or, where an earlier block has written it, the new one: a free
choice of each element.  A KIND of 4 to 15, which the Bolter rejects where the image shows it, reads the bank of engine
KIND − 2 with no bound (DESIGN CHOICE, log entry 58). -/
def ERun.element (c : ERun) (i n r col : Nat) : Val × Bool :=
  match c.ins[i]?, c.bases[i]? with
  | some x, some b =>
      if x.kind = 0 then (Val.zero, false)
      else if x.kind = 1 then
        let rr := if x.brow then 0 else r
        let cc := if x.bcol then 0 else col
        let a := c.start x b n + rr * x.pitch
        let sc := c.scStart x n + (if x.baxis then rr / 32 * x.scpitch + cc else rr * x.scpitch + cc / 32)
        let new := c.wild.getD i false && (Config.freeValue 1 (c.s.freeCtr + ((n * c.rows + r) * c.cols + col) * 4 + i)).toNat == 1
        let rd (y : Nat) : Byte := if new then ((c.fresh.find? (·.1 == y)).map (·.2.1)).getD (c.s.delivered y) else c.s.delivered y
        let bad (y : Nat) : Bool := if new then ((c.fresh.find? (·.1 == y)).map (·.2.2)).getD (c.s.poisoned (y / 64)) else c.s.poisoned (y / 64)
        (valThrough rd a x.fmt cc (if x.isBlock then some sc else none), bad (a + cc * fmtBits x.fmt / 8) || (x.isBlock && bad sc))
      else
        let row := (c.bankRow0 x n).toNat + r
        let m := x.kind - 2
        let bank := c.bankOf x n
        let rk := bankRow c.t m bank row
        (decodeElem x.fmt (c.s.bankSeen rk c.cyc (x.bcol0 + col)).toNat, !c.s.groupValid (groupOfRow c.t m bank row))
  | _, _ => (Val.zero, false)

/-- What the program made of one element. -/
structure ERes where
  n : Nat
  r : Nat
  col : Nat
  i : Nat                                  -- its position, i of R93
  lane : Lane
  psn : Bool                               -- a poisoned element was consumed
  wide : List (Nat × Tally)                -- what its inputs' widening counts, by record

/-- Run the program on one element. -/
def ERun.one (c : ERun) (n r col : Nat) : ERes :=
  let i := (n * c.rows + r) * c.cols + col
  let raw := (List.range 4).map fun k => c.element k n r col
  let wid := (List.range 4).map fun k => match c.ins[k]? with
    | some x =>
        if x.kind = 0 then (Val.zero, ({} : Tally))
        else
          let w := widenIn { x.cvt with rnd := if x.cvt.rnd = 1 then 1 else 0 } (fun _ => 0) (c.idx + i) (raw.getD k (Val.zero, false)).1 {}
          (w.1, w.2.1)
    | none => (Val.zero, {})
  let first (k : Nat) : Bool := match c.ins[k]? with
    | some x => x.kind != 0 && (!x.brow || c.live.head? == some r) && (!x.bcol || col == 0)
    | none => false
  let bad := raw.map (·.2)
  let psn := (List.range 4).any fun k => namesInput c.prog k && bad.getD k false
  let draw (k j : Nat) : Nat := c.s.draws c.t (streamId c.t 2 (c.sid % 4096 + (4 + k) * 4096)) j
  { n := n, r := r, col := col, i := i, psn := psn,
    lane := runLane c.prog (wid.map (·.1)) c.consts bad r col draw (c.idx + i),
    wide := ((List.range 4).filter first).map fun k => (((c.ins[k]?).map (·.cvt.ori)).getD 0, (wid.getD k (Val.zero, {})).2) }

/-! ### Lane blocks (R100, R109) -/

/-- The smallest power of two at least `n`, as an exponent. -/
def ceilLog (n : Nat) : Nat := if n ≤ 1 then 0 else Nat.log2 (n - 1) + 1

/-- Cut a list into groups of `n`; `fuel` bounds their number. -/
def groupsOf {α : Type} (n : Nat) : Nat → List α → List (List α)
  | 0, _ => []
  | k + 1, l => if l.isEmpty then [] else l.take n :: groupsOf n k (l.drop n)

/-- The lane blocks of a command: repetition, rows, first column and columns. -/
def ERun.blocks (c : ERun) : List (Nat × List Nat × Nat × Nat) :=
  (List.range c.reps).flatMap fun n =>
    if c.cols ≤ 256 then (groupsOf (256 / 2 ^ ceilLog c.cols) (c.rows + 1) c.live).map fun rs => (n, rs, 0, c.cols)
    else c.live.flatMap fun r => (List.range ((c.cols + 255) / 256)).map fun b => (n, [r], 256 * b, min 256 (c.cols - 256 * b))

def ERun.blockResults (c : ERun) (b : Nat × List Nat × Nat × Nat) : List ERes :=
  b.2.1.flatMap fun r => (List.range b.2.2.2).map fun k => c.one b.1 r (b.2.2.1 + k)

/-- Scale bytes that a stream moves in a block of rows and columns: each in the block that holds its first element,
or, down columns, its group's first row; for an output, its last (R109). -/
def ERun.scaleBytes (c : ERun) (x : EStream) (rs : List Nat) (cols : Nat) (out : Bool) : Nat :=
  if !x.isBlock then 0
  else if !x.baxis then rs.length * ((cols + 31) / 32)
  else
    let mates (r : Nat) := c.live.filter fun y => y / 32 == r / 32
    cols * (rs.filter fun r => (if out then (mates r).getLast? else (mates r).head?) == some r).length

/-- TCLK cycles of a block. -/
def ERun.cost (c : ERun) (b : Nat × List Nat × Nat × Nat) : Nat :=
  let e := b.2.1.length * b.2.2.2
  let bytes (out : Bool) (x : EStream) : Nat := (e * fmtBits x.fmt + 7) / 8 + c.scaleBytes x b.2.1 b.2.2.2 out
  let bin := ((c.ins.filter fun x => x.kind == 1 && !x.brow && !x.bcol).map (bytes false)).foldl (· + ·) 0
  let bbank := ((c.ins.filter fun x => decide (2 ≤ x.kind)).map fun _ => 4 * e).foldl (· + ·) 0
  let bout := ((c.outs.filter fun x => x.kind == 1).map (bytes true)).foldl (· + ·) 0
  let topk := match findRed c.prog with
    | some u => if uMod u % 8 = 4 then (c.km1 + 8) / 8 else 0
    | none => 0
  max (max c.prog.length ((bin + 511) / 512)) (max ((bbank + 511) / 512) ((bout + 511) / 512)) + topk

/-! ### The write buffer -/

/-- What a command is to write: bytes by address, and the lines it poisons. -/
structure EBuf where
  bytes : Tab (Option Byte) := []
  psn : List Nat := []
  order : List Nat := []                   -- the lines written, latest first

def EBuf.put (b : EBuf) (a : Nat) (v : Byte) (psn : Bool) : EBuf :=
  { bytes := tabPut (fun _ => none) b.bytes a (some v), psn := if psn then a / 64 :: b.psn else b.psn,
    order := if b.order.head? = some (a / 64) then b.order else a / 64 :: b.order }
def EBuf.putAll (b : EBuf) (a : Nat) (vs : List Byte) (psn : Bool) : EBuf :=
  (vs.zipIdx).foldl (fun b v => b.put (a + v.2) v.1 psn) b

/-- Element `i` of a row at `a`. -/
def EBuf.putElem (b : EBuf) (s : State) (a fmt i v : Nat) (psn : Bool) : EBuf :=
  if fmtBits fmt = 4 then
    let x := a + i / 2
    let old := ((tabGet (fun _ => none) b.bytes x).getD (s.delivered x)).toNat
    b.put x (BitVec.ofNat 8 (putBits old (4 * (i % 2)) 4 v)) psn
  else b.putAll (a + i * (fmtBits fmt / 8)) (natBytes (fmtBits fmt / 8) v) psn

/-- Write some bytes of one line: all 64 replace it, fewer are merged into it (R188). -/
def writeSome (line : Nat) (bs : List (Nat × Byte)) (psn : Bool) (s : State) : State :=
  if bs.length = 64 then writeLine (line * 64) (bs.map (·.2)) psn s
  else
    let s1 := settle line (readForMerge line s)
    let s2 := forAll bs (fun b s => s.setByte b.1 b.2) s1
    if psn then s2.setPoison line true else s2

/-- The lines a buffer writes, in the order in which they are begun (R112). -/
def EBuf.lines (b : EBuf) : List Nat := b.order.reverse.eraseDups

/-- Its bytes with the poison of their lines. -/
def EBuf.marked (b : EBuf) : List (Nat × Byte × Bool) :=
  b.bytes.filterMap fun e => e.2.map fun v => (e.1, v, b.psn.contains (e.1 / 64))

/-- Write a buffer out. -/
def EBuf.flush (b : EBuf) (s : State) : State :=
  forAll b.lines (fun l s =>
    writeSome l ((b.bytes.filter (·.1 / 64 == l)).filterMap fun e => e.2.map fun v => (e.1, v)) (b.psn.contains l) s) s

/-! ### Output conversions (R104, R105) -/

/-- Tallies of one lane block: the lowest element index is first (R58). -/
def Tally.joinMin (a b : Tally) : Tally :=
  { a.join b with first := match a.first, b.first with
    | some x, some y => some (min x y)
    | x, none => x
    | none, y => y }

/-- Conversions in order: the buffer, and counts with their block and record. -/
structure EOut where
  buf : EBuf := {}
  counts : List (Nat × Nat × Tally) := []

/-- The SID of output `o`'s conversions (R99). -/
def ERun.outDraw (c : ERun) (o : Nat) : Nat → Nat := c.s.draws c.t (streamId c.t 2 (if o = 0 then c.sid else c.sid ||| 0x1000))

def ERes.out (e : ERes) (o : Nat) : Option Val := if o = 0 then e.lane.o0 else e.lane.o1
/-- Whether an output of an element is computed from a poisoned one. -/
def ERes.bad (e : ERes) (o : Nat) : Bool := if o = 0 then e.lane.bad0 else e.lane.bad1

/-- One block-scaled block: elements in order, the positions that pad it, where its scale goes. -/
def ERun.putBlock (c : ERun) (o bi : Nat) (x : EStream) (es : List ERes) (place : ERes → Nat × Nat) (pads : List (Nat × Nat))
    (sc : Nat) (w : EOut) : EOut :=
  let vs := es.filterMap fun e => (e.out o).map fun v => (c.idx + e.i, v)
  let psn := es.any (·.bad o)
  if vs = [] then w else
  let r := cvtBlock x.cvt (c.outDraw o) vs {}
  let b1 := (es.zip r.2.1).foldl (fun b ev => let p := place ev.1; b.putElem c.s p.1 x.fmt p.2 ev.2 psn) w.buf
  let b2 := pads.foldl (fun b p => b.putElem c.s p.1 x.fmt p.2 0 psn) b1
  { buf := b2.put sc (BitVec.ofNat 8 r.1) psn, counts := w.counts ++ [(bi, x.cvt.ori, r.2.2)] }

/-- What block `bi` with its results writes to output `o`.  CVT settings that break R104 in a descriptor the image did not show
(another FMT than the stream's, an input RND of 0b10 or 0b11, an input OVF_NF) run unchecked: elements convert under CVT and are
stored at the width of the stream's FMT, and an input rounds to nearest (DESIGN CHOICE, log entry 58). -/
def ERun.putOut (c : ERun) (all : List ERes) (o : Nat) (blk : (Nat × List Nat × Nat × Nat) × List ERes) (bi : Nat) (w : EOut) : EOut :=
  match c.outs[o]?, c.bases[4 + o]? with
  | some x, some base =>
      let n := blk.1.1
      let a := c.start x base n
      let sa := c.scStart x n
      if x.kind ≠ 1 ∨ !writesOutput c.prog o then w
      else if !x.isBlock then
        blk.2.foldl (fun w e => match e.out o with
          | none => w
          | some v =>
              let cv := cvtElem x.cvt (c.outDraw o) (c.idx + e.i) v {}
              { buf := w.buf.putElem c.s (a + e.r * x.pitch) x.fmt e.col cv.1 (e.bad o), counts := w.counts ++ [(bi, x.cvt.ori, cv.2)] }) w
      else if !x.baxis then
        blk.1.2.1.foldl (fun w r =>
          let row := blk.2.filter fun e => e.r == r
          (groupsOf 32 8 row).foldl (fun w es =>
            let c0 := ((es.head?).map (·.col)).getD 0
            let pads := (List.range (32 - es.length)).map fun k => (a + r * x.pitch, c0 + es.length + k)
            c.putBlock o bi x es (fun e => (a + r * x.pitch, e.col)) pads (sa + r * x.scpitch + c0 / 32) w) w) w
      else
        let ends := blk.1.2.1.filter fun r => (c.live.filter fun y => y / 32 == r / 32).getLast? == some r
        ends.foldl (fun w r =>
          (List.range blk.1.2.2.2).foldl (fun w k =>
            let col := blk.1.2.2.1 + k
            let es := all.filter fun e => e.n == n && e.r / 32 == r / 32 && e.col == col
            let pads := ((List.range 32).map (· + r / 32 * 32)).filterMap fun y => if c.rows ≤ y then some (a + y * x.pitch, col) else none
            c.putBlock o bi x es (fun e => (a + e.r * x.pitch, col)) pads (sa + r / 32 * x.scpitch + col) w) w) w
  | _, _ => w

/-! ### Reduction results -/

/-- The nodes each block contributes: block, result index, node. -/
def ERun.redNodes (c : ERun) (u : Nat) (blk : (Nat × List Nat × Nat × Nat) × List ERes) (bi : Nat) : List (Nat × Nat × RNode) :=
  let kind := uMod u % 8
  let allScope := (uMod u).testBit 3
  let k := if kind = 4 then c.km1 + 1 else 1
  let leaf (e : ERes) : Option RNode := e.lane.red.map fun v =>
    { v := v, top := [(v, if allScope then e.i else e.col)], psn := e.lane.badR, odd := !v.isFinite }
  let lv := if c.cols ≤ 256 then ceilLog c.cols else 8
  let row (r : Nat) : List (Option RNode) :=
    let l := (blk.2.filter fun e => e.r == r).map leaf
    l ++ List.replicate (2 ^ lv - l.length) none
  if allScope then
    match tree kind k 8 (let l := blk.1.2.1.flatMap row; l ++ List.replicate (256 - l.length) none) with
    | some x => [(bi, 0, x)]
    | none => []
  else blk.1.2.1.filterMap fun r => (tree kind k lv (row r)).map fun x => (bi, blk.1.1 * c.rows + r, x)

/-- Write one result: RV, RX and the counts of a non-finite result that no non-finite value reached (R53, R97, R101).  The spec
gives a result no element index: the model counts it at its index in the result array; and an ALL-scope result other than
TOPK with every row masked writes nothing (DESIGN CHOICE, log entry 58). -/
def ERun.putResult (c : ERun) (u bi key : Nat) (x : Option RNode) (w : EOut) : EOut :=
  let kind := uMod u % 8
  let k := if kind = 4 then c.km1 + 1 else 1
  let psn := (x.map (·.psn)).getD false
  let node : RNode := x.getD { v := Val.zero }
  let vals : List Val := if kind = 3 ∨ kind = 4 then node.top.map (·.1) else [node.v]
  let words := (vals ++ List.replicate (k - vals.length) (Val.inf true)).map f32Round
  let seconds : List Nat := if kind = 3 ∨ kind = 4 then
      (node.top.map fun p => (p.2 + c.roff) % 2 ^ 32) ++ List.replicate (k - node.top.length) 0xFFFFFFFF
    else if kind = 5 then [f32Round node.sum] else []
  let put (b : EBuf) (base : Nat) (ws : List Nat) : EBuf :=
    (ws.zipIdx).foldl (fun b v => b.putAll (base + 4 * (key * k + v.2)) (natBytes 4 v.1) psn) b
  let results := if kind = 5 then [node.v, node.sum] else vals
  let t := if node.odd ∨ x.isNone then ({} : Tally) else results.foldl (fun t v => match v with
    | .fin _ _ _ => t
    | .inf _ => t.count false key v { bits := 0, inf := true }
    | .nan => t.count false key v { bits := 0, nan := true }) {}
  { buf := put (put w.buf c.rv words) c.rx seconds, counts := w.counts ++ [(bi, c.rori, t)] }

/-- What the reduction's inputs count: every non-finite lane value it receives (R53, R97). -/
def ERun.redInputs (c : ERun) (es : List ERes) (bi : Nat) : List (Nat × Nat × Tally) :=
  es.filterMap fun e => match e.lane.red with
    | some (.inf n) => some (bi, c.rori, ({} : Tally).count false (c.idx + e.i) (.inf n) { bits := 0, inf := true })
    | some .nan => some (bi, c.rori, ({} : Tally).count false (c.idx + e.i) .nan { bits := 0, nan := true })
    | _ => none

/-! ### ERUN -/

/-- The counts of a record over the blocks in order. -/
def recordTally (cs : List (Nat × Nat × Tally)) (ori blocks : Nat) : Tally :=
  (List.range (blocks + 1)).foldl (fun t b =>
    t.join ((cs.filter fun x => x.1 == b && x.2.1 == ori).foldl (fun t x => t.joinMin x.2.2) {})) {}

/-- Two range lists share a byte. -/
def rangesMeet (a b : List (Nat × Nat)) : Bool :=
  a.any fun x => b.any fun y => decide (x.1 < y.1 + y.2) && decide (y.1 < x.1 + x.2)

/-- Whether an output may share its memory with this input where both start alike (R107). -/
def EStream.inPlace (x y : EStream) : Bool := x.pitch == y.pitch && x.str == y.str && x.fmt == y.fmt && !x.brow && !x.bcol

/-- Whether input `i` and output `o` share memory in a way R107 does not permit. -/
def ERun.shares (c : ERun) (i o : Nat) : Bool :=
  match c.ins[i]?, c.bases[i]?, c.outs[o]?, c.bases[4 + o]? with
  | some x, some b, some y, some d =>
      x.kind == 1 && y.kind == 1 && !(b == d && x.inPlace y) &&
      (let all (z : EStream) (e : Nat) (out : Bool) := (List.range c.reps).flatMap fun n => c.ranges z e n out
       rangesMeet (all x b false) (all y d true))
  | _, _, _, _ => false
/-- Whether a command that writes output `o` so shares it. -/
def ERun.clash (c : ERun) (i o : Nat) : Bool := writesOutput c.prog o && c.shares i o

/-- The checks of a command before it moves data: the code it fails with. -/
def ERun.check (c : ERun) : Option Nat :=
  let nOff (l : List EStream) (k : Nat) : Nat := ((l[k]?).map (·.kind)).getD 0
  let bank (x : EStream) : Bool := x.kind == 2 || x.kind == 3
  let reps := List.range c.reps
  let red := findRed c.prog
  let k := match red with
    | some u => (if uMod u % 8 = 4 then c.km1 + 1 else 1) * (if (uMod u).testBit 3 then 1 else c.reps * c.rows)
    | none => 0
  let rxUsed := match red with
    | some u => decide (3 ≤ uMod u % 8)
    | none => false
  let out (i : Nat) : Bool := decide (4 ≤ i)
  let pads := (c.streams.zipIdx).filter fun x => x.1.1.kind == 1
  let padOk (x : (EStream × Nat) × Nat) : Bool := reps.all fun n => (c.ranges x.1.1 x.1.2 n (out x.2)).all fun y => inPad c.t y.1 y.2
  let rowOk (x : (EStream × Nat) × Nat) : Bool := !x.1.1.isBlock || reps.all fun n =>
    (c.streamRows x.1.1 (out x.2)).all fun r => (c.start x.1.1 x.1.2 n + r * x.1.1.pitch) % (if fmtBits x.1.1.fmt = 4 then 16 else 32) == 0
  if (List.range 4).any (fun i => namesInput c.prog i && nOff c.ins i == 0) || (List.range 2).any (fun o => writesOutput c.prog o && nOff c.outs o != 1) then some 0x2006
  else if c.ins.any (fun x => bank x && reps.any fun n => decide (c.bankRow0 x n < 0) || decide (2048 < c.bankRow0 x n + c.rows) || decide (128 < x.bcol0 + c.cols)) then some 0x2006
  else if !(pads.all rowOk) then some 0x2003
  else if !(pads.all padOk) || (red.isSome && !inPad c.t c.rv (4 * k)) || (rxUsed && !inPad c.t c.rx (4 * k)) then some 0x5001
  else none

/-- The cycle at which each lane block reads its inputs, two ACLK cycles to one of TCLK: the descriptor read and the pipeline
fill of R109 come first, then the blocks before it (DESIGN CHOICE, log entry 58). -/
def ERun.readCycles (c : ERun) : List (Nat × (Nat × List Nat × Nat × Nat)) :=
  (c.blocks.foldl (fun (acc : Nat × List (Nat × (Nat × List Nat × Nat × Nat))) b =>
    (acc.1 + 2 * c.cost b, acc.2 ++ [(acc.1, b)])) (c.cyc + 80, [])).2

/-- The hazards of a command's bank reads (R80, R108): the state, and whether there was one. -/
def ERun.hazards (c : ERun) (cmd : Nat) (s : State) : State × Bool :=
  c.readCycles.foldl (fun acc b =>
    b.2.2.1.foldl (fun acc r =>
      c.ins.foldl (fun (acc : State × Bool) x =>
        if x.kind ≠ 2 ∧ x.kind ≠ 3 then acc
        else
          let m := x.kind - 2
          let row := (c.bankRow0 x b.2.1).toNat + r
          if s.isSet (MXE_CTRL_ELE_CHK c.t m) && s.pendingAt (bankRow c.t m (c.bankOf x b.2.1) row) b.1 then
            (recordHazard c.t m 2 cmd (c.bankOf x b.2.1) row true acc.1, acc.2 || s.isSet (MXE_CTRL_HAZ_FREEZE c.t m))
          else acc) acc) acc) (s, false)

/-- A command under way: the blocks done with their results, and what they write and count. -/
structure EProg where
  results : List ((Nat × List Nat × Nat × Nat) × List ERes) := []
  w : EOut := {}

/-- The reduction results that block `bi` completes. -/
def ERun.putResults (c : ERun) (p : EProg) (bi : Nat) (last : Bool) (w : EOut) : EOut :=
  match findRed c.prog with
  | none => w
  | some u =>
      let k := if uMod u % 8 = 4 then c.km1 + 1 else 1
      let nodes := (p.results.zipIdx).flatMap fun b => c.redNodes u b.1 b.2
      let mine (key : Nat) := nodes.filter fun x => x.2.1 == key
      let ends (key : Nat) : Bool :=
        if (uMod u).testBit 3 then last else ((mine key).getLast?).map (·.1) == some bi && (p.results.getD bi ((0, [], 0, 0), [])).1.2.2.1 + 256 ≥ c.cols
      (((nodes.map (·.2.1)).eraseDups).filter ends).foldl (fun w key =>
        c.putResult u (((mine key).getLast?.map (·.1)).getD 0) key ((mine key).foldl (fun a x => combineOpt (uMod u % 8) k a (some x.2.2)) none) w) w

/-- One lane block: its elements, what it writes, and the reduction results it completes. -/
def ERun.block (c : ERun) (count : Nat) (p : EProg) (b : Nat × (Nat × List Nat × Nat × Nat)) : EProg :=
  let bi := p.results.length
  let c1 := { c with cyc := b.1, fresh := if c.wild.any id then p.w.buf.marked else [] }
  let es := c1.blockResults b.2
  let p1 := { p with results := p.results ++ [(b.2, es)] }
  let all := p1.results.flatMap (·.2)
  let w0 := { p.w with counts := p.w.counts ++ (es.flatMap fun e => e.wide.map fun x => (bi, x.1, x.2))
                         ++ (if (findRed c.prog).isSome then c.redInputs es bi else []) }
  let w1 := c.putOut all 1 (b.2, es) bi (c.putOut all 0 (b.2, es) bi w0)
  { p1 with w := c.putResults p1 bi (bi + 1 == count) w1 }

/-- What a checked command makes of its blocks, in order.  TOPK over the whole command has a result even of no element (R479). -/
def ERun.work (c : ERun) : EProg :=
  let bs := c.readCycles
  let p := bs.foldl (c.block bs.length) {}
  match findRed c.prog with
  | some u => if bs = [] ∧ (uMod u).testBit 3 ∧ uMod u % 8 = 4 then { p with w := c.putResult u 0 0 none p.w } else p
  | none => p

/-- ERUN at its issue moment (R88 to R111).  A DESC that its base register misaligns freezes QELE with 0x5001, and the lines of
the descriptor and of the mask are taken as they read, poisoned or not: the spec names no outcome of either (DESIGN
CHOICE, log entry 58). -/
def elementRun (t cyc : Nat) (e : Issued) (s : State) : State × Issue :=
  let q := t * 5 + 2
  let w := e.word
  match s.cmdOperand q w 128 20 32 with
  | none => (freezeHead q 0x3009 0 s, .held)
  | some dG =>
      let d := localOf dG
      if devOf dG ≠ s.devId ∨ !inPad t d 256 ∨ d % 256 ≠ 0 then (freezeEngine q 0x5001 s, .held)
      else
        let s0 := touch d 256 s
        let wd (i : Nat) : Nat := s0.readNat (d + 4 * i) 4
        let ops := (elementStreams t wd).map fun x => if x.kind = 1 then s0.operand q x.reg (x.off * 32) else some (s0.devId * 2 ^ 48)
        let maskA := padBase t + getBits (wd 49) 0 20 * 32
        let masked := getBits (wd 49) 20 1 == 1
        if ops.any (·.isNone) then (freezeHead q 0x3009 0 s0, .held)
        else if ops.any (fun a => devOf (a.getD 0) != s0.devId) || (masked && !inPad t maskA 16) then (freezeEngine q 0x5001 s0, .held)
        else
          let s1 := if masked then touch maskA 16 s0 else s0
          let mask := if masked then s1.readNat maskA 16 else 0
          let c := ERun.ofWords t cyc w wd (ops.map fun a => localOf (a.getD 0)) mask (s1.program t (cmdGet w 64 4)) s1
          match c.check with
          | some code => (freezeEngine q code s1, .held)
          | none =>
              let reads := (c.ins.zip c.bases).flatMap fun x => if x.1.kind = 1 then (List.range c.reps).flatMap fun n => c.ranges x.1 x.2 n false else []
              let s2 := forAll reads (fun x s => touch x.1 x.2 s) s1
              let hz := c.hazards e.idx s2
              let c2 := { c with s := hz.1, wild := (List.range 4).map fun i => c.clash i 0 || c.clash i 1 }
              let done := c2.work
              let results := done.results
              let o := done.w
              let psn := results.any fun b => b.2.any (·.psn)
              let ls := o.buf.lines.foldl (fun ls l => noteLine ls l hz.1) []
              let s3 := o.buf.flush hz.1
              let s4 := forAll ((o.counts.map (·.2.1)).eraseDups) (fun ori s =>
                applyTally (tileOvfBase t ori) 2 e.idx (s.step40 t % 65536) (recordTally o.counts ori results.length) s) s3
              let s5 := (s4.inc (ELE_BUSYCNT_CNT t) ((c2.blocks.map c2.cost).foldl (· + ·) 0)).inc (ELE_ELEMCNT_CNT t) (c2.live.length * c2.cols * c2.reps)
              let s6 := (s5.set (ELE_STAT_SLOT t) (cmdGet w 64 4))
              let s7 := if psn then event 0x2002 (srcTile t 2 0) (s6.set (ELE_STAT_PSN t) 1) else s6
              let s8 := if c2.wild.any id then { s7 with freeCtr := s7.freeCtr + 4 * c2.reps * c2.rows * c2.cols } else s7
              let frz := if hz.2 then some 0x1001 else if psn && s8.isSet (ELE_CTRL_PSN_FREEZE t) then some 0x2002 else none
              (s8, .issued { e with lines := ls, freeze := frz })

def execErun (t : TileId) (cyc : Nat) (s : State) : Res :=
  .next (showEngine (t.val * 5 + 2) (runHead (t.val * 5 + 2) 0x40 true (elementRun t cyc) s))

/-! ### ESTAMP (R110) -/

/-- A version word after ADVANCE. -/
def advanceVersion (v step : Nat) : Nat := (v / 2 ^ 40 + 1) % 2 ^ 24 * 2 ^ 40 + step % 2 ^ 40

/-- ESTAMP at its issue moment.  A version-word address that its base register misaligns is rounded down to 8 bytes: the spec
names no outcome (DESIGN CHOICE, log entry 58). -/
def elementStamp (t : Nat) (e : Issued) (s : State) : State × Issue :=
  let q := t * 5 + 2
  let copy := cmdGet e.word 64 2 == 1
  match s.cmdOperand q e.word 128 20 8, (if copy then s.cmdOperand q e.word 152 20 8 else some (s.devId * 2 ^ 48)) with
  | some dG, some cG =>
      let d := localOf dG / 8 * 8
      let src := if copy then localOf cG / 8 * 8 else d
      if devOf dG ≠ s.devId ∨ devOf cG ≠ s.devId ∨ !inPad t d 8 ∨ !inPad t src 8 then (freezeEngine q 0x5001 s, .held)
      else
        let s1 := touch src 8 s
        if s1.readPoison src 8 then (freezeEngine q 0x2004 s1, .held)
        else
          let v := s1.readNat src 8
          let new := if copy then v else advanceVersion v (s1.step40 t)
          (s1.write d (natBytes 8 new), .issued { e with lines := noteLine [] (d / 64) s1 })
  | _, _ => (freezeHead q 0x3009 0 s, .held)

def execEstamp (t : TileId) (s : State) : Res :=
  .next (showEngine (t.val * 5 + 2) (runHead (t.val * 5 + 2) 0x41 true (elementStamp t) s))

/-! ### The fault and the counters -/

/-- A parity fault in the element engine (R112). -/
def execElementParityFault (t : TileId) (begun : Nat) (s : State) : Res :=
  .next (abortCommand (t.val * 5 + 2) begun 0x2001 (srcTile t 2 0) s)

/-- ELE_CTRL.CNT_CLR (R115). -/
def execEleCntClr (p : PortId) (t : TileId) (s : State) : Res :=
  .next (ownerWrite p (aELE_CTRL t) (fun s => (s.wr (aELE_BUSYCNT t) 0).wr (aELE_ELEMCNT t) 0) s)

end Sys2Proof.Machine
end

