-- ==== Sys2Proof/Machine/Mirror.lean ====
section
/-! DEFINITION. Mirror regions (R207 to R212, R216) and the paths to host memory (R195, R367, R386, R390). -/

namespace Sys2Proof.Machine

/-! ### Mirror regions -/

/-- Whether a loss has stopped outbound mirroring: clearing LOST does not start it again, LPC_MIRCTL.EN written from 0 to 1 does
(R211). -/
def State.mirStopped (s : State) : Bool := s.isSet LPC_MIRSTAT_LOST || s.fab.mirStop

/-- ACTIVE follows MIRCTL.EN, the regions' EN and a loss. -/
def updateMirror (s : State) : State :=
  let on := s.isSet LPC_MIRCTL_EN && !s.mirStopped
  s.set LPC_MIRSTAT_ACTIVE (if on then (List.range 16).foldl (fun v r => v + s.get (LPC_MIRBASE_EN r) * 2 ^ r) 0 else 0)

/-- Whether region `r` may be enabled (R207). -/
def State.mirMayEnable (s : State) (r : Nat) : Bool :=
  let a := s.mirStart r
  let e := s.mirEnd r
  decide (a < e) && (decide (e ≤ 0x020000000000) || (decide (tier2Base ≤ a) && decide (e ≤ mirrorBase)))
    && decide (s.get (LPC_MIRDST_DST r) * 4096 + (e - a) ≤ 240 * 2 ^ 30)
    && (List.range 16).all fun x => x == r || !s.isSet (LPC_MIRBASE_EN x) || decide (s.mirEnd x ≤ a) || decide (e ≤ s.mirStart x)

/-- Whether LPC_MIRPART is kept: while a region's EN is 1 (R212), but not once a loss has stopped mirroring, as R449's restore
rewrites it then with the regions enabled (log entry 53). -/
def State.mirHeld (s : State) : Bool := ((List.range 16).any fun r => s.isSet (LPC_MIRBASE_EN r)) && !s.mirStopped

/-- Write a region's MIRBASE: enabling is checked, and BASE is kept while EN is 1 (R207, R212). -/
def mirBaseWrite (r v wlo whi : Nat) (s : State) : State :=
  let a := aLPC_MIRBASE r
  let grey := event 0x500B srcMirror
  let s1 := writeBits a v wlo whi s
  if s.isSet (LPC_MIRBASE_EN r) then
    let kept := s1.set (LPC_MIRBASE_BASE r) (s.get (LPC_MIRBASE_BASE r))
    updateMirror (if s1.get (LPC_MIRBASE_BASE r) = s.get (LPC_MIRBASE_BASE r) then kept else grey kept)
  else if s1.isSet (LPC_MIRBASE_EN r) ∧ !s1.mirMayEnable r then updateMirror (grey (s1.set (LPC_MIRBASE_EN r) 0))
  else updateMirror s1

/-- Write LPC_MIRCTL: EN written from 0 to 1 restarts mirroring after LOST (R211, R216). -/
def mirCtlWrite (v wlo whi : Nat) (s : State) : State :=
  let s1 := writeBits aLPC_MIRCTL v wlo whi s
  let restart (s : State) : State := (s.set LPC_MIRSTAT_LOST 0).setFab { s.fab with mirStop := false }
  updateMirror (if !s.isSet LPC_MIRCTL_EN ∧ s1.isSet LPC_MIRCTL_EN then restart s1 else s1)

/-- Whether a mirrored write may enter the BLK class: every mirrored write before it has been handed to the router (R208). -/
def State.blkOpen (s : State) : Bool := !s.fab.sends.any fun m => m.cls == kBlk && decide (m.next < m.cells.length)

/-- A range in parts of at most `m` bytes: offset and length of each; `fuel` bounds them. -/
def cutRange (m : Nat) : Nat → Nat → Nat → List (Nat × Nat)
  | 0, _, _ => []
  | k + 1, off, n => if n = 0 then [] else if n ≤ m then [(off, n)] else (off, m) :: cutRange m k (off + m) (n - m)

/-- The most data a segment carries (R293). -/
def segMax : Nat := 65472

/-- Send the mirror copies of a range as it now stands: the state and the bytes sent (R208). -/
def mirrorOut (a n : Nat) (s : State) : State × Nat :=
  (s.mirRegions a n).foldl (fun acc r =>
    let lo := max a (s.mirStart r)
    let hi := min (a + n) (s.mirEnd r)
    let dst := s.get LPC_MIRPART_PARTNER
    (cutRange segMax ((hi - lo) / segMax + 1) 0 (hi - lo)).foldl (fun (acc : State × Nat) p =>
      let at_ := lo + p.1
      let target := mirrorBase + s.get (LPC_MIRDST_DST r) * 4096 + at_ - s.mirStart r
      let psn (i : Nat) : Bool := acc.1.readPoison (at_ + 64 * i) (min 64 (p.2 - 64 * i))
      let cells := segment dst s.devId 5 1 (s.get LPC_MIRPART_PRGEN) p.2 target 0 (acc.1.bytes at_ p.2) psn
      (sendMessage dst kBlk cells (.mirror r) acc.1, acc.2 + p.2)) acc) (s, 0)

/-- An owner's enabling of region `r` (R207). -/
def execMirRegionEnable (p : PortId) (r : Fin 16) (s : State) : Res :=
  .next (ownerWrite p (aLPC_MIRBASE r) (fun s => mirBaseWrite r ((s.rd (aLPC_MIRBASE r)).toNat / 2 * 2 + 1) 0 63 s) s)

/-- An owner's write of LPC_MIRCTL.EN, LOCK kept (R211). -/
def execMirctlEn (p : PortId) (en : Bool) (s : State) : Res :=
  .next (ownerWrite p aLPC_MIRCTL (fun s => mirCtlWrite (s.get LPC_MIRCTL_LOCK * 2 + en.toNat) 0 31 s) s)

/-- A read of LPC_MIRUNMIR clears it (R8, R216). -/
def execLpcMirunmirRead (p : PortId) (s : State) : Res :=
  .next (if !s.ready then readReply p 0 s else (readReply p (s.rd aLPC_MIRUNMIR) s).wr aLPC_MIRUNMIR 0)

/-! ### Host memory (R386, R390) -/

/-- The length and the direction of a DMA descriptor. -/
def descLen (d : Nat) : Nat := getBits d 128 32
def descOut (d : Nat) : Bool := getBits d 160 8 == 1
/-- The device-side address of a descriptor, and the host-side one. -/
def descDev (d : Nat) : Nat := if descOut d then getBits d 0 64 else getBits d 64 64
def descHost (d : Nat) : Nat := if descOut d then getBits d 64 64 else getBits d 0 64


/-- Whether a Flume access to host space is served: the link is up, the function in D0 and Bus Master Enable 1. -/
def State.hostOpen (s : State) (p : Nat) : Bool :=
  s.isSet (HST_STAT_LINKUP p) && s.get (HST_STAT_DSTATE p) == 0 && s.isSet (HST_STAT_BME p)

/-- Write bytes, each with its poison, to host memory, one TLP for each part of a 128-byte line (log entry 20); a poisoned
one is sent with EP and reported (R429).  They carry relaxed ordering when the host enables it, but for the last write of a
descriptor (R367). -/
def hostWriteOut (p a : Nat) (descriptor : Bool) (bs : List (Byte × Bool)) (s : State) : State :=
  forAll (List.range ((a + bs.length + 127) / 128 - a / 128)) (fun k s =>
    let lo := max a ((a / 128 + k) * 128)
    let hi := min (a + bs.length) ((a / 128 + k + 1) * 128)
    let part := (bs.drop (lo - a)).take (hi - lo)
    let ro := (s.port p).relaxed && !(descriptor && hi == a + bs.length)
    let s1 := s.emit (.hostWrite p lo (part.map (·.1)) (part.any (·.2)) ro)
    if part.any (·.2) then event 0xA00C (srcHost p 0) s1 else s1) s

/-- Write bytes, each with its poison, to the lines of a range that `served` picks. -/
def writeWhere (served : Nat → Bool) (a : Nat) (bs : List (Byte × Bool)) (s : State) : State :=
  forAll ((linesOf a bs.length).filter served) (fun l s =>
    let lo := max a (l * 64)
    let hi := min (a + bs.length) (l * 64 + 64)
    let part := (bs.drop (lo - a)).take (hi - lo)
    writeLine lo (part.map (·.1)) (part.any (·.2)) s) s

/-- Write bytes, each with its poison, to local memory line by line. -/
def writeMarked (a : Nat) (bs : List (Byte × Bool)) (s : State) : State := writeWhere (fun _ => true) a bs s

/-- Write from a die: lines behind a failed bridge are not written (R426). -/
def writeServed (die a : Nat) (bs : List (Byte × Bool)) (s : State) : State := writeWhere (fun l => !s.cutOff die l) a bs s

end Sys2Proof.Machine
end

