-- ==== Sys2Proof/Machine/Flume.lean ====
section
/-! DEFINITION. The Flume commands FCOPY, FMOVE, FTINT and FMIRSYNC (R194 to R206, R210). -/

namespace Sys2Proof.Machine

/-! ### A command with its operands (R195 to R198, R201) -/

/-- A copy: its fields, the operand addresses as they were at issue, and its descriptor. -/
structure FlmJob where
  q : Nat
  e : Issued
  move : Bool
  sfmt : Nat
  dfmt : Nat
  cvt : Cvt
  ssp : Nat
  dsp : Nat
  treg : Nat
  ten : Bool
  cols : Nat
  rows : Nat
  spitch : Nat
  dpitch : Nat
  rep0 : Nat
  rep1 : Nat
  add : Bool

/-- Operand address `i` of an issued copy: source, destination, their scale arrays, version source and record. -/
def FlmJob.addr (j : FlmJob) (i : Nat) : Nat := j.e.job.getD i 0
/-- Word `i` of its descriptor. -/
def FlmJob.aux (j : FlmJob) (i : Nat) : Nat := j.e.job.getD (6 + i) 0

def FlmJob.of (q : Nat) (e : Issued) : FlmJob :=
  let g := cmdGet e.word
  if opcode e.word = 0x71 then
    { q := q, e := e, move := true, sfmt := fINT8, dfmt := fINT8, cvt := Cvt.ofBits 0, ssp := g 64 2, dsp := g 66 2, treg := g 68 3,
      ten := g 71 1 == 1, cols := (g 120 20 + 1) * 64, rows := 1, spitch := 0, dpitch := 0, rep0 := 1, rep1 := 1, add := false }
  else
    { q := q, e := e, move := false, sfmt := g 64 4, dfmt := g 68 4, cvt := Cvt.ofBits (g 72 16), ssp := g 88 2, dsp := g 90 2,
      treg := g 92 3, ten := g 95 1 == 1, cols := g 144 16 + 1, rows := g 160 16 + 1, spitch := g 176 16 * 32, dpitch := g 192 16 * 32,
      rep0 := g 208 8 + 1, rep1 := g 216 8 + 1, add := g 249 1 == 1 }

def FlmJob.tile (j : FlmJob) : Nat := j.q / 5
def FlmJob.engine (j : FlmJob) : Nat := j.q % 5 - 3
def FlmJob.vmode (j : FlmJob) : Nat := j.aux 11 % 4
def FlmJob.same (j : FlmJob) : Bool := j.sfmt == j.dfmt && !j.add

/-- Bytes of a row in a format: a block-scaled row fills its last block (R41). -/
def flmRowBytes (fmt cols : Nat) : Nat := elemBytes fmt (if fmtIsBlock fmt then (cols + 31) / 32 * 32 else cols)

/-- Where something lies: device memory, local to device `dev`, or host memory. -/
structure Place where
  space : Nat
  dev : Nat
  a : Nat
  deriving DecidableEq, Repr

/-- The address `g` of a space, displaced. -/
def placeOf (space g : Nat) (d : Int) : Place :=
  if space = 0 then ⟨0, devOf g, displace (localOf g) d⟩ else ⟨space, 0, (((g : Int) + d) % 2 ^ 64).toNat⟩

/-- Row `i` of a copy, over all its repetitions: repetition and row. -/
def FlmJob.repOf (j : FlmJob) (i : Nat) : Nat × Nat := (i / j.rows, i % j.rows)

/-- The displacement of row `i` by strides `s0` and `s1` and a pitch. -/
def FlmJob.shift (j : FlmJob) (i : Nat) (s0 s1 : Int) (pitch : Nat) : Int :=
  let n := (j.repOf i).1
  ((n % j.rep0 : Nat) : Int) * s0 + ((n / j.rep0 : Nat) : Int) * s1 + (((j.repOf i).2 * pitch : Nat) : Int)

def FlmJob.srcRow (j : FlmJob) (i : Nat) : Place :=
  placeOf j.ssp (j.addr 0) (j.shift i (32 * signed 32 (j.aux 0)) (32 * signed 32 (j.aux 2)) j.spitch)
def FlmJob.dstRow (j : FlmJob) (i : Nat) : Place :=
  placeOf j.dsp (j.addr 1) (j.shift i (32 * signed 32 (j.aux 1)) (32 * signed 32 (j.aux 3)) j.dpitch)
def FlmJob.srcScale (j : FlmJob) (i : Nat) : Place :=
  placeOf j.ssp (j.addr 2) (j.shift i (signed 16 (getBits (j.aux 7) 0 16)) (signed 16 (getBits (j.aux 8) 0 16)) (getBits (j.aux 6) 0 16))
def FlmJob.dstScale (j : FlmJob) (i : Nat) : Place :=
  placeOf j.dsp (j.addr 3) (j.shift i (signed 16 (getBits (j.aux 7) 16 16)) (signed 16 (getBits (j.aux 8) 16 16)) (getBits (j.aux 6) 16 16))

def FlmJob.count (j : FlmJob) : Nat := j.rows * j.rep0 * j.rep1
def FlmJob.blocks (j : FlmJob) : Nat := (j.cols + 31) / 32

/-- What a copy reads: row, whether it is the row's scales, place and length. -/
def FlmJob.reads (j : FlmJob) : List (Nat × Bool × Place × Nat) :=
  (List.range j.count).flatMap fun i => (i, false, j.srcRow i, flmRowBytes j.sfmt j.cols) ::
    (if fmtIsBlock j.sfmt then [(i, true, j.srcScale i, j.blocks)] else [])
/-- What it writes. -/
def FlmJob.writes (j : FlmJob) : List (Place × Nat) :=
  (List.range j.count).flatMap fun i => (j.dstRow i, flmRowBytes j.dfmt j.cols) ::
    (if fmtIsBlock j.dfmt then [(j.dstScale i, j.blocks)] else [])

/-! ### Checks at issue (R29, R39, R195, R201, R208, R278) -/

def State.isLocal (s : State) (p : Place) : Bool := p.space == 0 && p.dev == s.devId
def State.isRemote (s : State) (p : Place) : Bool := p.space == 0 && p.dev != s.devId

/-- Whether a queue may make an access: its grant locally; a host's path open; a remote address within 48 bits. -/
def State.mayAccess (s : State) (q : Nat) (p : Place) (n : Nat) (wr : Bool) : Bool :=
  if s.isLocal p then s.granted q p.a n wr
  else if p.space = 0 then decide (p.a + n ≤ 2 ^ 48)
  else s.hostOpen (p.space - 1)

/-- The code a copy fails with before it moves data, if any. -/
def FlmJob.check (j : FlmJob) (s : State) : Option Nat :=
  let align (fmt : Nat) : Nat := if j.move then 64 else if fmtIsBlock fmt then (if fmtBits fmt = 4 then 16 else 32) else 1
  let rows := List.range j.count
  let vp := placeOf 0 (j.addr 4) 0
  let rp := placeOf 0 (j.addr 5) 0
  let ok := j.reads.all (fun r => s.mayAccess j.q r.2.2.1 r.2.2.2 false) && j.writes.all (fun w => s.mayAccess j.q w.1 w.2 true)
    && rows.all (fun i => (j.srcRow i).a % align j.sfmt == 0 && (j.dstRow i).a % align j.dfmt == 0)
    && (j.vmode == 0 || (s.mayAccess j.q vp 8 false && s.isLocal rp && inPad j.tile rp.a 8))
  let remote := j.reads.any (fun r => s.isRemote r.2.2.1) || j.writes.any (fun w => s.isRemote w.1 || (s.isLocal w.1 && s.mirRegions w.1.a w.2 != []))
    || (j.vmode != 0 && s.isRemote vp)
  if !ok then some 0x5001 else if remote && !s.armed then some 0x600E else none

/-! ### Reading -/

/-- The number of the part of a read that starts `k` segments into row `i`; 0 is the version word's. -/
def pieceNo (i : Nat) (scale : Bool) (k : Nat) : Nat := ((i * 2 + scale.toNat) * 2048 + k) + 1

/-- The parts of a copy's reads that come from elsewhere: number, place and length. -/
def FlmJob.pieces (j : FlmJob) (s : State) : List (Nat × Place × Nat) :=
  (j.reads.filter fun r => !s.isLocal r.2.2.1).flatMap fun r =>
    ((cutRange segMax (r.2.2.2 / segMax + 1) 0 r.2.2.2).zipIdx).map fun c =>
      (pieceNo r.1 r.2.1 c.2, { r.2.2.1 with a := r.2.2.1.a + c.1.1 }, c.1.2)

/-- The lines of a command's pieces that have been asked for and have not come (R194). -/
def FlmJob.linesOut (j : FlmJob) (s : State) : Nat :=
  if j.e.gathered then 0
  else (((j.pieces s).filter fun p => j.e.asked.contains p.1 && !j.e.parts.any (·.1 == p.1)).map fun p => (linesOf p.2.1.a p.2.2).length).foldl (· + ·) 0

/-- Ask another device or a host for data. -/
def requestPiece (q uid no : Nat) (p : Place) (n : Nat) (s : State) : State :=
  if p.space = 0 then sendMessage p.dev kReq (segment p.dev s.devId 2 0 0 n p.a 0 [] fun _ => false) (.remote q uid no) s
  else
    let tag := s.nextUid
    let s1 := bumpUid (s.setFab { s.fab with hostReads := s.fab.hostReads ++ [{ port := p.space - 1, tag := tag, q := q, uid := uid, piece := no, len := n }] })
    s1.emit (.hostRead (p.space - 1) p.a n tag)

/-- The bytes of one read: from local memory, or from the parts that have come back. -/
def FlmJob.bytesOf (j : FlmJob) (s : State) (i : Nat) (scale : Bool) (p : Place) (n : Nat) : List (Byte × Bool) :=
  if s.isLocal p then s.readFrom (queueDie j.q) p.a n
  else (List.range (n / segMax + 1)).flatMap fun k => ((j.e.parts.find? (·.1 == pieceNo i scale k)).map (·.2)).getD []

/-! ### Converting a row (R198, R199, R204) -/

/-- Element `i` of packed bytes. -/
def bitsOf (bs : List (Byte × Bool)) (fmt i : Nat) : Nat :=
  if fmtBits fmt = 4 then getBits ((bs.getD (i / 2) (0, false)).1).toNat (4 * (i % 2)) 4
  else leNat ((List.range (fmtBits fmt / 8)).map fun k => ((bs.getD (i * (fmtBits fmt / 8) + k) (0, false)).1).toNat)
/-- Whether element `i` is poisoned. -/
def psnOf (bs : List (Byte × Bool)) (fmt i : Nat) : Bool := (bs.getD (i * fmtBits fmt / 8) (0, false)).2

/-- Elements with their poison packed into bytes. -/
def packMarked (fmt : Nat) (es : List (Nat × Bool)) : List (Byte × Bool) :=
  ((packElems fmt (es.map (·.1))).zipIdx).map fun b =>
    (b.1, if fmtBits fmt = 4 then (es.getD (2 * b.2) (0, false)).2 || (es.getD (2 * b.2 + 1) (0, false)).2
          else (es.getD (b.2 / (fmtBits fmt / 8)) (0, false)).2)

/-- The element index of the first element of row `i`. -/
def FlmJob.idx (j : FlmJob) (i : Nat) : Nat := j.aux 10 + i * j.cols
/-- Its draws: the job seed and the STEP are those of its issue (R49, R50, R140). -/
def FlmJob.draw (j : FlmJob) : Nat → Nat := rngDraw j.e.seed (streamId j.tile (j.q % 5) (j.aux 9 % 65536)) j.e.step

/-- The elements of row `i` widened to FP32 values, with their poison, whether their widening counted, and the counts. -/
def FlmJob.widenRow (j : FlmJob) (i : Nat) (data scales : List (Byte × Bool)) (t : Tally) : List (Val × Bool × Bool) × Tally :=
  (List.range j.cols).foldl (fun (acc : List (Val × Bool × Bool) × Tally) c =>
    let b := bitsOf data j.sfmt c
    let sc := scales.getD (c / 32) (0, false)
    let blk := fmtIsBlock j.sfmt
    let per := if fmtBits j.sfmt = 4 then 16 else 32
    let psn := if blk then sc.2 || ((data.drop (c / 32 * per)).take per).any (·.2) else psnOf data j.sfmt c
    let w := widenIn j.cvt j.draw (j.idx i + c) (if blk then decodeScaled j.sfmt sc.1.toNat b else decodeElem j.sfmt b) acc.2
    (acc.1 ++ [(w.1, psn, w.2.2)], w.2.1)) ([], t)

/-- A row as written: elements, scales, and what the conversion counts. -/
def FlmJob.convert (j : FlmJob) (i : Nat) (data scales : List (Byte × Bool)) (t : Tally) :
    List (Byte × Bool) × List (Byte × Bool) × Tally :=
  if j.same then
    if !fmtIsBlock j.sfmt then (data, [], t)
    else
      let per := if fmtBits j.sfmt = 4 then 16 else 32
      let bad (b : Nat) : Bool := (scales.getD b (0, false)).2 || ((data.drop (b * per)).take per).any (·.2)
      ((data.zipIdx).map (fun x => (x.1.1, bad (x.2 / per))), (scales.zipIdx).map (fun x => (x.1.1, bad x.2)), t)
  else
    let w := j.widenRow i data scales t
    if j.add then (packMarked fFP32 (w.1.map fun v => (f32Round v.1, v.2.1)), [], w.2)
    else if fmtIsBlock j.dfmt then
      (List.range j.blocks).foldl (fun (acc : List (Byte × Bool) × List (Byte × Bool) × Tally) b =>
        let vs := (w.1.drop (b * 32)).take 32
        let psn := vs.any (·.2.1)
        let first := j.idx i + b * 32
        let r := cvtBlock j.cvt j.draw ((vs.zipIdx).map fun v => (first + v.2, v.1.1)) acc.2.2
          fun k => (vs.getD (k - first) (Val.zero, false, false)).2.2
        (acc.1 ++ packMarked j.dfmt ((r.2.1 ++ List.replicate (32 - vs.length) 0).map fun x => (x, psn)),
         acc.2.1 ++ [(BitVec.ofNat 8 r.1, psn)], r.2.2)) ([], [], w.2)
    else
      let r := (w.1.zipIdx).foldl (fun (acc : List (Nat × Bool) × Tally) v =>
        let c := cvtElem j.cvt j.draw (j.idx i + v.2) v.1.1 acc.2 v.1.2.2
        (acc.1 ++ [(c.1, v.1.2.1)], c.2)) ([], w.2)
      (packMarked j.dfmt r.1, [], r.2)

/-! ### Writing (R199, R202, R208) -/

/-- What a copy has written so far. -/
structure FlmOut where
  s : State
  lines : List (Nat × Bool × List Byte) := []
  far : List (Nat × Nat × List Byte) := []
  copies : List (Nat × Nat) := []
  waits : List Nat := []
  tally : Tally := {}
  psn : Bool := false

/-- Add the lines of a row to a tint (R202). -/
def tintLines (t f reg a n : Nat) (s : State) : State :=
  forAll (linesOf a n) (fun l s =>
    if s.poisoned l then s.set (FLM_STAT_TPSN t f) 1
    else
      let off := (l * 64 + 2 ^ 64 - s.get (FLM_TORG_ORIGIN t f reg)) % 2 ^ 64
      s.inc (FLM_TINT_TINT t f reg) (crc64 (leBytes 8 off ++ (s.bytes (l * 64) 64).map (·.toNat)))) s

/-- The parts of a byte string at an address that lie in one line each, with their addresses. -/
def lineParts (a : Nat) (bs : List (Byte × Bool)) : List (Nat × List (Byte × Bool)) :=
  (linesOf a bs.length).map fun l =>
    let lo := max a (l * 64)
    (lo, (bs.drop (lo - a)).take (min (a + bs.length) (l * 64 + 64) - lo))

/-- Add lines written on another device to a tint, from the bytes as written (R202).  The rest of a line written in part is
not known here, and the tint is then open: a free value (log entry 61). -/
def tintFar (t f reg a : Nat) (bs : List (Byte × Bool)) (s : State) : State :=
  forAll (lineParts a bs) (fun p s =>
    if p.2.any (·.2) then s.set (FLM_STAT_TPSN t f) 1
    else if p.2.length ≠ 64 then (s.wr (aFLM_TINT t f reg) (s.fresh 64)).tick
    else
      let off := (p.1 + 2 ^ 64 - s.get (FLM_TORG_ORIGIN t f reg)) % 2 ^ 64
      s.inc (FLM_TINT_TINT t f reg) (crc64 (leBytes 8 off ++ p.2.map (·.1.toNat)))) s

/-- FP32 sums of the old elements at `a` and a row's, atomically by line, with the old lines' poison (R199). -/
def addRow (c : Cvt) (draw : Nat → Nat) (idx a : Nat) (row : List (Byte × Bool)) (s : State) (t : Tally) : List (Byte × Bool) × Tally :=
  let old := s.readMarked a row.length
  let r := (List.range (row.length / 4)).foldl (fun (acc : List (Nat × Bool) × Tally) k =>
    let v := (f32 (bitsOf old fFP32 k)).add (f32 (bitsOf row fFP32 k))
    let w := cvtElem { c with fmt := fFP32 } draw (idx + k) v acc.2
    (acc.1 ++ [(w.1, psnOf row fFP32 k || psnOf old fFP32 k)], w.2)) ([], t)
  (packMarked fFP32 r.1, r.2)

/-- Write a row, or its scales, of a copy. -/
def FlmJob.put (j : FlmJob) (i : Nat) (scale : Bool) (p : Place) (bs : List (Byte × Bool)) (o : FlmOut) : FlmOut :=
  let s := o.s.inc (FLM_BYTECNT_CNT j.tile j.engine) bs.length
  if s.isLocal p then
    let s0 := accessRange p.a bs.length s
    let s1 := if j.add then touch p.a bs.length s0 else s0
    let r := if j.add then addRow j.cvt j.draw (j.idx i) p.a bs s1 o.tally else (bs, o.tally)
    let lines := (linesOf p.a bs.length).foldl (fun ls l => noteLine ls l s1) o.lines
    let s2 := writeServed (queueDie j.q) p.a r.1 s1
    let first := p.a / 64 * 64
    let m := if j.add then mirrorOut first ((linesOf p.a bs.length).length * 64) s2 else mirrorOut p.a bs.length s2
    let s3 := m.1.inc (FLM_MIRCNT_CNT j.tile j.engine) m.2
    let copies := if m.2 = 0 then o.copies else o.copies ++ [(s2.nextUid, m.1.nextUid)]
    { o with s := if j.ten && !scale then tintLines j.tile j.engine j.treg p.a bs.length s3 else s3, lines := lines, copies := copies, tally := r.2 }
  else if p.space = 0 then
    (cutRange segMax (bs.length / segMax + 1) 0 bs.length).foldl (fun o c =>
      let part := (bs.drop c.1).take c.2
      let psn (k : Nat) : Bool := ((part.drop (64 * k)).take 64).any (·.2)
      let flags := if j.add then 2 * j.cvt.rnd + 8 * j.cvt.sat.toNat else 0
      let cells := segment p.dev o.s.devId (if j.add then 4 else 1) flags 0 c.2 (p.a + c.1) 0 (part.map (·.1)) psn
      { o with s := sendMessage p.dev kReq cells (.remote j.q j.e.uid (pieceNo i scale 0)) o.s, waits := o.waits ++ [o.s.nextUid] })
      { o with s := if j.ten && !scale then tintFar j.tile j.engine j.treg p.a bs s else s,
               far := o.far ++ (lineParts p.a bs).map fun l => (p.dev, l.1, l.2.map (·.1)) }
  else { o with s := hostWriteOut (p.space - 1) p.a false bs s }

/-- Convert and write everything, all the data being there: the state and the command as issued. -/
def flumeFinish (j : FlmJob) (s : State) : State × Issued :=
  let scalesOf (i : Nat) : List (Byte × Bool) := if fmtIsBlock j.sfmt then j.bytesOf s i true (j.srcScale i) j.blocks else []
  let o := (List.range j.count).foldl (fun (o : FlmOut) i =>
    let data := j.bytesOf s i false (j.srcRow i) (flmRowBytes j.sfmt j.cols)
    let sc := scalesOf i
    let r := j.convert i data sc o.tally
    let o1 := j.put i false (j.dstRow i) r.1 { o with tally := r.2.2, psn := o.psn || data.any (·.2) || sc.any (·.2) }
    if fmtIsBlock j.dfmt then j.put i true (j.dstScale i) r.2.1 o1 else o1) { s := s, lines := j.e.lines, far := j.e.far, copies := j.e.copies }
  let s1 := if j.same then o.s
    else applyTally (tileOvfBase j.tile j.cvt.ori) (j.q % 5) j.e.idx (o.s.step40 j.tile % 65536) o.tally o.s
  let s2 := if o.psn then event 0x5005 (srcTile j.tile (j.q % 5) 0) (s1.set (FLM_STAT_PSN j.tile j.engine) 1) else s1
  let frz := if o.psn && s2.isSet (FLM_CTRL_PSN_FREEZE j.tile j.engine) then some 0x5005 else none
  (s2, { j.e with lines := o.lines, far := o.far, copies := o.copies, waits := o.waits, parts := [], asked := [], asking := false, gathered := true,
                  freeze := frz, status := if o.waits = [] then .done else .busy })

/-- Ask for a command's pieces in order, while its engine has at most 2,048 line reads outstanding; `used` are those of its
other commands (R194). -/
def flumeAsk (j : FlmJob) (used : Nat) (s : State) : State × Issued :=
  let ps := j.pieces s
  let r := (ps.zipIdx).foldl (fun (acc : State × Issued) p =>
    let out := ({ j with e := acc.2 } : FlmJob).linesOut s
    if acc.2.asked.length = p.2 ∧ used + out + (linesOf p.1.2.1.a p.1.2.2).length ≤ 2048 then
      (requestPiece j.q j.e.uid p.1.1 p.1.2.1 p.1.2.2 acc.1, { acc.2 with asked := acc.2.asked ++ [p.1.1] })
    else acc) (s, j.e)
  (r.1, { r.2 with status := .busy, asking := decide (r.2.asked.length < ps.length) })

/-- The line reads outstanding of an engine's commands other than `uid`. -/
def State.linesOut (s : State) (q uid : Nat) : Nat :=
  ((((s.que q).issued.filter fun e => e.isEngine && e.uid != uid && decide (e.status = .busy)).map fun e => (FlmJob.of q e).linesOut s)).foldl (· + ·) 0

/-- Start reading, after the version word agrees: at once where everything is local. -/
def flumeGather (j : FlmJob) (s : State) : State × Issued :=
  let s1 := forAll (j.reads.filter fun r => s.isLocal r.2.2.1) (fun r s => touch r.2.2.1.a r.2.2.2 (accessRange r.2.2.1.a r.2.2.2 s)) s
  if j.pieces s = [] then flumeFinish j s1 else flumeAsk j (s.linesOut j.q j.e.uid) s1

/-- The version check with the word read (R200): the state, whether the command goes on, the detail if not, and the
record to write at retirement. -/
def FlmJob.version (j : FlmJob) (word : Nat) (psn : Bool) (s : State) : State × Bool × Nat × Option (Nat × Nat) :=
  let vr := (placeOf 0 (j.addr 5) 0).a
  if j.vmode = 2 then
    let s1 := touch vr 8 s
    let rec_ := s1.readNat vr 8
    (s1, !psn && !s1.readPoison vr 8 && word == rec_, word % 2 ^ 32 * 2 ^ 32 + rec_ % 2 ^ 32, none)
  else (s, !psn, word % 2 ^ 32 * 2 ^ 32, some (vr, word))

/-! ### FCOPY and FMOVE at issue -/

/-- The operand addresses of a copy, if none carries out of 48 bits. -/
def State.flumeOperands (s : State) (q : Nat) (e : Issued) (aux : List Nat) : Option (List Nat) :=
  let w := e.word
  let word (k : Nat) : Nat := aux.getD k 0
  let blk (fmt k : Nat) : Option Nat := if fmtIsBlock fmt then s.operand q (getBits (word k) 20 4) (getBits (word k) 0 20 * 32) else some 0
  let ver (k : Nat) : Option Nat := if word 11 % 4 ≠ 0 then s.operand q (getBits (word k) 20 4) (getBits (word k) 0 20 * 8) else some 0
  if opcode w = 0x71 then
    match s.cmdOperand q w 72 20 32, s.cmdOperand q w 96 20 32 with
    | some a, some b => some ([a, b, 0, 0, 0, 0] ++ aux)
    | _, _ => none
  else match s.cmdOperand q w 96 20 32, s.cmdOperand q w 120 20 32, blk (cmdGet w 64 4) 4, blk (cmdGet w 68 4) 5, ver 12, ver 13 with
    | some a, some b, some c, some d, some x, some y => some ([a, b, c, d, x, y] ++ aux)
    | _, _, _, _, _, _ => none

/-- Where FCOPY's descriptor lies: none without one, an operand that carries, or an address. -/
def flumeAux (q : Nat) (e : Issued) (s : State) : Option (Option Nat) :=
  if opcode e.word = 0x70 ∧ cmdGet e.word 248 1 = 1 then (s.cmdOperand q e.word 224 20 32).map some else some none

/-- Whether a Flume engine can take its next command: it holds fewer than four, and the one before has issued all its requests
(R194). -/
def State.flumeRoom (s : State) (q : Nat) : Bool :=
  let held := (s.que q).issued.filter fun e => e.isEngine && decide (e.status ≠ .rerun)
  decide (held.length < 4) && !held.any (·.asking)

/-- Whether a copy writes into a mirrored region. -/
def FlmJob.mirrored (j : FlmJob) (s : State) : Bool := j.writes.any fun w => s.isLocal w.1 && s.mirRegions w.1.a w.2 != []

/-- The head command stays at the head, past its WAIT and its predicate. -/
def holdHead (q : Nat) (s : State) : State := s.setQue q { s.que q with waited := true, chosen := true }

/-- A copy at its issue moment.  It stays at the head while its engine is full, and a write into a mirrored region until its
copies can enter the BLK class (R208; log entry 61). -/
def flumeCopy (q : Nat) (e : Issued) (s : State) : State × Issue :=
  if !s.flumeRoom q then (holdHead q s, .held) else
  match flumeAux q e s with
  | none => (freezeHead q 0x3009 0 s, .held)
  | some aux =>
      let a := localOf (aux.getD 0)
      if aux.any (fun g => devOf g != s.devId || !inPad (q / 5) a 128 || a % 128 != 0) then (freezeEngine q 0x5001 s, .held)
      else
        let s0 := if aux.isSome then touch a 128 s else s
        let words := (List.range 14).map fun i => if aux.isSome then s0.readNat (a + 4 * i) 4 else 0
        match s0.flumeOperands q e words with
        | none => (freezeHead q 0x3009 0 s0, .held)
        | some ops =>
            let e1 := { e with job := ops }
            let j := FlmJob.of q e1
            match j.check s0 with
            | some code => (freezeEngine q code s0, .held)
            | none =>
                if j.mirrored s0 && !s0.blkOpen then (holdHead q s, .held)
                else if j.vmode = 0 then let r := flumeGather j s0; (r.1, .issued r.2)
                else
                  let vp := placeOf 0 (j.addr 4) 0
                  if s0.isLocal vp then
                    let s1 := touch vp.a 8 (accessRange vp.a 8 s0)
                    let v := j.version (s1.readNat vp.a 8) (s1.poisonFrom (queueDie q) vp.a 8) s1
                    if v.2.1 then let r := flumeGather { j with e := { e1 with record := v.2.2.2, parts := [(0, [])] } } v.1; (r.1, .issued r.2)
                    else (freezeEngineD q 0x5006 v.2.2.1 v.1, .held)
                  else (requestPiece q e1.uid 0 vp 8 s0, .issued { e1 with status := .busy, asking := true })

/-- Line reads have come back: the command that still has requests to issue issues them. -/
def flumeMore (q : Nat) (s : State) : State :=
  match (s.que q).issued.find? fun e => e.asking && ((FlmJob.of q e).vmode == 0 || e.parts.any (·.1 == 0)) with
  | none => s
  | some e => let r := flumeAsk (FlmJob.of q e) (s.linesOut q e.uid) s; setIssued q e.uid (fun _ => r.2) r.1

/-- A part of an issued copy's source has come back. -/
def flumePart (q uid no : Nat) (bs : List (Byte × Bool)) (s : State) : State :=
  match s.findIssued q uid with
  | none => s
  | some e =>
      let keep (r : State × Issued) : State := showEngine q (setIssued q uid (fun _ => r.2) r.1)
      if no = 0 then
        let j := FlmJob.of q e
        let v := j.version (leNat ((bs.take 8).map (·.1.toNat))) (bs.any (·.2)) s
        if v.2.1 then keep (flumeGather { j with e := { e with record := v.2.2.2, parts := [(0, [])] } } v.1)
        else failIssued q uid 0x5006 (eventD 0x5006 (srcEngine q) v.2.2.1 v.1)
      else
        let j := FlmJob.of q { e with parts := (e.parts.filter (·.1 != no)) ++ [(no, bs)] }
        let s1 := flumeMore q (setIssued q uid (fun _ => j.e) s)
        if (j.pieces s1).all fun p => j.e.parts.any (·.1 == p.1) then
          if (j.writes.all fun w => w.1.space == 0 || s1.hostOpen (w.1.space - 1)) then keep (flumeFinish j s1)
          else failIssued q uid 0x5001 (event 0x5001 (srcEngine q) s1)
        else s1

def flumeQ (t : TileId) (f : Fin 2) : Nat := t.val * 5 + 3 + f.val

def execFcopy (t : TileId) (f : Fin 2) (s : State) : Res :=
  .next (showEngine (flumeQ t f) (runHead (flumeQ t f) 0x70 false (flumeCopy (flumeQ t f)) s))
def execFmove (t : TileId) (f : Fin 2) (s : State) : Res :=
  .next (showEngine (flumeQ t f) (runHead (flumeQ t f) 0x71 false (flumeCopy (flumeQ t f)) s))

/-! ### FTINT and FMIRSYNC (R203, R210, R211) -/

/-- FTINT: store the tint, then clear it. -/
def flumeTint (q : Nat) (e : Issued) (s : State) : State × Issue :=
  let t := q / 5
  let f := q % 5 - 3
  let reg := cmdGet e.word 64 3
  let clr (s : State) : State := if cmdGet e.word 68 1 = 1 then s.wr (aFLM_TINT t f reg) 0 else s
  if cmdGet e.word 67 1 = 0 then (clr s, .issued e)
  else match s.cmdOperand q e.word 72 20 8 with
    | none => (freezeHead q 0x3009 0 s, .held)
    | some g =>
        let p := placeOf 0 g 0
        let e1 := { e with job := [0, g] }
        let j := { FlmJob.of q e1 with dsp := 0, add := false, ten := false }
        if !s.mayAccess q p 8 true then (freezeEngine q 0x5001 s, .held)
        else if (s.isRemote p || s.mirRegions p.a 8 != []) && !s.armed then (freezeEngine q 0x600E s, .held)
        else
          if s.isLocal p && s.mirRegions p.a 8 != [] && !s.blkOpen then (holdHead q s, .held) else
          let o : FlmOut := j.put 0 false p ((natBytes 8 (s.rd (aFLM_TINT t f reg)).toNat).map fun b => (b, false)) { s := s }
          (clr o.s, .issued { e1 with lines := o.lines, far := o.far, copies := o.copies, waits := o.waits, gathered := true, status := if o.waits = [] then .done else .busy })

def execFtint (t : TileId) (f : Fin 2) (s : State) : Res :=
  .next (showEngine (flumeQ t f) (runHead (flumeQ t f) 0x72 true (flumeTint (flumeQ t f)) s))

/-- FMIRSYNC: wait for the partner's acknowledgment of every mirrored write of the region issued before. -/
def flumeMirsync (q : Nat) (e : Issued) (s : State) : State × Issue :=
  let r := cmdGet e.word 64 4
  let try_ := cmdGet e.word 68 1 == 1
  if !s.isSet (LPC_MIRBASE_EN r) then (s, .issued e)
  else if s.mirStopped then
    if try_ then (event 0x3006 (srcQueue q) s, .issued e) else (freezeHead q 0x3006 0 s, .held)
  else
    let ws := (s.fab.sends.filter fun m => decide (m.origin = .mirror r)).map (·.uid)
    if ws = [] then (mirsyncDone q e s, .issued e)
    else (s, .issued { e with waits := ws, gathered := true, status := .busy })

def execFmirsync (t : TileId) (f : Fin 2) (s : State) : Res :=
  .next (showEngine (flumeQ t f) (runHead (flumeQ t f) 0x73 true (flumeMirsync (flumeQ t f)) s))

/-! ### The fault and the counters -/

/-- Poison a line begun on another device: its bytes go there again, poisoned; an ADD's with the addend −0, which changes no
element (R204; log entry 61). -/
def poisonFar (q uid : Nat) (add : Bool) (l : Nat × Nat × List Byte) (s : State) : State :=
  let bs := if add then (List.range (l.2.2.length / 4)).flatMap fun _ => natBytes 4 0x80000000 else l.2.2
  sendMessage l.1 kReq (segment l.1 s.devId (if add then 4 else 1) 0 0 bs.length l.2.1 0 bs fun _ => true) (.remote q uid 0) s

/-- Of the lines a command wrote here, poison the first `begun` and put back the rest.  Mirror copies of it that have not gone
are called off, and the partner gets the lines as they now stand. -/
def undoLines (begun : Nat) (e : Issued) (s : State) : State :=
  let s1 := poisonLines (e.lines.take begun) (forAll (e.lines.drop begun).reverse restoreLine s)
  let mine (m : Send) : Bool := m.next == 0 && e.copies.any fun c => decide (c.1 ≤ m.uid) && decide (m.uid < c.2)
  forAll (e.lines.map (·.1)) (fun l s => (mirrorOut (l * 64) 64 s).1) (dropSends mine s1)

/-- Undo a faulted command: `begun` of the lines it writes had been begun, those here first. -/
def flumeUndo (q begun : Nat) (e : Issued) (s : State) : State :=
  forAll (e.far.take (begun - e.lines.length)) (poisonFar q e.uid (FlmJob.of q e).add) (undoLines begun e s)

/-- The tint a faulted command adds to, or stores, is open: a free value (R204). -/
def flumeTintOpen (t f q : Nat) (e : Issued) (s : State) : State :=
  let open_ (reg : Nat) : State := (s.wr (aFLM_TINT t f reg) (s.fresh 64)).tick
  let op := opcode e.word
  if (op = 0x70 ∨ op = 0x71) ∧ (FlmJob.of q e).ten ∧ e.gathered then open_ (FlmJob.of q e).treg
  else if op = 0x72 ∧ cmdGet e.word 68 1 = 1 then open_ (cmdGet e.word 64 3) else s

/-- The lines each command had begun, of `begun` in all, the oldest command's first. -/
def shareBegun : Nat → List Issued → List (Issued × Nat)
  | _, [] => []
  | b, e :: es => (e, b) :: shareBegun (b - (e.lines.length + e.far.length)) es

/-- A parity fault aborts every command the engine holds: of the lines they write, the first `begun` had been begun (R204). -/
def execFlumeParityFault (t : TileId) (f : Fin 2) (begun : Nat) (s : State) : Res :=
  .next (
    let q := flumeQ t f
    let mine := (s.que q).issued.filter fun e => e.isEngine && decide (e.status ≠ .rerun)
    match mine with
    | [] => s
    | e :: _ =>
        let gone (m : Send) : Bool := match m.origin with
          | .remote q' u _ => q' == q && mine.any (·.uid == u)
          | _ => false
        let s1 := dropSends gone (s.setFab { s.fab with hostReads := s.fab.hostReads.filter fun h => h.q != q })
        let s2 := forAll mine (flumeTintOpen t f q) (forAll (shareBegun begun mine).reverse (fun x s => flumeUndo q x.2 x.1 s) s1)
        let s3 := mapIssued q (fun e => if e.isEngine ∧ e.status ≠ .rerun then
          { e with status := .rerun, lines := [], far := [], copies := [], waits := [], parts := [], asked := [], asking := false,
                   gathered := false, freeze := none, record := none } else e) s2
        showEngine q (freezeQueue q 0x500A 0 e.idx 0 (event 0x500A (srcEngine q) (markAbort q e.idx s3))))

/-- FLM_CTRL.CNT_CLR (R214). -/
def execFlmCntClr (p : PortId) (t : TileId) (f : Fin 2) (s : State) : Res :=
  .next (ownerWrite p (aFLM_CTRL t f) (fun s => (s.wr (aFLM_BYTECNT t f) 0).wr (aFLM_MIRCNT t f) 0) s)

end Sys2Proof.Machine
end

