-- ==== Sys2Proof/Machine/Links.lean ====
section
/-! DEFINITION. The link rows: link states and timers, hello, retry, the plan, and the routing table's own writes
(R246 to R284, R287). -/

namespace Sys2Proof.Machine

/-- A frame as it is sent: its FCS follows. -/
def withFcs (bs : List Nat) : List Byte := (bs ++ leBytes 4 (crc32 bs)).map (BitVec.ofNat 8)
/-- A link's own MAC, first-transmitted byte first. -/
def State.ownMac (s : State) (n : Nat) : List Nat := leBytes 6 (s.get (RTE_ETHMAC_MAC n))
/-- Where a class's field stands in RTE_ETHDSCP and RTE_ETHPCP. -/
def classSlot (k : Nat) : Nat := if k = kCtl then 0 else k - 1
def State.classPcp (s : State) (k : Nat) : Nat := getBits (s.get RTE_ETHPCP_PCP) (3 * classSlot k) 3
def State.classDscp (s : State) (k : Nat) : Nat := getBits (s.get RTE_ETHDSCP_DSCP) (6 * classSlot k) 6

/-! ### Priority flow control (R309) -/

/-- A PFC frame for one priority. -/
def State.pfcFrame (s : State) (n prio quanta : Nat) : List Byte :=
  let times := (List.range 8).flatMap fun i => beBytes 2 (if i = prio then quanta else 0)
  let body := [0x01, 0x80, 0xC2, 0x00, 0x00, 0x01] ++ s.ownMac n ++ [0x88, 0x08, 0x01, 0x01] ++ beBytes 2 (2 ^ prio) ++ times
  withFcs (body ++ List.replicate (60 - body.length) 0)

/-- Whether any VC buffer of a class on a link is held, at or below XOFF and not yet at XON. -/
def State.classHeld (s : State) (n k : Nat) : Bool := (classVcs k).any fun v => !((s.link n).rxOn.testBit v)

/-- Send PFC frames for the classes whose hold begins or ends. -/
def pfcUpdate (s : State) : State :=
  if !s.isSet RTE_ETHCFG_PFC then s else
  forAll (allLinks.filter s.isEth) (fun n s =>
    forAll [kCtl, kReq, kRsp, kBlk] (fun k s =>
      let l := s.link n
      let held := s.classHeld n k
      let sent := l.pfcSent.testBit k
      if held && !sent then (s.setLink n { l with pfcSent := putBits l.pfcSent k 1 1 }).emit (.frame n (s.pfcFrame n (s.classPcp k) 0xFFFF))
      else if sent && !held then (s.setLink n { l with pfcSent := putBits l.pfcSent k 1 0 }).emit (.frame n (s.pfcFrame n (s.classPcp k) 0))
      else s) s) s

/-- Go on after anything that may have freed a way: held cells, waiting messages, cells for this device, and the PFC frames
that the buffers' levels then ask for. -/
def settleFab (s : State) : State := pfcUpdate (drainInbox 64 (pump (routeHeld s)))

/-! ### LNK_CTRL, LNK_TEST and LNK_PLAN (R252, R273 to R276, R279, R281) -/

/-- An owner's write of LNK_CTRL with one bit changed, its write-only bits otherwise 0. -/
def lnkCtrlBit (p : PortId) (n : LinkId) (bit : Nat) (on : Bool) (s : State) : State :=
  settleFab (ownerWrite p (aLNK_CTRL n) (fun s => lnkCtrl n (putBits (putBits (putBits (s.rd (aLNK_CTRL n)).toNat 4 1 0) 7 1 0) bit 1 on.toNat) s) s)

def execLinkEn (p : PortId) (n : LinkId) (en : Bool) (s : State) : Res := .next (lnkCtrlBit p n 0 en s)
def execRetrain (p : PortId) (n : LinkId) (s : State) : Res := .next (lnkCtrlBit p n 4 true s)
def execPark (p : PortId) (n : LinkId) (on : Bool) (s : State) : Res := .next (lnkCtrlBit p n 3 on s)
def execLpm (p : PortId) (n : LinkId) (on : Bool) (s : State) : Res := .next (lnkCtrlBit p n 6 on s)
def execLnkCntClr (p : PortId) (n : LinkId) (s : State) : Res := .next (lnkCtrlBit p n 7 true s)

/-- Write LNK_TEST: only while the link is DOWN (R252). -/
def lnkTestWrite (n v wlo whi : Nat) (s : State) : State :=
  if s.lstate n ≠ lDown then event 0x600C (srcLink n) s
  else
    let s1 := writeBits (aLNK_TEST n) v wlo whi s
    s1.emit (.test n (s1.get (LNK_TEST_PATTERN n)) (s1.isSet (LNK_TEST_LOOP n)))

/-- A write of LNK_TEST, and the bit errors that then come in from the lanes: the checker counts them unless the near-end
loopback gives it the transmitter's own pattern. -/
def execLnkTest (p : PortId) (n : LinkId) (v : BitVec 32) (errs : Nat) (s : State) : Res :=
  .next (ownerWrite p (aLNK_TEST n) (fun s =>
    let s1 := lnkTestWrite n v.toNat 0 31 s
    if s.lstate n = lDown ∧ s1.isSet (LNK_TEST_CHK n) ∧ s1.get (LNK_TEST_PATTERN n) ≠ 0 ∧ !s1.isSet (LNK_TEST_LOOP n) then s1.inc (LNK_TESTERR_CNT n) errs else s1) s)

/-- Write LNK_PLAN or LNK_PLANSER: the link is evaluated again. -/
def planEntryWrite (n a v wlo whi : Nat) (s : State) : State := evaluate n (writeBits a v wlo whi s)

def execLnkPlanWrite (p : PortId) (n : LinkId) (v : BitVec 64) (s : State) : Res :=
  .next (settleFab (ownerWrite p (aLNK_PLAN n) (planEntryWrite n (aLNK_PLAN n) v.toNat 0 63) s))

/-! ### Link states and timers (R250, R256, R271, R273, R274, R306) -/

/-- Training succeeds: the link enters HELLO; one in the Ethernet personality is evaluated at once. -/
def execLinkTrained (n : LinkId) (s : State) : Res :=
  .next (if s.lstate n ≠ lTraining then s
    else settleFab (evaluate n ((setLinkState n lHello s).set (LNK_STAT_LOCK n) 1)))

/-- The link becomes ABSENT. -/
def becomeAbsent (n : Nat) (s : State) : State :=
  event 0x6006 (srcLink n) ((leaveActive n lAbsent s).set (LNK_STAT_LOCK n) 0)

/-- 500 ms of TRAINING without success; an Ethernet link stays in TRAINING until its PCS reports link up (R306). -/
def execTrainingTimeout (n : LinkId) (s : State) : Res :=
  .next (if s.lstate n = lTraining ∧ !s.isEth n then becomeAbsent n s else s)
def execHelloTimeout (n : LinkId) (s : State) : Res :=
  .next (if s.lstate n = lHello ∧ !(s.link n).shaken then becomeAbsent n s else s)
def execAbsentRetry (n : LinkId) (s : State) : Res :=
  .next (if s.lstate n = lAbsent then startTraining n s else s)

/-- Lock lost: an ACTIVE link fails, a PARKED or HELLO one trains again. -/
def execLockLost (n : LinkId) (s : State) : Res :=
  .next (settleFab (
    let st := s.lstate n
    if st = lActive then failLink n 1 s
    else if st = lParked ∨ st = lHello then startTraining n s else s))

/-- The hold of a FAILED link ends. -/
def execFailedHoldExpiry (n : LinkId) (s : State) : Res :=
  .next (if s.lstate n = lFailed ∧ s.isSet (LNK_CTRL_AUTORETRAIN n) ∧ s.get (LNK_STAT_FCAUSE n) ≠ 4 then startTraining n s else s)

/-! ### Cells (R250, R261 to R264, R270, R271, R286) -/

def execHelloSend (n : LinkId) (s : State) : Res :=
  .next (if !s.lanesUp n || s.isEth n then s
    else
      let s1 := sendLocal n ctHello (s.helloPayload n) s
      s1.setLink n { s1.link n with hseq := ((s1.link n).hseq + 1) % 65536 })

def execReplayTimeout (n : LinkId) (s : State) : Res :=
  .next (if !s.lanesUp n || s.isEth n then s else settleFab (replay n s))

def execCellSend (n : LinkId) (s : State) : Res := .next (settleFab (cellSlot n s))

/-- An IDLE cell: the FEC counts since the last cell, and the envelope. -/
def execIdle (n : LinkId) (fec : Fec) (cell : BitVec 640) (s : State) : Res :=
  .next (settleFab (if cType cell ≠ ctIdle then s else (receive n cell (fecCount n fec s)).1))

/-- A HELLO is stored; one that names this end completes the handshake; the plan is evaluated. -/
def helloArrives (n : Nat) (c : CellBits) (s : State) : State :=
  let s1 := storeHello n (payNat c) s
  let mine := payNat c 28 8 == (s.rd aGLB_SERIAL).toNat && payNat c 36 1 == n
  let l := s1.link n
  evaluate n (s1.setLink n { l with heard := true, shaken := l.shaken || mine })

def execHello (n : LinkId) (cell : BitVec 640) (s : State) : Res :=
  .next (settleFab (if cType cell ≠ ctHello then s
    else
      let r := receive n cell s
      if r.2 then helloArrives n cell r.1 else r.1))

/-- A LINK cell with NAK(E): copies up to E − 1 are free, and the rest is resent. -/
def execLink (n : LinkId) (cell : BitVec 640) (s : State) : Res :=
  .next (settleFab (if cType cell ≠ ctLink then s
    else
      let r := receive n cell s
      if r.2 && payNat cell 0 2 / 4096 == 0 then replay n (applyAck n ((payNat cell 0 2 + 4095) % 4096) r.1) else r.1))

/-- A cell that fails its CRC, or lies in an uncorrectable codeword, is discarded without using it; one with a
reserved CTYPE or VC is discarded from delivery (R260). -/
def execDiscardedCell (n : LinkId) (cell : BitVec 640) (uncorrectable : Bool) (s : State) : Res :=
  .next (settleFab (
    if !s.lanesUp n || s.isEth n then s
    else if uncorrectable || !crcOk cell then discardCell n s
    else if 11 ≤ cType cell ∨ 12 ≤ cVc cell then (receive n cell s).1 else s))

/-! ### The plan check (R277 to R279) -/

/-- An owner's write of PRT_PLANCTL with one bit set, PLANV kept. -/
def planCtlBit (p : PortId) (bit : Nat) (s : State) : State :=
  settleFab (ownerWrite p aPRT_PLANCTL (fun s => planCtl (s.get PRT_PLANCTL_PLANV * 8 + 2 ^ bit) s) s)

def execCheck (p : PortId) (s : State) : Res := .next (planCtlBit p 0 s)
def execArm (p : PortId) (s : State) : Res := .next (planCtlBit p 1 s)
def execDisarm (p : PortId) (s : State) : Res := .next (planCtlBit p 2 s)

/-! ### Versions, coordinates and tables (R272, R283, R284, R287) -/

def protoWrite (v wlo whi : Nat) (s : State) : State := evaluateAll (writeBits aPRT_PROTO v wlo whi s)

def execPrtProtoWrite (p : PortId) (v : BitVec 32) (s : State) : Res :=
  .next (settleFab (ownerWrite p aPRT_PROTO (protoWrite v.toNat 0 31) s))

/-- Whether every coordinate lies on its ring. -/
def State.coordOk (s : State) : Bool := (List.range 4).all fun a => decide (s.position a < s.ringSize a)

/-- Write GLB_COORD: only while unarmed, and COORDV takes a 1 only with coordinates on their rings. -/
def coordWrite (v wlo whi : Nat) (s : State) : State :=
  let grey := event 0x7007 srcRouter
  if s.armed then grey s
  else
    let s1 := writeBits aGLB_COORD v wlo whi s
    evaluateAll (if s1.isSet GLB_COORD_COORDV && !s1.coordOk then grey (s1.set GLB_COORD_COORDV 0) else s1)

def execGlbCoordWrite (p : PortId) (v : BitVec 32) (s : State) : Res :=
  .next (settleFab (ownerWrite p aGLB_COORD (coordWrite v.toNat 0 31) s))

/-- Write a table entry: only while its shade is RETIRED. -/
def tableWrite (sh a v wlo whi : Nat) (s : State) : State :=
  if s.shade sh = shRetired then writeBits a v wlo whi s else event 0x7007 srcRouter s

def execRoutingTableWrite (p : PortId) (dark : Bool) (d : Fin 65536) (v : BitVec 32) (s : State) : Res :=
  .next (
    let a := if dark then aRTE_DTAB d else aRTE_LTAB d
    settleFab (ownerWrite p a (tableWrite dark.toNat a v.toNat 0 31) s))

end Sys2Proof.Machine
end

