-- ==== Sys2Proof/Machine/Queue.lean ====
section
/-! DEFINITION. The queue-control commands, what a queue does of itself, and QUE_CTRL (R117 to R148). -/

namespace Sys2Proof.Machine

/-- A command whose work is complete at once. -/
def quickly (f : Issued → State → State) (e : Issued) (s : State) : State × Issue := (f e s, .issued e)

/-! ### NOP and PARKPOINT -/

/-- NOP waits and signals (R117). -/
def execNop (q : QId) (s : State) : Res := .next (runHead q 0x00 false (quickly fun _ s => s) s)

/-- PARKPOINT waits and signals; at its retirement a pending request parks the queue (R143). -/
def execParkpoint (q : QId) (s : State) : Res := .next (runHead q 0x06 false (quickly fun _ s => s) s)

/-! ### LAUNCH and sluices (R136 to R138) -/

/-- A LAUNCH's sluice stamp in its pass. -/
def launchStamp (e : Issued) : Nat := (cmdGet e.word 64 64 + e.pass * cmdGet e.word 128 32) % 2 ^ 64

def launchLead (w : CmdBits) : Nat := cmdGet w 160 24

/-- The tiles a LAUNCH pre-wakes. -/
def launchTiles (q : Nat) (w : CmdBits) : List Nat :=
  if q < 120 then [q / 5] else (List.range 24).filter fun t => (cmdGet w 192 24).testBit t

/-- Pre-wake: the tiles wake, and both matrix engines' ballast rises to 1,023, from the moment the tile runs, and stays until the
sluice opens or is discarded. -/
def preWakeTiles (q : Nat) (w : CmdBits) (s : State) : State :=
  forAll (launchTiles q w) (fun t s =>
    forAll [0, 1] (fun m s =>
      let e := s.mxe (t * 2 + m)
      if e.prewake then s
      else (s.set (MXE_STAT_ARRAY t m) (if s.get (MXE_STAT_LEVEL t m) < 1023 then 3 else 2)).setMxe (t * 2 + m)
        { e with prewake := true, riseAt := if (s.gate t).phase = .running then some s.now else none })
      (wakeTile t s)) (s.setQue q { s.que q with lead := launchTiles q w })

/-- A LAUNCH arrives at its sluice (R137). -/
def launchArrives (q : Nat) (e : Issued) (s : State) : State × Issue :=
  let stampT := launchStamp e
  let lead := launchLead e.word
  let limit := s.get (QUE_WAITLIM_LIMIT q) * 4000
  if stampT ≤ s.now then
    let s1 := eventD 0x3003 (srcQueue q) (s.now - stampT) s
    let s2 := if lead = 0 then s1 else releasePreWake q (launchTiles q e.word) (preWakeTiles q e.word s1)
    (doSignal q e s2, .issued { e with signalled := true })
  else if limit ≠ 0 ∧ limit < stampT - s.now then (freezeHead q 0x3002 0 s, .held)
  else
    let s1 := s.setQue q { s.que q with sluice := some stampT, waited := true }
    let s2 := if lead ≠ 0 ∧ stampT ≤ s.now + lead then preWakeTiles q e.word s1 else s1
    (waitFor q 1 0 s2, .held)

def execLaunch (q : QId) (s : State) : Res := .next (runHead q 0x01 false (launchArrives q) s)

/-- The pre-wake moment of a held sluice, S − LEAD (R138). -/
def execPreWake (q : QId) (s : State) : Res :=
  .next (match (s.que q).sluice with
    | some st =>
        let w := (s.headCmd q).2.2
        if launchLead w = 0 then s
        else preWakeTiles q w (s.advanceTo (max s.now (st - launchLead w)))
    | none => s)

/-- A held sluice opens as fabric time reaches its stamp: the LAUNCH signals, and the queue goes on (R137). -/
def execSluiceOpen (q : QId) (s : State) : Res :=
  .next (match (s.que q).sluice with
    | some st =>
        if s.qstate q ≠ qWaiting ∨ s.get (QUE_STAT_WHY q) ≠ 1 then s
        else
          let s1 := s.advanceTo (max s.now st)
          let e := s1.newIssued q
          let s2 := runAgain q (s1.setQue q { s1.que q with sluice := none })
          let s3 := if launchLead e.word = 0 then s2 else releasePreWake q (launchTiles q e.word) s2
          issue q { e with signalled := true } (doSignal q e (bumpUid s3))
    | none => s)

/-! ### BASEADD (R132) -/

/-- A 48-bit two's complement number. -/
def signed48 (v : Nat) : Int := if v < 2 ^ 47 then v else (v : Int) - 2 ^ 48

/-- Base register `n` after a BASEADD: its new low bits before the range check, and its index. -/
def State.baseStep (s : State) (q n : Nat) : Int × Nat :=
  let m := s.get (QUE_BMOD_MOD q n)
  let inc := signed48 (s.get (QUE_BINC_INC q n))
  let cur := localOf (s.rd (aQUE_BASE q n)).toNat
  let idx := s.get (QUE_BMOD_IDX q n)
  if m = 0 then ((cur : Int) + inc, idx)
  else
    let i := (idx + 1) % m
    ((localOf (s.rd (aQUE_BSTART q n)).toNat : Int) + (i : Int) * inc, i)

/-- Step the selected base registers, each keeping its bits [63:48], or freeze if any would leave 48 bits. -/
def baseAdd (q : Nat) (e : Issued) (s : State) : State × Issue :=
  let sel := (List.range 16).filter fun n => n != 0 && (cmdGet e.word 64 16).testBit n
  let ok (n : Nat) : Bool := decide (0 ≤ (s.baseStep q n).1) && decide ((s.baseStep q n).1 < 2 ^ 48)
  if sel.all ok then
    (forAll sel (fun n s =>
      let r := s.baseStep q n
      (s.wr (aQUE_BASE q n) (BitVec.ofNat 64 (devOf (s.rd (aQUE_BASE q n)).toNat * 2 ^ 48 + r.1.toNat))).set (QUE_BMOD_IDX q n) r.2) s, .issued e)
  else (freezeHead q 0x3009 0 s, .held)

def execBaseadd (q : QId) (s : State) : Res := .next (runHead q 0x02 false (baseAdd q) s)

/-! ### SETPRED (R134, R135) -/

/-- A set's NF bits under a mask: the tile's 64 records, or a QCOL queue's wheel's 16. -/
def State.nfOver (s : State) (q mask : Nat) : Bool :=
  if q < 120 then (List.range 64).any fun i => mask.testBit i && s.isSet (TIL_OVF_W7_NF (tileOvfBase (q / 5) i))
  else (List.range 16).any fun i => mask.testBit i && s.isSet (TIL_OVF_W7_NF (wheelOvfBase (q - 120) i))

/-- The predicate a SETPRED writes. -/
def writePred (q : Nat) (e : Issued) (v : Bool) (s : State) : State :=
  let g := homeSet q
  let w := e.word
  let dst := cmdGet w 64 6
  let src := v ^^ (cmdGet w 72 1 == 1)
  let old := (s.rd (aTIL_PRED g)).getLsbD dst
  let op := cmdGet w 70 2
  let new := if op = 0 then src else if op = 1 then old && src else if op = 2 then old || src else old && !src
  s.set ⟨aTIL_PRED g, dst, 1⟩ new.toNat

/-- A SETPRED's memory word: one aligned 8-byte word of the own scratchpad, or of any local address for a
privileged queue. -/
def predFromMem (q : Nat) (e : Issued) (s : State) : State × Issue :=
  match s.operand q (cmdGet e.word 148 4) (cmdGet e.word 128 20 * 8) with
  | none => (freezeHead q 0x3009 0 s, .held)
  | some a =>
      let l := localOf a / 8 * 8
      let own := if q < 120 then decide (padBase (q / 5) ≤ l) && decide (l + 8 ≤ padBase (q / 5) + padSize) else rangePopulated l 8
      if devOf a ≠ s.devId ∨ !own then (freezeHead q 0x5001 0 s, .held)
      else
        let s1 := touch l 8 (accessRange l 8 s)
        if s1.poisonFrom (queueDie q) l 8 then (freezeHead q 0x3008 0 s1, .held)
        else (writePred q e ((s1.readNat l 8).testBit (cmdGet e.word 152 6)) s1, .issued e)

/-- SETPRED's source and write. -/
def setPred (q : Nat) (e : Issued) (s : State) : State × Issue :=
  let g := homeSet q
  let w := e.word
  let src := cmdGet w 73 3
  if src = 3 then predFromMem q e s
  else
    let v := if src = 0 then cmdGet w 128 1 == 1
      else if src = 1 then s.waitMet g (cmdGet w 128 9) (cmdGet w 137 16) e.pass
      else if src = 2 then s.nfOver q (cmdGet w 128 64)
      else (s.rd (aTIL_PRED g)).getLsbD (cmdGet w 128 6)
    (writePred q e v s, .issued e)

def execSetpred (q : QId) (s : State) : Res := .next (runHead q 0x03 true (setPred q) s)

/-! ### STEPEND (R139) -/

/-- STEPEND enters its set's barrier as soon as it is reached and its WAIT is met; the barrier itself waits for the earlier
commands (R139). -/
def execStepend (q : QId) (s : State) : Res :=
  .next (runHead q 0x04 false (fun _ s => (waitFor q 2 0 (s.setQue q { s.que q with waited := true }), .held)) s)

/-- Whether queue `q` stands at a STEPEND barrier. -/
def State.atBarrier (s : State) (q : Nat) : Bool := s.qstate q == qWaiting && s.get (QUE_STAT_WHY q) == 2

/-- The participants of a set's barrier: the QMASK of a queue that stands at it. -/
def State.participants (s : State) (g : Nat) : List Nat :=
  match (setQueues g).find? s.atBarrier with
  | some q => (setQueues g).filter fun x => (cmdGet (s.headCmd q).2.2 64 5).testBit (x - g * 5)
  | none => []

/-- Whether a set's barrier may open: every participant stands at it with its earlier commands retired. -/
def State.barrierMet (s : State) (g : Nat) : Bool :=
  let ps := s.participants g
  !ps.isEmpty && ps.all fun q => s.atBarrier q && (s.earlier q).isEmpty

/-- The barrier opens: STEP advances, the AUTOCLR records clear, and every participant's STEPEND goes on. -/
def execStepAdvance (g : SetId) (s : State) : Res :=
  .next (
    let ps := s.participants g
    if s.barrierMet g then
      let s1 := autoClear g (s.inc (TIL_STEP_STEP g) 1)
      forAll ps (fun q s => issue q (s.newIssued q) (bumpUid (runAgain q s))) s1
    else s)

/-! ### POST (R141, R142, R278) -/

/-- A POST's notice: 16 bytes. -/
def postNotice (w : CmdBits) (addr : Nat) : Nat :=
  addr + cmdGet w 88 32 * 2 ^ 64 + cmdGet w 120 16 * 2 ^ 96 + cmdGet w 136 16 * 2 ^ 112

def execPost (q : QId) (s : State) : Res :=
  .next (
    let r := runHead q 0x05 true (fun e s =>
      match s.operand q (cmdGet e.word 84 4) (cmdGet e.word 64 20 * 32) with
      | none => (freezeHead q 0x3009 0 s, .held)
      | some _ =>
          if cmdGet e.word 152 16 ≠ s.devId && !s.armed then (freezeHead q 0x600E 0 s, .held)
          else (waitFor q 3 0 s, .issued { e with status := .busy })) s
    match (r.que q).issued.find? fun e => opcode e.word == 5 && decide (e.status = .busy) && e.uid == s.nextUid with
    | none => r
    | some e =>
        let addr := (s.operand q (cmdGet e.word 84 4) (cmdGet e.word 64 20 * 32)).getD 0
        let dst := cmdGet e.word 152 16
        let mbox := cmdGet e.word 168 8
        let notice := postNotice e.word addr
        if dst = r.devId then
          let x := acceptNotice mbox notice r.devId (queueKind q) (queueUnit q) r
          postOutcome q x.2.post x.1
        else sendMessage dst kReq [noticeCell dst r.devId notice 1 mbox (queueKind q) (queueUnit q)] (.post q) r)

/-! ### CALL and the return from a routine (R144, R416) -/

/-- CALL enters a resident routine in the calling queue. -/
def execCall (q : QId) (s : State) : Res :=
  .next (
    let r := runHead q 0x07 true (fun e s => (s, .issued { e with status := .busy })) s
    match (r.que q).issued.find? fun e => opcode e.word == 7 && decide (e.status = .busy) && e.uid == s.nextUid with
    | none => r
    | some e =>
        let s1 := r.setQue q { r.que q with lib := some (cmdGet e.word 64 16), ret := r.get (QUE_STAT_PC q) }
        (s1.set (QUE_STAT_INLIB q) 1).set (QUE_STAT_PC q) 0)

/-- The queue that runs routine `i`: QMGT, or another privileged queue that called it. -/
def State.routineQueue (s : State) (i : Nat) : Option Nat :=
  [124, 120, 121, 122, 123].find? fun q => (s.que q).lib == some i && s.qstate q == qRunning

/-- Leave a routine; its CALL is complete, or is to run again. -/
def leaveRoutine (q : Nat) (st : CmdStatus) (s : State) : State :=
  let s1 := mapIssued q (fun e => if opcode e.word = 7 ∧ e.status = .busy then { e with status := st } else e) s
  let s2 := (s1.set (QUE_STAT_INLIB q) 0).set (QUE_STAT_PC q) (s1.que q).ret
  s2.setQue q { s2.que q with lib := none }

/-- Freeze a queue within a routine, RESUME 0: the CALL runs again after a thaw (R416, R480). -/
def freezeRoutine (q code : Nat) (s : State) : State :=
  leaveRoutine q .rerun (freezeQueue q code 0 (s.get (QUE_STAT_PC q)) 0 (event code (srcQueue q) s))

/-! ### What a queue does of itself -/

/-- A waiting command's WAIT is met; the queue goes on (R121, R125). -/
def execWaitMet (q : QId) (s : State) : Res :=
  .next (
    let h := s.headCmd q
    if s.qstate q = qWaiting ∧ s.get (QUE_STAT_WHY q) = 0 ∧
        s.waitMet (homeSet q) (hdrWaitFlag h.2.2) (hdrWaitValue h.2.2) h.2.1 then
      runAgain q (s.setQue q { s.que q with waited := true })
    else s)

/-- The oldest issued command of the queue retires, if its work is complete (R122). -/
def execCommandRetire (q : QId) (s : State) : Res := .next (retireOne q s)

/-- A wait outlasts QUE_WAITLIM: the queue freezes at it, unless the wait is met, which wins (R146). -/
def execWaitLimitExpiry (q : QId) (s : State) : Res :=
  .next (
    let h := s.headCmd q
    let g := homeSet q
    let f := hdrWaitFlag h.2.2
    let why := s.get (QUE_STAT_WHY q)
    let s0 := s.setQue q { s.que q with waited := false, chosen := false }
    if s.qstate q ≠ qWaiting ∨ s.get (QUE_WAITLIM_LIMIT q) = 0 then s
    else if why = 0 ∧ !s.waitMet g f (hdrWaitValue h.2.2) h.2.1 then
      let d := g * 2 ^ 59 + f * 2 ^ 48 + s.target g f (hdrWaitValue h.2.2) h.2.1 * 2 ^ 16 + s.flag g f
      restTile q (freezeQueue q 0x3001 0 h.1 f (eventD 0x3001 (srcQueue q) d s0))
    else if why = 2 ∧ !s.barrierMet g then restTile q (freezeQueue q 0x300B 0 h.1 0 (event 0x300B (srcQueue q) s0))
    else s)

/-- The queue parks at its boundary: PARKREQ is set, its head is held and every issued command has retired
(R143, R169, R171). -/
def execQueuePark (q : QId) (s : State) : Res :=
  .next (
    let st := s.que q
    let boundary := s.qstate q == qRunning || (s.qstate q == qWaiting && s.get (QUE_STAT_WHY q) != 3)
    if boundary && s.isSet (QUE_CTRL_PARKREQ q) && (st.parkDue || s.isSet (QUE_PARK_ANY q)) && st.issued.isEmpty && st.lib.isNone
        && !(st.passEnd && st.issued.isEmpty) then
      match st.pendingFreeze with
      | some (code, cmd) => freezeQueue q code 1 cmd 0 (s.setQue q { st with pendingFreeze := none })
      | none =>
          let s1 := (s.set (QUE_STAT_STATE q) qParked).set (QUE_CTRL_PARKREQ q) 0
          restTile q (s1.setQue q { st with waited := false, chosen := false, sluice := none, parkedAtPP := st.parkDue, parkDue := false })
    else s)

/-! ### QUE_CTRL (R145, R148, R151, R171, R432) -/

/-- A queue reset: position, pass, base registers and freeze record clear; commands that have issued run to
completion without their SIGNALs, a held sluice and a POST's outcome are discarded (R145, R357, R432 to R434); instruction
memory stays as it is. -/
def resetQueue (q : Nat) (s : State) : State :=
  let st := s.que q
  let keep := (st.issued.filter fun e => decide (e.status ≠ .rerun) && opcode e.word != 5 && opcode e.word != 7).map fun e => { e with signalled := true, freeze := none }
  let s0 := discardSluice q s
  let s1 := ((s0.wr (aQUE_STAT q) (regReset (aQUE_STAT q))).wr (aQUE_PASS q) 0).wr (aQUE_FREEZEREC q) 0
  let s2 := forAll (List.range 16) (fun n s => (s.wr (aQUE_BASE q n) 0).set (QUE_BMOD_IDX q n) 0) s1
  (s2.set (QUE_CTRL_PARKREQ q) 0).setQue q { issued := keep, bad := st.bad }

/-- Clear the freeze and go on (R148). -/
def thawed (q : Nat) (s : State) : State :=
  let s1 := (s.wr (aQUE_FREEZEREC q) 0).setQue q { s.que q with waited := false, chosen := false, sluice := none }
  let s2 := runAgain q s1
  if (s2.que q).passEnd ∧ (s2.que q).issued = [] then (s2.set (QUE_STAT_STATE q) qIdle).set (QUE_CTRL_PARKREQ q) 0 else s2

/-- Drop the freezing command of a queue frozen with RESUME 0, as THAWNEXT does (R148). -/
def dropFreezer (q : Nat) (s : State) : State :=
  if s.isSet (QUE_FREEZEREC_RESUME q) then s
  else
    let st := s.que q
    match s.rerunHead q with
    | some e => if e.idx = s.get (QUE_FREEZEREC_CMD q) ∨ s.isSet (QUE_FREEZEREC_INLIB q) then s.setQue q { st with issued := st.issued.filter (·.uid != e.uid) } else s
    | none => if s.get (QUE_STAT_PC q) = s.get (QUE_FREEZEREC_CMD q) ∧ !st.passEnd then advance q s else s

/-- What a write of QUE_CTRL does. -/
def queCtrl (q v : Nat) (s : State) : State :=
  let s1 := s.set (QUE_CTRL_PARKREQ q) (getBits v 3 1)
  let s2 := if v.testBit 3 then s1 else s1.setQue q { s1.que q with parkDue := false }
  let s3 :=
    if v.testBit 6 then resetQueue q s2
    else
      let st := s2.qstate q
      let frozen := st == qFrozen && !(s2.que q).dead
      if v.testBit 1 && st == qArmed then runAgain q s2
      else if v.testBit 2 && st == qParked then runAgain q (s2.setQue q { s2.que q with waited := false, chosen := false })
      else if v.testBit 5 && frozen then thawed q (dropFreezer q s2)
      else if v.testBit 4 && frozen then thawed q s2
      else s2
  if s3.qstate q = qIdle then s3.set (QUE_CTRL_PARKREQ q) 0 else s3

/-- An owner's write of QUE_CTRL with some bits set and PARKREQ kept. -/
def queCtrlWrite (p q bits : Nat) (s : State) : State :=
  ownerWrite p (aQUE_CTRL q) (fun s => queCtrl q (bits + 8 * s.get (QUE_CTRL_PARKREQ q)) s) s

def execStart (p : PortId) (q : QId) (s : State) : Res := .next (queCtrlWrite p q 0x02 s)
def execResume (p : PortId) (q : QId) (s : State) : Res := .next (queCtrlWrite p q 0x04 s)
def execThaw (p : PortId) (q : QId) (s : State) : Res := .next (queCtrlWrite p q 0x10 s)
def execThawnext (p : PortId) (q : QId) (s : State) : Res := .next (queCtrlWrite p q 0x20 s)
def execQreset (p : PortId) (q : QId) (s : State) : Res := .next (queCtrlWrite p q 0x40 s)
def execParkreq (p : PortId) (q : QId) (on : Bool) (s : State) : Res :=
  .next (ownerWrite p (aQUE_CTRL q) (fun s => queCtrl q (8 * on.toNat) s) s)

end Sys2Proof.Machine
end

