-- ==== Sys2Proof/Machine/Wheel.lean ====
section
/-! DEFINITION. The wheels: collectives over the rings of the torus (R236, R237, R315 to R341). -/

namespace Sys2Proof.Machine

/-! ### A wheel command's fields (R319, R320) -/

abbrev opAllreduce : Nat := 0x90
abbrev opRedscat : Nat := 0x91
abbrev opAllgather : Nat := 0x92
abbrev opBcast : Nat := 0x93
abbrev opAlltoall : Nat := 0x94
abbrev opShift : Nat := 0x95
abbrev opPermute : Nat := 0x96

def wCvt (w : CmdBits) : Cvt := Cvt.ofBits (cmdGet w 64 16)
def wFmt (w : CmdBits) : Nat := cmdGet w 80 4
def wRop (w : CmdBits) : Nat := cmdGet w 84 2
def wPfmt (w : CmdBits) : Bool := cmdGet w 86 1 == 1
def wDirect (w : CmdBits) : Bool := cmdGet w 87 1 == 1
def wDir (w : CmdBits) : Nat := cmdGet w 88 2
def wAxis2 (w : CmdBits) : Nat := cmdGet w 90 3
def wRagged (w : CmdBits) : Bool := cmdGet w 93 1 == 1
def wCount (w : CmdBits) : Nat := cmdGet w 192 32
def wRoot (w : CmdBits) : Nat := cmdGet w 224 6
/-- Whether an operation reduces. -/
def wReduces (w : CmdBits) : Bool := decide (opcode w ≤ opRedscat)
def Coll.op (c : Coll) : Nat := opcode c.word
/-- Word `k` of the auxiliary descriptor. -/
def Coll.auxWord (c : Coll) (k : Nat) : Nat := c.aux.getD k 0
def Coll.vmode (c : Coll) : Nat := if c.op = opAllgather then c.auxWord 8 % 4 else 0

/-! ### Rings and pieces (R218, R318, R322, R323) -/

def Coll.ringN (c : Coll) (ring : Nat) : Nat := if ring = 0 then c.n.1 else c.n.2
def Coll.ringR (c : Coll) (ring : Nat) : Nat := if ring = 0 then c.r.1 else c.r.2
/-- The axis of a ring of wheel `a`. -/
def Coll.axisOf (c : Coll) (a ring : Nat) : Nat := if ring = 0 then a else wAxis2 c.word
/-- The position after `x` in a direction. -/
def nextPos (n : Nat) (up : Bool) (x : Nat) : Nat := if up then (x + 1) % n else (x + n - 1) % n
/-- Hops from `x` to `y` in a direction. -/
def hops (n : Nat) (up : Bool) (x y : Nat) : Nat := if up then (y + n - x) % n else (x + n - y) % n

/-- R218's division of `u` units over `n` ranks. -/
def divide (u n r : Nat) : Nat := u / n + if r < u % n then 1 else 0
/-- Where rank `r`'s piece begins. -/
def offOf (lens : List Nat) (r : Nat) : Nat := (lens.take r).foldl (· + ·) 0
def lenOf (lens : List Nat) (r : Nat) : Nat := lens.getD r 0

/-- Length and first element of the piece of rank (i, j). -/
def Coll.len2 (c : Coll) (i j : Nat) : Nat := divide (lenOf c.lens i) c.n.2 j
def Coll.pos2 (c : Coll) (i j : Nat) : Nat := offOf c.lens i + (List.range j).foldl (fun x k => x + c.len2 i k) 0

/-- The part of a piece of `len` elements that travels in a direction: its offset and length (R322). -/
def partOf (dir : Nat) (up : Bool) (len : Nat) : Nat × Nat :=
  let u := if dir = 1 then len else if dir = 2 then 0 else (len + 1) / 2
  if up then (0, u) else (u, len - u)

/-- The piece that position `j` of a ring ends up owning in a reduction: first element and length. -/
def Coll.reducePiece (c : Coll) (ring j : Nat) : Nat × Nat :=
  if ring = 0 then (offOf c.lens j, lenOf c.lens j) else (c.pos2 c.r.1 j, c.len2 c.r.1 j)

/-- What position `j` of a ring gives to a gather: piece, first element and length of each part. -/
def Coll.items (c : Coll) (ring j : Nat) : List (Nat × Nat × Nat) :=
  if c.op = opBcast then (if j = wRoot c.word then [(0, 0, wCount c.word)] else [])
  else if c.op = opAllgather then
    (if ring = 0 then [(j, c.pos2 j c.r.2, c.len2 j c.r.2)]
     else (List.range c.n.1).map fun i => (i, c.pos2 i j, c.len2 i j))
  else if ring = 0 then [(j, offOf c.lens j, lenOf c.lens j)]
  else [(c.r.1, c.pos2 c.r.1 j, c.len2 c.r.1 j)]

/-- A transfer of ALLTOALL, SHIFT or PERMUTE: origin, destination, direction, offset in the piece, length, and first
element in the origin's vector (R317, R318, R322). -/
structure Flow where
  origin : Nat
  dest : Nat
  up : Bool
  off : Nat
  len : Nat
  src : Nat

/-- The shorter way, ascending on a tie. -/
def shorterUp (n x y : Nat) : Bool := decide (hops n true x y ≤ hops n false x y)

def Coll.flows (c : Coll) : List Flow :=
  let n := c.n.1
  let pairs := (List.range n).flatMap fun i => (List.range n).map fun j => (i, j)
  if c.op = opShift then
    (List.range n).map fun i =>
      let j := (i + wRoot c.word) % n
      ⟨i, j, shorterUp n i j, 0, lenOf c.lens i, 0⟩
  else if c.op = opAlltoall then
    pairs.flatMap fun p => [true, false].map fun up =>
      let h := partOf (wDir c.word) up (lenOf c.lens p.2)
      ⟨p.1, p.2, up, h.1, h.2, offOf c.lens p.2 + h.1⟩
  else
    pairs.map fun p =>
      let lo := max (offOf c.lens p.1) (offOf c.newLens p.2)
      let hi := min (offOf c.lens p.1 + lenOf c.lens p.1) (offOf c.newLens p.2 + lenOf c.newLens p.2)
      ⟨p.1, p.2, shorterUp n p.1 p.2, lo - offOf c.newLens p.2, hi - lo, lo - offOf c.lens p.1⟩

/-- Where element `off` of a transfer from `origin` to this rank lies at DST. -/
def Coll.moveIndex (c : Coll) (origin off : Nat) : Nat :=
  if c.op = opAlltoall then origin * lenOf c.lens c.r.1 + off else off

/-- The parts a collective runs through; a composite reduces over its own axis and then over AXIS2, and an ALLREDUCE
then gathers in the opposite order. -/
def wheelStages (w : CmdBits) : List WStage :=
  let two := wAxis2 w != 7
  let op := opcode w
  if wDirect w then [.direct]
  else if op = opAllreduce then (if two then [.reduce 0, .reduce 1, .gather 1, .gather 0] else [.reduce 0, .gather 0])
  else if op = opRedscat then (if two then [.reduce 0, .reduce 1, .close 0, .close 1] else [.reduce 0, .close 0])
  else if op = opAllgather then (if two then [.gather 0, .gather 1] else [.gather 0])
  else if op = opBcast then [.gather 0, .close 0]
  else [.move, .close 0]

/-! ### Links and cells (R334, R335) -/

/-- The port out of which chunks leave in a direction on an axis. -/
def wheelPort (axis : Nat) (up : Bool) : Nat := axis * 2 + if up then 0 else 1
/-- Its ACTIVE Bivin links. -/
def State.wheelLinks (s : State) (axis : Nat) (up : Bool) : List Nat :=
  if s.isSet (PRT_CFG_MODE (wheelPort axis up)) then [] else s.activeLinks (wheelPort axis up)

/-- The format of a chunk's elements. -/
def Coll.wireFmt (c : Coll) (phase : Nat) : Nat :=
  let f := wFmt c.word
  if phase = 1 then (if f = fINT32 ∨ wPfmt c.word then f else fFP32)
  else if phase = 2 then (wCvt c.word).fmt else f

/-- Queue a wheel's cell on a link. -/
def wheelSend (a n v ctype seq idx pay : Nat) (nf psn : Bool) (s : State) : State :=
  let c := mkCell ctype (s.get (LNK_NBR_DEVID n)) s.devId (a * 256 + seq % 256) idx pay
  let c1 := cellSet (cellSet c 125 1 nf.toNat) 126 1 psn.toNat
  enqueue n v 0 { cell := c1 } s

/-- A COL GRANT cell's payload. -/
def colPay (kind flags seq credits mask : Nat) : Nat := payload [(0, 1, kind), (1, 1, flags), (2, 2, seq), (4, 4, credits), (8, 8, mask)]

/-- Send a grant, CLOSE or ABORT out of a port, on its first ACTIVE link. -/
def wheelCtl (a axis : Nat) (up : Bool) (seq pay : Nat) (s : State) : State :=
  match s.wheelLinks axis up with
  | n :: _ => wheelSend a n 3 ctGrant seq 0 pay false false s
  | [] => s

def updColl (a : Nat) (f : Coll → Coll) (s : State) : State :=
  s.setWheel a { s.wheel a with coll := (s.wheel a).coll.map f }

/-- What a wheel knows so far, as SFLAGS. -/
def Coll.flags (c : Coll) : Nat := c.nf.toNat + 2 * c.mismatch.toNat + 4 * c.psn.toNat

/-- Whether an element's cell carries NF: its flag came so, or it is a NaN or an infinity (R324). -/
def WElem.odd (fmt : Nat) (e : WElem) : Bool := e.nf || !(decodeElem fmt e.bits).isFinite

/-- Send a chunk's cells on a link. -/
def sendChunk (a n : Nat) (c : Coll) (ch : Chunk) (s : State) : State :=
  let fmt := c.wireFmt ch.phase
  let per := 512 / fmtBits fmt
  let cells := (ch.elems.length + per - 1) / per
  let desc := payload [(0, 1, ch.phase), (1, 1, c.flags), (2, 2, c.seq), (4, 4, c.digest), (8, 1, ch.piece), (9, 1, ch.origin),
    (10, 2, cells), (12, 4, ch.off), (16, 4, ch.elems.length), (20, 8, ch.ver)]
  let s1 := wheelSend a n 2 ctSegf c.seq 0 desc (c.contribNf && ch.origin == c.ringR ch.ring) ch.verPsn s
  let s2 := forAll (List.range cells) (fun k s =>
    let es := (ch.elems.drop (k * per)).take per
    wheelSend a n 2 ctSeg c.seq (k + 1) (payloadOf (packElems fmt (es.map (·.bits)))) (es.any (·.odd fmt)) (es.any (·.psn)) s) s1
  s2.inc (WHL_TXBYTES_CNT a) (elemBytes fmt ch.elems.length)

def wayKey (ring : Nat) (up : Bool) : Nat := 2 * ring + up.toNat
def tabNat (t : Tab Nat) (k : Nat) : Nat := tabGet (fun _ => 0) t k

/-- Send every waiting chunk that its neighbour has granted staging for; `fuel` bounds them.  A chunk that finds no
ACTIVE link waits for its resend timer. -/
def sendQueued (a : Nat) : Nat → State → State
  | 0, s => s
  | fuel + 1, s =>
      match (s.wheel a).coll with
      | none => s
      | some c => match c.queue.find? fun ch => tabNat c.credit (wayKey ch.ring ch.up) != 0 with
          | none => s
          | some ch =>
              let k := wayKey ch.ring ch.up
              let links := s.wheelLinks (c.axisOf a ch.ring) ch.up
              let link := if links = [] then none else links[tabNat c.turn k % links.length]?
              let c1 := { c with
                queue := c.queue.erase ch,
                sent := c.sent ++ [{ chunk := ch, link := link }],
                credit := tabPut (fun _ => 0) c.credit k (tabNat c.credit k - 1),
                turn := tabPut (fun _ => 0) c.turn k (tabNat c.turn k + 1) }
              let s1 := updColl a (fun _ => c1) s
              sendQueued a fuel (match link with
                | some n => sendChunk a n c1 ch s1
                | none => s1)

/-- Cut elements into runs of at most `per`, from an offset; `fuel` bounds the runs. -/
def cutElems (per : Nat) : Nat → Nat → List WElem → List (Nat × List WElem)
  | 0, off, es => [(off, es)]
  | fuel + 1, off, es => if es.length ≤ per then [(off, es)] else (off, es.take per) :: cutElems per fuel (off + per) (es.drop per)

/-- The most elements a chunk carries. -/
def State.chunkMax (s : State) (a fmt : Nat) : Nat := s.get (WHL_CFG_CHUNK a) * 64 * (512 / fmtBits fmt)

/-- The chunks of a transfer begun here: equal chunks, one an ACTIVE link, if it is small (R335). -/
def State.cutTransfer (s : State) (a : Nat) (c : Coll) (ch : Chunk) : List Chunk :=
  let per := 512 / fmtBits (c.wireFmt ch.phase)
  let cells := (ch.elems.length + per - 1) / per
  let links := max 1 (s.wheelLinks (c.axisOf a ch.ring) ch.up).length
  let most := s.get (WHL_CFG_CHUNK a) * 64
  let size := if cells < most * links then max 1 ((cells + links - 1) / links) else most
  (cutElems (size * per) ch.elems.length ch.off ch.elems).map fun x => { ch with off := x.1, elems := x.2 }

/-- Queue a transfer begun here. -/
def beginTransfer (a : Nat) (ch : Chunk) (s : State) : State :=
  updColl a (fun c => { c with queue := c.queue ++ s.cutTransfer a c ch }) s
/-- Pass a chunk on: it keeps its bounds unless it is larger than this wheel's chunks. -/
def passOn (a : Nat) (ch : Chunk) (s : State) : State :=
  updColl a (fun c =>
    let runs := cutElems (s.chunkMax a (c.wireFmt ch.phase)) ch.elems.length ch.off ch.elems
    { c with queue := c.queue ++ runs.map fun x => { ch with off := x.1, elems := x.2 } }) s

/-! ### Arithmetic (R321, R323, R324, R333) -/

/-- The element index of a position in the result vector (R51). -/
def Coll.index (c : Coll) (pos : Nat) : Nat := c.auxWord 1 + pos

/-- One step of a reduction. -/
def Coll.combine (c : Coll) (pos : Nat) (x y : Val) (t : Tally) : Val × Tally :=
  if wFmt c.word = fINT32 then
    let r := convertElem fINT32 .nearest true (x.add y)
    (decodeElem fINT32 r.bits, if r.sat then t.count (wCvt c.word).ovfNf (c.index pos) (x.add y) r else t)
  else if wRop c.word = 1 then (x.max y, t)
  else if wRop c.word = 2 then (x.min y, t)
  else (f32 (f32Round (x.add y)), t)

/-- A partial as it leaves: rounded to FMT, counting, when PFMT = 1. -/
def Coll.outgoing (c : Coll) (pos : Nat) (v : Val) (t : Tally) : Nat × Tally :=
  if wFmt c.word = fINT32 then ((convertElem fINT32 .nearest true v).bits, t)
  else if wPfmt c.word then cvtElem { wCvt c.word with fmt := wFmt c.word, rnd := 0 } (fun _ => 0) (c.index pos) v t
  else (f32Round v, t)

/-- The owner's conversion by CVT, with the seed and the step of its issue (R50, R323). -/
def Coll.finish (c : Coll) (a pos : Nat) (v : Val) (t : Tally) : Nat × Tally :=
  cvtElem (wCvt c.word) (fun i => rngDraw c.seed (streamId (24 + a) 0 (c.auxWord 0 % 65536)) c.step i) (c.index pos) v t

/-- The format of a sum between the axes of a composite. -/
def Coll.sumFmt (c : Coll) : Nat := if wFmt c.word = fINT32 then fINT32 else fFP32

def listGet (l : List (Nat × WElem)) (k : Nat) : WElem := ((l.find? (·.1 == k)).map (·.2)).getD { bits := 0 }

/-- This device's addend of element `pos` on a ring, and its value. -/
def Coll.addend (c : Coll) (ring pos : Nat) : WElem × Val :=
  if ring = 0 then
    let e := c.own.getD pos { bits := 0 }
    (e, decodeElem (wFmt c.word) e.bits)
  else
    let e := listGet c.acc pos
    (e, decodeElem c.sumFmt e.bits)

/-- Whether a reduction ends on this ring. -/
def Coll.lastRing (c : Coll) (ring : Nat) : Bool := ring == 1 || wAxis2 c.word == 7

/-- Where element `pos` of this rank's own piece lies in `result`: a REDSCAT writes only its piece. -/
def Coll.resultIndex (c : Coll) (ring pos : Nat) : Nat :=
  if c.op = opRedscat then pos - (c.reducePiece ring (c.ringR ring)).1 else pos

/-- Count a tally into CVT.ORI's record of the wheel. -/
def wheelTally (a : Nat) (c : Coll) (t : Tally) (s : State) : State :=
  if wReduces c.word then applyTally (wheelOvfBase a (wCvt c.word).ori) 7 c.idx (c.step % 65536) t s else s

/-- Note the flags of elements. -/
def Coll.note (c : Coll) (es : List WElem) : Coll := { c with nf := c.nf || es.any (·.nf), psn := c.psn || es.any (·.psn) }

/-- Sums that are this rank's own: kept for the second axis, or converted into the result. -/
def keepSums (a ring : Nat) (sums : List (Nat × Val × Bool × Bool)) (s : State) : State :=
  match (s.wheel a).coll with
  | none => s
  | some c =>
      let r := sums.foldl (fun (acc : List (Nat × WElem) × Tally) x =>
        let (pos, v, psn, nf) := x
        if c.lastRing ring then
          let w := c.finish a pos v acc.2
          (acc.1 ++ [(c.resultIndex ring pos, { bits := w.1, psn := psn, nf := nf || !v.isFinite || !(decodeElem (wCvt c.word).fmt w.1).isFinite })], w.2)
        else (acc.1 ++ [(pos, { bits := (convertElem c.sumFmt .nearest true v).bits, psn := psn, nf := nf || !v.isFinite })], acc.2)) ([], {})
      let c1 := c.note (r.1.map (·.2))
      let c2 := if c.lastRing ring then { c1 with result := c1.result ++ r.1 } else { c1 with acc := c1.acc ++ r.1 }
      wheelTally a c r.2 (updColl a (fun _ => c2) s)

/-- A partial arrives: this wheel adds its own, and keeps the sum or sends it on. -/
def reduceChunk (a : Nat) (ch : Chunk) (s : State) : State :=
  match (s.wheel a).coll with
  | none => s
  | some c =>
      let base := (c.reducePiece ch.ring ch.piece).1 + ch.off
      let r := (ch.elems.zipIdx).foldl (fun (acc : List (Nat × Val × Bool × Bool) × Tally) x =>
        let pos := base + x.2
        let y := c.addend ch.ring pos
        let v := c.combine pos (decodeElem (c.wireFmt 1) x.1.bits) y.2 acc.2
        (acc.1 ++ [(pos, v.1, x.1.psn || y.1.psn, x.1.nf || y.1.nf)], v.2)) ([], {})
      let s1 := wheelTally a c r.2 s
      if ch.piece = c.ringR ch.ring then keepSums a ch.ring r.1 s1
      else
        let o := r.1.foldl (fun (acc : List WElem × Tally) x =>
          let w := c.outgoing x.1 x.2.1 acc.2
          (acc.1 ++ [{ bits := w.1, psn := x.2.2.1, nf := x.2.2.2 || !(decodeElem (c.wireFmt 1) w.1).isFinite }], w.2)) ([], {})
        passOn a { ch with elems := o.1 } (wheelTally a c o.2 (updColl a (fun c => c.note o.1) s1))

/-- The first partials of a reduction over a ring. -/
def beginReduce (a ring : Nat) (s : State) : State :=
  match (s.wheel a).coll with
  | none => s
  | some c =>
      let n := c.ringN ring
      let r := c.ringR ring
      if n = 1 then
        let p := c.reducePiece ring 0
        keepSums a ring ((List.range p.2).map fun i =>
          let y := c.addend ring (p.1 + i)
          (p.1 + i, y.2, y.1.psn, y.1.nf)) s
      else
        let send (up : Bool) (s : State) : State :=
          let j := nextPos n (!up) r
          let p := c.reducePiece ring j
          let h := partOf (wDir c.word) up p.2
          if h.2 = 0 then s
          else
            let o := (List.range h.2).foldl (fun (acc : List WElem × Tally) i =>
              let pos := p.1 + h.1 + i
              let y := c.addend ring pos
              let w := c.outgoing pos y.2 acc.2
              (acc.1 ++ [{ bits := w.1, psn := y.1.psn, nf := y.1.nf || !(decodeElem (c.wireFmt 1) w.1).isFinite }], w.2)) ([], {})
            beginTransfer a { ring := ring, up := up, phase := 1, piece := j, origin := r, off := h.1, elems := o.1 }
              (wheelTally a c o.2 (updColl a (fun c => c.note o.1) s))
        let due (up : Bool) : Nat := (List.range n).foldl (fun k j =>
          if j = nextPos n (!up) r then k else k + (partOf (wDir c.word) up (c.reducePiece ring j).2).2) 0
        updColl a (fun c => { c with need := due true + due false }) (send false (send true s))

/-! ### Gathering and moving (R317, R323, R325, R332) -/

/-- The rank whose version word a gathered piece carries. -/
def Coll.verRank (c : Coll) (ring piece origin : Nat) : Nat := if ring = 0 then piece * c.n.2 + c.r.2 else piece * c.n.2 + origin
def Coll.verOf (c : Coll) (rank : Nat) : Nat × Bool := ((c.vers.find? (·.1 == rank)).map (·.2)).getD (0, false)
def Coll.gatherPhase (c : Coll) : Nat := if c.op = opAllreduce then 2 else 4

/-- Send own pieces both ways; an empty piece sends one empty chunk, so that its flags and version travel. -/
def beginGather (a ring : Nat) (s : State) : State :=
  match (s.wheel a).coll with
  | none => s
  | some c =>
      let n := c.ringN ring
      let r := c.ringR ring
      if n = 1 then s
      else
        let send (it : Nat × Nat × Nat) (up : Bool) (s : State) : State :=
          let h := partOf (wDir c.word) up it.2.2
          let none_ := it.2.2 == 0 && up == (wDir c.word != 2)
          if h.2 = 0 ∧ !none_ then s
          else
            let v := c.verOf (c.verRank ring it.1 r)
            beginTransfer a {
                ring := ring, up := up, phase := c.gatherPhase, piece := it.1, origin := r, off := h.1,
                elems := (List.range h.2).map fun i => listGet c.result (it.2.1 + h.1 + i), ver := v.1, verPsn := v.2 } s
        let s1 := forAll (c.items ring r) (fun it s => send it false (send it true s)) s
        let due := (((List.range n).filter (· != r)).flatMap (c.items ring)).foldl (fun k it => k + max 1 it.2.2) 0
        updColl a (fun c => { c with need := due }) s1

/-- A gathered chunk arrives: keep it, and pass it on unless the next position gave it. -/
def gatherChunk (a : Nat) (ch : Chunk) (s : State) : State :=
  match (s.wheel a).coll with
  | none => s
  | some c => match (c.items ch.ring ch.origin).find? (·.1 == ch.piece) with
      | none => s
      | some it =>
          let base := it.2.1 + ch.off
          let rank := c.verRank ch.ring ch.piece ch.origin
          let c1 := { c with
            result := c.result ++ (ch.elems.zipIdx).map (fun x => (base + x.2, x.1)),
            vers := if c.vers.any (·.1 == rank) then c.vers else c.vers ++ [(rank, ch.ver, ch.verPsn)] }
          let s1 := updColl a (fun _ => c1) s
          if nextPos (c.ringN ch.ring) ch.up (c.ringR ch.ring) = ch.origin then s1 else passOn a ch s1

/-- Where a moved chunk goes. -/
def Coll.destOf (c : Coll) (ch : Chunk) : Nat := if c.op = opShift then (ch.origin + wRoot c.word) % c.n.1 else ch.piece

def beginMove (a : Nat) (s : State) : State :=
  match (s.wheel a).coll with
  | none => s
  | some c =>
      let n := c.n.1
      let r := c.r.1
      let elemsOf (f : Flow) : List WElem := (List.range f.len).map fun i => c.own.getD (f.src + i) { bits := 0 }
      let passes (f : Flow) : Bool := f.origin != r && decide (hops n f.up f.origin r ≤ hops n f.up f.origin f.dest)
      let here := (c.flows.filter fun f => f.origin == r && f.dest == r).flatMap fun f =>
        ((elemsOf f).zipIdx).map fun x => (c.moveIndex r (f.off + x.2), x.1)
      let c1 := { c with
        result := c.result ++ here,
        need := (c.flows.filter passes).foldl (fun k f => k + if f.dest = f.origin then 0 else f.len) 0 }
      forAll (c.flows.filter fun f => f.origin == r && f.dest != r && f.len != 0) (fun f s =>
        beginTransfer a {
            ring := 0, up := f.up, phase := 4, piece := if c.op = opShift then r else f.dest, origin := r,
            off := f.off, elems := elemsOf f } s) (updColl a (fun _ => c1) s)

def moveChunk (a : Nat) (ch : Chunk) (s : State) : State :=
  match (s.wheel a).coll with
  | none => s
  | some c =>
      if c.destOf ch = c.r.1 then
        updColl a (fun c => { c with result := c.result ++ (ch.elems.zipIdx).map fun x => (c.moveIndex ch.origin (ch.off + x.2), x.1) }) s
      else passOn a ch s

/-! ### DIRECT (R323) -/

/-- How far a contribution travels in a direction. -/
def directHops (n : Nat) (up : Bool) : Nat := if up then n / 2 else (n - 1) / 2

def beginDirect (a : Nat) (s : State) : State :=
  match (s.wheel a).coll with
  | none => s
  | some c =>
      let n := c.n.1
      let r := c.r.1
      let piece := if c.op = opAllgather then r else 0
      let v := c.verOf (c.verRank 0 r r)
      let send (up : Bool) (s : State) : State :=
        if directHops n up = 0 then s
        else beginTransfer a { ring := 0, up := up, phase := 3, piece := piece, origin := r, off := 0, elems := c.own, ver := v.1, verPsn := v.2 } s
      let size (i : Nat) : Nat := if c.op = opAllgather then max 1 (lenOf c.lens i) else wCount c.word
      let due := ((List.range n).filter (· != r)).foldl (fun k i => k + size i) 0
      updColl a (fun c => { c with need := due, parts := [(r, 0, c.own)] }) (send false (send true s))

def directChunk (a : Nat) (ch : Chunk) (s : State) : State :=
  match (s.wheel a).coll with
  | none => s
  | some c =>
      let n := c.n.1
      let rank := c.verRank 0 ch.origin ch.origin
      let c1 := { c with
        parts := c.parts ++ [(ch.origin, ch.off, ch.elems)],
        vers := if c.vers.any (·.1 == rank) then c.vers else c.vers ++ [(rank, ch.ver, ch.verPsn)] }
      let s1 := updColl a (fun _ => c1) s
      if hops n ch.up ch.origin c.r.1 < directHops n ch.up then passOn a ch s1 else s1

/-- Element `pos` of a contribution. -/
def Coll.partAt (c : Coll) (origin pos : Nat) : WElem :=
  match c.parts.find? fun p => p.1 == origin && decide (p.2.1 ≤ pos) && decide (pos < p.2.1 + p.2.2.length) with
  | some p => p.2.2.getD (pos - p.2.1) { bits := 0 }
  | none => { bits := 0 }

/-- The ring positions an element is summed over (R237). -/
def ringOrder (n : Nat) (up : Bool) (start : Nat) : List Nat :=
  (List.range n).map fun k => if up then (start + 1 + k) % n else (start + 2 * n - 1 - k) % n

/-- All contributions are there: add them in R322's sequence, or put the pieces together. -/
def finishDirect (a : Nat) (s : State) : State :=
  match (s.wheel a).coll with
  | none => s
  | some c =>
      let n := c.n.1
      if c.op = opAllgather then
        updColl a (fun c => { c with result := (List.range n).flatMap fun i =>
          (List.range (lenOf c.lens i)).map fun k => (offOf c.lens i + k, c.partAt i k) }) s
      else
        let all := (List.range n).flatMap fun p => (List.range (lenOf c.lens p)).map fun k => (p, k)
        let r := all.foldl (fun (acc : List (Nat × Val × Bool × Bool) × Tally) x =>
          let pos := offOf c.lens x.1 + x.2
          let up := decide (x.2 < (partOf (wDir c.word) true (lenOf c.lens x.1)).2)
          let es := (ringOrder n up x.1).map fun i => c.partAt i pos
          let vs := es.map fun e => decodeElem (wFmt c.word) e.bits
          let v := (vs.drop 1).foldl (fun (w : Val × Tally) y => c.combine pos w.1 y w.2) (vs.headD Val.zero, acc.2)
          (acc.1 ++ [(pos, v.1, es.any (·.psn), es.any (·.nf))], v.2)) ([], {})
        keepSums a 0 r.1 (wheelTally a c r.2 s)

/-! ### The parts in turn (R325, R330) -/

/-- The part of the collective a chunk belongs to. -/
def Coll.stageOf (c : Coll) (ch : Chunk) : WStage :=
  if ch.phase = 1 then .reduce ch.ring
  else if ch.phase = 3 then .direct
  else if ch.phase = 2 ∨ c.op = opAllgather ∨ c.op = opBcast then .gather ch.ring
  else .move

/-- What a chunk counts for among the elements due. -/
def Chunk.weight (ch : Chunk) : Nat := max 1 ch.elems.length

/-- A chunk of the part under way. -/
def takeChunk (a : Nat) (ch : Chunk) (s : State) : State :=
  let s1 := updColl a (fun c => { c.note ch.elems with need := c.need - ch.weight }) s
  if ch.phase = 1 then reduceChunk a ch s1
  else if ch.phase = 3 then directChunk a ch s1
  else match (s.wheel a).coll with
    | some c => if c.stageOf ch = .move then moveChunk a ch s1 else gatherChunk a ch s1
    | none => s1

/-- The mask of positions known closed on a ring. -/
def Coll.maskOf (c : Coll) (ring : Nat) : Nat := if ring = 0 then c.mask.1 else c.mask.2
def Coll.addMask (c : Coll) (ring m : Nat) : Coll :=
  if ring = 0 then { c with mask := (c.mask.1 ||| m, c.mask.2) } else { c with mask := (c.mask.1, c.mask.2 ||| m) }
def Coll.closePay (c : Coll) (ring : Nat) : Nat := colPay 2 c.flags c.seq 0 (c.maskOf ring)

/-- This wheel has sent its last data cell: a CLOSE each way. -/
def beginClose (a ring : Nat) (s : State) : State :=
  let s1 := (updColl a (fun c => c.addMask ring (2 ^ c.ringR ring)) s).set (WHL_STAT_STATE a) 2
  match (s1.wheel a).coll with
  | some c =>
      if c.ringN ring = 1 then s1
      else forAll [true, false] (fun up s => wheelCtl a (c.axisOf a ring) up c.seq (c.closePay ring) s) s1
  | none => s1

def beginStage (a : Nat) (st : WStage) (s : State) : State :=
  match st with
  | .reduce ring => beginReduce a ring s
  | .gather ring => beginGather a ring s
  | .direct => beginDirect a s
  | .move => beginMove a s
  | .close ring => beginClose a ring s

/-- Whether the part under way is complete. -/
def Coll.stageDone (c : Coll) (st : WStage) : Bool :=
  match st with
  | .close ring => c.maskOf ring == 2 ^ c.ringN ring - 1
  | _ => c.need == 0

/-- Run the collective as far as it can go; `fuel` bounds the moves. -/
def wheelRun (a : Nat) : Nat → State → State
  | 0, s => s
  | fuel + 1, s0 =>
      let s := match (s0.wheel a).coll with
        | some c => sendQueued a c.queue.length s0
        | none => s0
      match (s.wheel a).coll with
      | none => s
      | some c => match c.stages with
          | [] => s
          | st :: rest =>
              let closing := match st with
                | .close _ => true
                | _ => false
              if !c.started then
                if closing && c.queue != [] then s
                else
                  let s1 := beginStage a st (updColl a (fun c => { c with started := true, need := 0 }) s)
                  let mine := c.held.filter fun ch => c.stageOf ch == st
                  let s2 := updColl a (fun c => { c with held := c.held.filter fun ch => c.stageOf ch != st }) s1
                  wheelRun a fuel (forAll mine (takeChunk a) s2)
              else if c.stageDone st then
                let s1 := if st = .direct then finishDirect a s else s
                wheelRun a fuel (updColl a (fun c => { c with stages := rest, started := false }) s1)
              else s

/-- Moves enough for any collective: each part begins and ends once. -/
def wheelFuel : Nat := 16

/-! ### Failure (R328, R329, R340) -/

/-- The event of a STATUS. -/
def failCode (status : Nat) : Nat :=
  if status = 1 then 0x8001 else if status = 2 then 0x8002 else if status = 3 then 0x8003 else if status = 4 then 0x8005
  else if status = 5 then 0x8004 else 0x8007

/-- Send an ABORT on every way a collective uses. -/
def abortBoth (a : Nat) (c : Coll) (status : Nat) (s : State) : State :=
  forAll [0, 1] (fun ring s =>
    if c.ringN ring = 1 then s
    else forAll [true, false] (fun up s => wheelCtl a (c.axisOf a ring) up c.seq (colPay 3 c.flags c.seq status 0) s) s) s

/-- A wheel's read: a gated tile wakes, and the lines are looked at (R26). -/
def wheelTouch (a n : Nat) (s : State) : State := touch a n (accessRange a n s)

/-- A wheel's write of bytes, each with its poison, from its edge die; nothing of it is mirrored, which counts (R16, R26, R207,
R426). -/
def wheelWrite (a at_ : Nat) (bs : List (Byte × Bool)) (s : State) : State :=
  countUnmirrored at_ bs.length (writeServed (wheelDie a) at_ bs (accessRange at_ bs.length s))

/-- Write a collective's result descriptor. -/
def writeDescriptor (a : Nat) (c : Coll) (psn : Bool) (status count : Nat) (s : State) : State :=
  wheelWrite a c.res ((natBytes 32 (collDescriptor c psn status count s.now)).map fun b => (b, false)) s

/-- The event that freezes a QCOL queue when a collective fails: for a memory fault that of the MEM block (R29), recorded beside
the wheel's own, else the wheel's (R329, R340; log entry 51). -/
def freezeCode (status : Nat) : Nat := if status = 7 then 0x5001 else failCode status

/-- End a collective in failure, but for its event: its results are open, and its descriptor is written. -/
def endQuietly (a : Nat) (c : Coll) (status pos : Nat) (s : State) : State :=
  let n := c.dstLen * c.outBytes
  let q := 120 + a
  let s1 := if s.granted q c.dst n true then (accessRange c.dst n s).scramble c.dst n else s
  collFailed a c status pos (if s1.granted q c.res 32 true then writeDescriptor a c false status 0 s1 else s1)

/-- End a collective in failure, with its event. -/
def endFailed (a : Nat) (c : Coll) (status pos : Nat) (s : State) : State :=
  let s3 := eventD (failCode status) (srcWheel a) (status * 2 ^ 8 + c.idx * 2 ^ 16) (endQuietly a c status pos s)
  if status = 7 then event 0x5001 (srcWheel a) s3 else s3

/-- The running collective of wheel `a` fails. -/
def wheelFail (a status pos : Nat) (s : State) : State :=
  match (s.wheel a).coll with
  | none => s
  | some c =>
      let s1 := setIssued (120 + a) c.uid (fun e => { e with status := .rerun }) (endFailed a c status pos s)
      freezeQueue (120 + a) (freezeCode status) 0 c.idx 0 s1

/-- It fails and sends an ABORT both ways. -/
def wheelFailBoth (a status pos : Nat) (s : State) : State :=
  match (s.wheel a).coll with
  | some c => wheelFail a status pos (abortBoth a { c with mismatch := decide (status = 1) } status s)
  | none => s

/-- How long a port has been without an ACTIVE link while a collective runs; none if it has one. -/
def State.darkFor (s : State) (c : Coll) (p : Nat) : Option Nat :=
  if s.activeLinks p ≠ [] then none else some (match tabGet (fun _ => none) s.fab.litAt p with
    | some t => min (s.since t) (s.since c.began)
    | none => s.since c.began)

/-- A collective whose port has had no ACTIVE link for RMAX × RTMO µs fails with STATUS 5 (R328). -/
def wheelDark (a : Nat) (s : State) : State :=
  match (s.wheel a).coll with
  | none => s
  | some c =>
      let ports := [0, 1].flatMap fun ring => if c.ringN ring = 1 then [] else [wheelPort (c.axisOf a ring) true, wheelPort (c.axisOf a ring) false]
      let dark (p : Nat) : Bool := match s.darkFor c p with
        | some t => decide (s.get (WHL_CFG_RMAX a) * s.get (WHL_CFG_RTMO a) * 4000 ≤ t)
        | none => false
      if ports.any dark then wheelFailBoth a 5 c.r.1 s else s

/-- The collectives as fabric time has passed. -/
def wheelsDark (s : State) : State := if s.wheels = [] then s else settleFab (forAll (List.range 4) wheelDark s)

/-! ### Issue (R318, R324, R327, R331, R332) -/

/-- The digest of a collective (R327). -/
def wheelDigest (w : CmdBits) (seq n n2 : Nat) (aux tab tab2 : List Nat) : Nat :=
  let body := cmdGet w 64 32 + cmdGet w 192 64 * 2 ^ 128
  crc32 (leBytes 24 body ++ leBytes 2 seq ++ [n, n2] ++ leBytes 2 (aux.getD 0 0) ++ [0, 0] ++ leBytes 4 (aux.getD 1 0)
    ++ List.replicate 28 0 ++ tab.flatMap (leBytes 4) ++ tab2.flatMap (leBytes 4))

/-- A length table at an operand of the auxiliary descriptor, if it lies in populated memory: 64 words. -/
def State.lenTable (s : State) (q word : Nat) : Option Nat :=
  match s.operand q (getBits word 20 4) (getBits word 0 20 * 32) with
  | some g => if devOf g = s.devId ∧ rangePopulated (localOf g) 256 then some (localOf g) else none
  | none => none

/-- An operand as a local address; one of another device lies outside every region. -/
def State.localAddr (s : State) (g : Nat) : Nat := if devOf g = s.devId then localOf g else 2 ^ 48

/-- Whether two byte ranges meet. -/
def overlap (a n b m : Nat) : Bool := decide (0 < n) && decide (0 < m) && decide (a < b + m) && decide (b < a + n)

/-- The collective a command describes, with its tables as read; checks follow. -/
structure WPlan where
  c : Coll
  srcLen : Nat                             -- elements read at SRC
  carry : Bool                             -- an address that the descriptor gives carries out of bit 47 (R131)
  ok : Bool                                -- the checks of R331 on AUX and its tables
  vsrc : Nat

def zeroTable : List Nat := List.replicate 64 0

/-- Read a command's descriptor and tables (R318, R320, R331). -/
def wheelPlan (a : Nat) (e : Issued) (src dst res auxAt : Nat) (s : State) : State × WPlan :=
  let q := 120 + a
  let w := e.word
  let op := opcode w
  let n1 := s.ringSize a
  let two := wAxis2 w != 7
  let n2 := if two then s.ringSize (wAxis2 w) else 1
  let r1 := s.position a % n1
  let r2 := if two then s.position (wAxis2 w) % n2 else 0
  let auxOk := rangePopulated auxAt 128
  let s1 := if auxOk then wheelTouch auxAt 128 s else s
  let aux := if auxOk then (List.range 13).map fun k => s1.readNat (auxAt + 4 * k) 4 else []
  let t1 := if wRagged w then s1.lenTable q (aux.getD 2 0) else none
  let t2 := if op = opPermute then s1.lenTable q (aux.getD 3 0) else none
  let readTab (t : Option Nat) (s : State) : State × List Nat := match t with
    | some x => let s := wheelTouch x 256 s; (s, (List.range 64).map fun k => s.readNat (x + 4 * k) 4)
    | none => (s, zeroTable)
  let x1 := readTab t1 s1
  let x2 := readTab t2 x1.1
  let good (t : List Nat) : Bool := (t.drop n1).all (· == 0) && t.foldl (· + ·) 0 == wCount w
  let ragOk := !wRagged w || (t1.isSome && good x1.2)
  let newOk := op != opPermute || (t2.isSome && good x2.2)
  let lens := if wRagged w then x1.2.take n1 else if op = opShift then List.replicate n1 (wCount w) else (List.range n1).map (divide (wCount w) n1)
  let rootOk := if op = opBcast then decide (wRoot w < n1) else if op = opShift then decide (1 ≤ wRoot w) && decide (wRoot w < n1) else true
  let staging := !wDirect w || decide ((n1 - 1) * wCount w * (fmtBits (wFmt w) / 8) ≤ 4194304)
  let seq := s.get (WHL_SEQ_SEQ a)
  let operandAt (word unit : Nat) : Nat := match s.operand q (getBits word 20 4) (getBits word 0 20 * unit) with
    | some g => s.localAddr g
    | none => 2 ^ 48
  let ownLen := divide (lenOf lens r1) n2 r2
  let srcLen := if op = opAllgather then ownLen else if op = opBcast then (if r1 = wRoot w then wCount w else 0)
    else if op = opShift ∨ op = opPermute then lenOf lens r1 else wCount w
  let dstLen := if op = opRedscat then ownLen else if op = opAlltoall then n1 * lenOf lens r1
    else if op = opShift then lenOf lens ((r1 + n1 - wRoot w % n1) % n1)
    else if op = opPermute then lenOf x2.2 r1 else wCount w
  let c : Coll := {
      uid := e.uid, idx := e.idx, word := w, seq := seq,
      digest := wheelDigest w seq n1 (if two then n2 else 0) aux (if wRagged w then x1.2 else zeroTable) (if op = opPermute then x2.2 else zeroTable),
      step := s.step40 24, seed := s.seed, began := s.now, n := (n1, n2), r := (r1, r2), lens := lens, newLens := x2.2.take n1,
      src := src, dst := dst, res := res, vrec := operandAt (aux.getD 10 0) 8, dstLen := dstLen, aux := aux, stages := wheelStages w }
  let carries (used : Bool) (word unit : Nat) : Bool := used && (s.operand q (getBits word 20 4) (getBits word 0 20 * unit)).isNone
  let versions := decide (op = opAllgather) && getBits (aux.getD 8 0) 0 2 != 0
  let carry := carries (auxOk && wRagged w) (aux.getD 2 0) 32 || carries (auxOk && op == opPermute) (aux.getD 3 0) 32
    || carries versions (aux.getD 9 0) 8 || carries versions (aux.getD 10 0) 8
  (x2.1, { c := c, srcLen := srcLen, carry := carry, ok := auxOk && ragOk && newOk && rootOk && staging && (c.vmode != 3), vsrc := operandAt (aux.getD 9 0) 8 })

/-- The STATUS a collective fails with at issue, or 0 (R328, R331). -/
def WPlan.status (p : WPlan) (a : Nat) (s : State) : Nat :=
  let c := p.c
  let q := 120 + a
  let eb := fmtBits (wFmt c.word) / 8
  let sn := p.srcLen * eb
  let dn := c.dstLen * c.outBytes
  let may (x n : Nat) (wr : Bool) : Bool := n == 0 || s.granted q x n wr
  let same := (c.op == opAllreduce && c.src == c.dst) || (c.op == opAllgather && c.src == c.dst + c.pos2 c.r.1 c.r.2 * eb)
  if !p.ok then 6
  else if !(may c.src sn false && may c.dst dn true && may c.res 32 true
      && (c.vmode == 0 || (may p.vsrc 8 false && may c.vrec (8 * c.n.1 * c.n.2) (c.vmode == 1)))) then 7
  else if (overlap c.src sn c.dst dn && !same) || overlap c.res 32 c.src sn || overlap c.res 32 c.dst dn then 6
  else 0

/-- The OR of NF over the records a descriptor names (R324). -/
def State.namedNf (s : State) (a : Nat) (c : Coll) : Bool :=
  let mask := c.auxWord 5 + c.auxWord 6 * 2 ^ 32
  ((List.range 24).any fun t => (c.auxWord 4).testBit t && (List.range 64).any fun i => mask.testBit i && s.isSet (TIL_OVF_W7_NF (tileOvfBase t i)))
    || (List.range 16).any fun i => (c.auxWord 7).testBit i && s.isSet (TIL_OVF_W7_NF (wheelOvfBase a i))

/-- Chunks a neighbour may send before the first is granted anew: 2 MiB of staging for each way (R315, R330). -/
def stagingCredits : Nat := 34

/-- The way chunks that come in on a link travel: the ring, and whether ascending. -/
def Coll.wayIn (c : Coll) (a axis : Nat) : Option Nat := if axis = a then some 0 else if axis = wAxis2 c.word then some 1 else none

/-- Merge a CLOSE, and send it on if it brought a position not yet known. -/
def mergeClose (a ring : Nat) (up : Bool) (m : Nat) (nf psn : Bool) (s : State) : State :=
  match (s.wheel a).coll with
  | none => s
  | some c =>
      let c1 := { c.addMask ring m with nf := c.nf || nf, psn := c.psn || psn }
      let s1 := updColl a (fun _ => c1) s
      if c1.maskOf ring = c.maskOf ring then s1 else wheelCtl a (c.axisOf a ring) up c.seq (c1.closePay ring) s1

/-- Start a collective whose checks have passed: read the contribution, grant staging to the neighbours, take what
came early, and run. -/
def wheelStart (a : Nat) (p : WPlan) (s : State) : State :=
  let eb := fmtBits (wFmt p.c.word) / 8
  let die := wheelDie a
  let s1 := wheelTouch p.c.src (p.srcLen * eb) s
  let bad (l : Nat) : Bool := s1.poisoned l || s1.cutOff die l
  let raw := (List.range p.srcLen).map fun i => (s1.elemBits p.c.src (wFmt p.c.word) i, bad ((p.c.src + i * eb) / 64))
  let named := s1.namedNf a p.c
  let own : List WElem := raw.map fun x => { bits := x.1, psn := x.2, nf := named || !(decodeElem (wFmt p.c.word) x.1).isFinite }
  let base := if p.c.op = opAllgather then p.c.pos2 p.c.r.1 p.c.r.2 else 0
  let pre := if p.c.op = opAllgather ∨ (p.c.op = opBcast ∧ p.c.r.1 = wRoot p.c.word) then (own.zipIdx).map fun x => (base + x.2, x.1) else []
  let s2 := if p.c.vmode = 0 then s1 else wheelTouch p.vsrc 8 s1
  let vers := if p.c.vmode = 0 then [] else [(p.c.r.1 * p.c.n.2 + p.c.r.2, s2.readNat p.vsrc 8, s2.poisonFrom die p.vsrc 8)]
  let early := (s2.wheel a).early.filter fun x => x.seq == p.c.seq
  let creditOf (k : EarlyCol) (t : Tab Nat) : Tab Nat := match p.c.wayIn a k.axis with
    | some ring => tabPut (fun _ => 0) t (wayKey ring k.up) (tabNat t (wayKey ring k.up) + k.credits)
    | none => t
  let c := { p.c with own := own, result := pre, vers := vers, contribNf := named, nf := named || own.any (·.nf), psn := raw.any (·.2), credit := early.foldl (fun t k => creditOf k t) [] }
  let s3 := (s2.setWheel a { s2.wheel a with coll := some c, early := [] }).set (WHL_STAT_STATE a) 1
  let s4 := forAll [0, 1] (fun ring s =>
    if c.ringN ring = 1 then s
    else forAll [true, false] (fun up s => wheelCtl a (c.axisOf a ring) up c.seq (colPay 1 c.flags c.seq stagingCredits 0) s) s) s3
  let s5 := forAll (early.filter (·.mask != 0)) (fun k s => match c.wayIn a k.axis with
    | some ring => mergeClose a ring k.up k.mask k.nf k.psn s
    | none => s) s4
  wheelRun a wheelFuel s5

/-- Whether a version word disagrees with its entry of the array: different, or either poisoned (R332). -/
def badVersion (a : Nat) (c : Coll) (rank : Nat) (word : Nat) (psn : Bool) (s : State) : Bool :=
  let at_ := c.vrec + 8 * rank
  psn || s.poisonFrom (wheelDie a) at_ 8 || s.readNat at_ 8 != word

/-- A wheel command at its issue moment. -/
def wheelIssue (a : Nat) (e : Issued) (s : State) : State × Issue :=
  let q := 120 + a
  let w := e.word
  let cells := s.ringSize a != 1 || (wAxis2 w != 7 && s.ringSize (wAxis2 w) != 1)
  match s.cmdOperand q w 96 20 32, s.cmdOperand q w 120 20 32, s.cmdOperand q w 144 20 32, s.cmdOperand q w 168 20 32 with
  | some src, some dst, some res, some aux =>
      if cells && !s.armed then (freezeHead q 0x600E 0 s, .held)
      else
        let r := wheelPlan a e (s.localAddr src) (s.localAddr dst) (s.localAddr res) (s.localAddr aux) s
        let p := r.2
        if p.carry then (freezeHead q 0x3009 0 r.1, .held) else
        let s1 := r.1.set (WHL_SEQ_SEQ a) (p.c.seq + 1)
        let st := p.status a s1
        let s2 := if st = 0 ∧ p.c.vmode = 2 then wheelTouch (p.c.vrec) (8 * p.c.n.1 * p.c.n.2) (wheelTouch p.vsrc 8 s1) else s1
        let own := p.c.r.1 * p.c.n.2 + p.c.r.2
        let st1 := if st = 0 ∧ p.c.vmode = 2 ∧ badVersion a p.c own (s2.readNat p.vsrc 8) (s2.poisonFrom (wheelDie a) p.vsrc 8) s2 then 4 else st
        if st1 = 0 then (wheelStart a p s2, .issued { e with status := .busy })
        else
          let s3 := endFailed a p.c st1 p.c.r.1 (abortBoth a p.c st1 s2)
          (freezeQueue q (freezeCode st1) 0 e.idx 0 (s3.setQue q { s3.que q with waited := false, chosen := false }), .held)
  | _, _, _, _ => (freezeHead q 0x3009 0 s, .held)

/-- A wheel row: the head command of its QCOL queue. -/
def wheelRow (a : Fin 4) (op : Nat) (s : State) : State := settleFab (runHead (120 + a.val) op true (wheelIssue a) s)

def execAllreduce (a : Fin 4) (s : State) : Res := .next (wheelRow a opAllreduce s)
def execRedscat (a : Fin 4) (s : State) : Res := .next (wheelRow a opRedscat s)
def execAllgather (a : Fin 4) (s : State) : Res := .next (wheelRow a opAllgather s)
def execBcast (a : Fin 4) (s : State) : Res := .next (wheelRow a opBcast s)
def execAlltoall (a : Fin 4) (s : State) : Res := .next (wheelRow a opAlltoall s)
def execShift (a : Fin 4) (s : State) : Res := .next (wheelRow a opShift s)
def execPermute (a : Fin 4) (s : State) : Res := .next (wheelRow a opPermute s)

/-! ### Arriving cells (R324, R328, R330, R334 to R336) -/

/-- The ring position of the neighbour a cell came from. -/
def Coll.reporter (c : Coll) (ring : Nat) (up : Bool) : Nat := nextPos (c.ringN ring) (!up) (c.ringR ring)

/-- Grant a chunk on the link it came on, with what the wheel knows; a link that has left ACTIVE takes no new cell, and the chunk
comes again on another (R256, R330). -/
def grantChunk (a n seq : Nat) (s : State) : State :=
  if s.lstate n ≠ lActive then s
  else wheelSend a n 3 ctGrant seq 0 (colPay 1 (((s.wheel a).coll.map (·.flags)).getD 0) seq 1 0) false false s

/-- The elements of a chunk's data cells. -/
def chunkElems (fmt count : Nat) (cells : List CellBits) : List WElem :=
  let bs := cells.flatMap fun c => (payBytes c).map fun b => (b, cPsn c == 1)
  let per := 512 / fmtBits fmt
  (List.range count).map fun i => { bits := bitsOf bs fmt i, psn := psnOf bs fmt i, nf := cNf (cells.getD (i / per) 0) == 1 }

/-- A whole chunk has arrived on link `n` for wheel `a`. -/
def chunkArrives (a n : Nat) (d : CellBits) (cells : List CellBits) (s : State) : State :=
  let axis := s.lport n / 2
  let up := s.lport n % 2 == 1
  let seq := payNat d 2 2
  let past := (s.wheel a).lastSeq == some seq
  match (s.wheel a).coll with
  | none => if past then grantChunk a n seq s else s
  | some c => match c.wayIn a axis with
      | none => s
      | some ring =>
          if seq ≠ c.seq ∨ payNat d 4 4 ≠ c.digest ∨ (payNat d 1 1).testBit 1 then wheelFailBoth a 1 (c.reporter ring up) s
          else
            let phase := payNat d 0 1
            let ch : Chunk := {
                ring := ring, up := up, phase := phase, piece := payNat d 8 1, origin := payNat d 9 1, off := payNat d 12 4,
                elems := chunkElems (c.wireFmt phase) (payNat d 16 4) cells, ver := payNat d 20 8, verPsn := cPsn d == 1 }
            let key := [ring, up.toNat, phase, ch.piece, ch.origin, ch.off]
            let st := c.stageOf ch
            if c.got.contains key || !c.stages.contains st then grantChunk a n seq s
            else
              let c1 := { c with
                got := c.got ++ [key], nf := c.nf || (payNat d 1 1).testBit 0 || cNf d == 1, psn := c.psn || (payNat d 1 1).testBit 2 }
              let s1 := (updColl a (fun _ => c1) s).inc (WHL_RXBYTES_CNT a) (elemBytes (c.wireFmt phase) ch.elems.length)
              let rank := c.verRank ring ch.piece ch.origin
              let s2 := if c.vmode = 2 then wheelTouch (c.vrec + 8 * rank) 8 s1 else s1
              if c.vmode = 2 ∧ badVersion a c rank ch.ver ch.verPsn s2 then wheelFailBoth a 4 c.r.1 s2
              else
                let s3 := grantChunk a n seq s2
                let now_ := c.started && c.stages.head? == some st
                wheelRun a wheelFuel (if now_ then takeChunk a ch s3 else updColl a (fun c => { c with held := c.held ++ [ch] }) s3)

/-- The first `k` chunks sent on a link leave the list. -/
def dropAcked (n : Nat) : Nat → List SentChunk → List SentChunk
  | _, [] => []
  | 0, l => l
  | k + 1, x :: l => if x.link = some n then dropAcked n k l else x :: dropAcked n (k + 1) l

/-- A GRANT, CLOSE or ABORT has arrived on link `n` for wheel `a`. -/
def wheelCtlArrives (a n : Nat) (d : CellBits) (s : State) : State :=
  let axis := s.lport n / 2
  let fromMinus := s.lport n % 2 == 1
  let kind := payNat d 0 1
  let seq := payNat d 2 2
  let early (x : EarlyCol) : State := if (s.wheel a).lastSeq == some seq then s else s.setWheel a { s.wheel a with early := (s.wheel a).early ++ [x] }
  let x : EarlyCol := { axis := axis, up := false, seq := seq, credits := 0, mask := 0, nf := (payNat d 1 1).testBit 0, psn := (payNat d 1 1).testBit 2 }
  let credits := payNat d 4 4
  if kind = 1 then
    match (s.wheel a).coll with
    | some c =>
        if seq ≠ c.seq then early { x with up := !fromMinus, credits := credits }
        else match c.wayIn a axis with
          | none => s
          | some ring =>
              let k := wayKey ring (!fromMinus)
              wheelRun a wheelFuel (updColl a (fun c => { c with
                sent := dropAcked n credits c.sent, credit := tabPut (fun _ => 0) c.credit k (tabNat c.credit k + credits) }) s)
    | none => early { x with up := !fromMinus, credits := credits }
  else if kind = 2 then
    match (s.wheel a).coll with
    | some c =>
        if seq ≠ c.seq then early { x with up := fromMinus, mask := payNat d 8 8 }
        else match c.wayIn a axis with
          | none => s
          | some ring => wheelRun a wheelFuel (mergeClose a ring fromMinus (payNat d 8 8) x.nf x.psn s)
    | none => early { x with up := fromMinus, mask := payNat d 8 8 }
  else if kind = 3 then
    match (s.wheel a).coll with
    | some c => match c.wayIn a axis with
        | none => s
        | some ring => wheelFail a 3 (c.reporter ring fromMinus) (wheelCtl a axis fromMinus c.seq (d.toNat / 2 ^ 128) s)
    | none => s
  else s

/-- A COL cell accepted from a link: one for another device is discarded with a count; a chunk is put together cell by
cell. -/
def wheelCell (n : Nat) (c : CellBits) (s : State) : State :=
  if cDst c ≠ s.devId then s.inc RTE_NOROUTE_CNT 1
  else
    let a := cMsg c / 256
    let l := s.link n
    let others := l.rxCol.filter (·.1 != a)
    if cType c = ctGrant then wheelCtlArrives a n c s
    else
      let cells := if cType c = ctSegf then [c]
        else match l.rxCol.find? (·.1 == a) with
          | some x => if x.2.length = cIdx c then x.2 ++ [c] else []
          | none => []
      match cells with
      | [] => s
      | d :: rest =>
          if rest.length = payNat d 10 2 then chunkArrives a n d rest (s.setLink n { l with rxCol := others })
          else s.setLink n { l with rxCol := others ++ [(a, cells)] }

/-- A COL cell as the link receives it. -/
def colCellIn (n : Nat) (ok : CellBits → Bool) (c : CellBits) (s : State) : State :=
  if vcClass (cVc c) ≠ kCol ∨ !ok c then s
  else
    let r := receive n c s
    if r.2 then wheelCell n c r.1 else r.1

def execColChunk (n : LinkId) (cells : List (BitVec 640)) (s : State) : Res :=
  .next (settleFab (forAll cells (colCellIn n fun c => cType c == ctSegf || cType c == ctSeg) s))
def execColGrant (n : LinkId) (cell : BitVec 640) (s : State) : Res :=
  .next (settleFab (colCellIn n (fun c => cType c == ctGrant && payNat c 0 1 == 1) cell s))
def execClose (n : LinkId) (cell : BitVec 640) (s : State) : Res :=
  .next (settleFab (colCellIn n (fun c => cType c == ctGrant && payNat c 0 1 == 2) cell s))
def execColAbort (n : LinkId) (cell : BitVec 640) (s : State) : Res :=
  .next (settleFab (colCellIn n (fun c => cType c == ctGrant && payNat c 0 1 == 3) cell s))

/-! ### Timers, completion and the registers' commands (R326, R328, R330, R341) -/

/-- The oldest chunk without a grant is resent on the next ACTIVE link; after RMAX resends the collective fails. -/
def execChunkResend (a : Fin 4) (s : State) : Res :=
  .next (settleFab (match (s.wheel a).coll with
    | none => s
    | some c => match c.sent with
        | [] => s
        | x :: rest =>
            if s.get (WHL_CFG_RMAX a) ≤ x.tries then wheelFailBoth a 5 c.r.1 s
            else
              let links := s.wheelLinks (c.axisOf a x.chunk.ring) x.chunk.up
              let next := match x.link with
                | some n => (links.find? fun m => decide (n < m)).or links.head?
                | none => links.head?
              let s1 := updColl a (fun c => { c with sent := rest ++ [{ x with link := next, tries := x.tries + 1 }] }) s
              match next with
              | some n => sendChunk a n c x.chunk (eventD 0x8008 (srcWheel a) (c.idx * 2 ^ 16) (s1.inc (WHL_RESEND_CNT a) 1))
              | none => s1))

def execProgressTimeout (a : Fin 4) (s : State) : Res :=
  .next (settleFab (match (s.wheel a).coll with
    | some c => wheelFailBoth a 2 c.r.1 s
    | none => s))

/-- Everything has been received, sent and acknowledged: the result, the versions and the descriptor are written, the
command retires, and the landing flags are added to. -/
def execCollectiveComplete (a : Fin 4) (s : State) : Res :=
  .next (match (s.wheel a).coll with
    | none => s
    | some c =>
        if c.stages ≠ [] ∨ c.queue ≠ [] ∨ c.sent ≠ [] then s
        else
          let fmt := if wReduces c.word then (wCvt c.word).fmt else wFmt c.word
          let es := (List.range c.dstLen).map (listGet c.result)
          let psn := es.any (·.psn)
          let s1 := wheelWrite a c.dst (packMarked fmt (es.map fun e => (e.bits, e.psn))) s
          let ranks := c.n.1 * c.n.2
          let s2 := if c.vmode = 1 then
              wheelWrite a c.vrec ((List.range ranks).flatMap fun k => (natBytes 8 (c.verOf k).1).map fun b => (b, (c.verOf k).2)) s1 else s1
          let s3 := if c.psn then eventD 0x8006 (srcWheel a) (c.idx * 2 ^ 16) s2 else s2
          let s4 := writeDescriptor a c psn 0 c.dstLen s3
          let s5 := ((s4.inc (WHL_COLLCNT_CNT a) 1).set (WHL_STAT_LAST a) 0).set (WHL_STAT_STATE a) 0
          let s6 := s5.setWheel a { s5.wheel a with coll := none, lastSeq := some c.seq }
          let q := 120 + a.val
          let s7 := retireOne q (setIssued q c.uid (fun e => { e with status := .done }) s6)
          let f := c.auxWord 11 % 512
          forAll ((List.range 24).filter fun t => f != 0 && (c.auxWord 12).testBit t) (fun t s => addFlag t f 1 (accessSet t s)) s7)

/-- A write of a wheel's register is discarded: event 0x8009 names the command that runs, or is next (R340, R341). -/
def wheelDiscard (a : Nat) (s : State) : State :=
  eventD 0x8009 (srcWheel a) ((((s.wheel a).coll.map (·.idx)).getD (s.get (QUE_STAT_PC (120 + a)))) * 2 ^ 16) s

/-- WHL_CTRL.ABORT fails the running collective. -/
def wheelAbort (a : Nat) (s : State) : State :=
  match (s.wheel a).coll with
  | some c => wheelFailBoth a 3 c.r.1 s
  | none => s

def execWhlAbort (p : PortId) (a : Fin 4) (s : State) : Res := .next (settleFab (ownerWrite p (aWHL_CTRL a) (wheelAbort a) s))

/-- WHL_CTRL.CNT_CLR. -/
def wheelCntClr (a : Nat) (s : State) : State :=
  forAll [aWHL_TXBYTES a, aWHL_RXBYTES a, aWHL_COLLCNT a, aWHL_RESEND a] (fun x s => s.wr x 0) s

def execWhlCntClr (p : PortId) (a : Fin 4) (s : State) : Res := .next (ownerWrite p (aWHL_CTRL a) (wheelCntClr a) s)

end Sys2Proof.Machine
end

