-- ==== Sys2Proof/Machine/Fabric.lean ====
section
/-! DEFINITION. The fabric rows: cells arriving, inbound segments, transport timers, shades and flush reports
(R129, R199, R209, R288 to R305, R385). -/

namespace Sys2Proof.Machine

/-! ### Inbound segments (R293 to R299) -/

/-- Whether a segment under assembly is one from `src` of class `cls` with number `msg`. -/
def Reasm.is (r : Reasm) (src cls msg : Nat) : Bool := r.src == src && r.cls == cls && r.msg == msg

/-- The segment's descriptor cell. -/
def Reasm.desc (r : Reasm) : CellBits := r.cells.headD 0
def Reasm.len (r : Reasm) : Nat := payNat r.desc 4 4
def Reasm.addr (r : Reasm) : Nat := payNat r.desc 8 6
/-- Whether every cell has come. -/
def Reasm.whole (r : Reasm) : Bool := r.cells.length == segCells r.desc

/-- The data bytes, each with its cell's poison. -/
def Reasm.data (r : Reasm) : List (Byte × Bool) :=
  ((r.cells.drop 1).flatMap fun c => (payBytes c).map fun b => (b, cPsn c == 1)).take r.len

def dropReasm (r : Reasm) (s : State) : State :=
  s.setFab { s.fab with reasm := s.fab.reasm.filter fun x => !x.is r.src r.cls r.msg }

/-- The FINAL GRANT of a segment: it returns the cells not yet granted. -/
def finalGrant (r : Reasm) (counts : List PayField) (s : State) : State :=
  sendGrant r.src r.cls r.msg (r.cells.length - r.granted) true r.ce counts s
/-- Refuse a segment. -/
def refuseSeg (r : Reasm) (reason : Nat) (s : State) : State := sendRefuse r.src r.cls r.msg reason s

/-- The permission bits of an exposure window. -/
def permRef (op w : Nat) : FRef := if op = 2 then RTE_EXPBASE_R w else if op = 1 then RTE_EXPBASE_W w else RTE_EXPBASE_ADD w

/-- Whether some exposure window lets `src` do `op` on a whole range (R297). -/
def State.exposed (s : State) (src op a n : Nat) : Bool :=
  let fits (w : Nat) : Bool := s.isSet (permRef op w)
    && (src &&& s.get (RTE_EXPLIM_SRCMASK w)) == (s.get (RTE_EXPBASE_SRCVAL w) &&& s.get (RTE_EXPLIM_SRCMASK w))
    && decide (s.get (RTE_EXPBASE_BASE w) * 4096 ≤ a) && decide (a + n ≤ (s.get (RTE_EXPLIM_LIMIT w) + 1) * 4096)
  (List.range 16).any fits && rangePopulated a n && !s.locked a n

/-- Deliver a whole WRITE, READ or ADD once: its role generation is checked if it asks for that, then the exposure
windows.  `again` answers a repeat; `act` applies it. -/
def serveSegment (op src cls msg : Nat) (again act : Reasm → State → State) (s : State) : State :=
  match s.fab.reasm.find? (·.is src cls msg) with
  | none => s
  | some r =>
      if !r.whole || payNat r.desc 0 1 != op then s
      else settleFab (dropReasm r (deliverOnce src cls msg (cShade r.desc) r.cells.length (again r) (fun s =>
        if (payNat r.desc 1 1).testBit 0 ∧ payNat r.desc 2 2 ≠ s.get GLB_ROLEGEN_RGEN then (refuseSeg r 1 s, false)
        else if op = 4 ∧ (r.addr % 4 ≠ 0 ∨ r.len % 4 ≠ 0) then (refuseSeg r 4 s, false)
        else if !s.exposed src op r.addr r.len then
          (event 0x7005 srcRouter ((refuseSeg r 2 s).inc RTE_EXPREF_CNT 1), false)
        else (act r (accessRange r.addr r.len s), true)) s))

/-- An inbound WRITE. -/
def execSegWrite (src : BitVec 16) (cls : Nat) (msg : BitVec 10) (s : State) : Res :=
  .next (serveSegment 1 src.toNat cls msg.toNat (finalGrant · []) (fun r s => finalGrant r [] (writeServed (linkDie r.via) r.addr r.data s)) s)

/-- Answer a READ with its data. -/
def answerRead (r : Reasm) (s : State) : State :=
  let s1 := touch r.addr r.len s
  let psn (i : Nat) : Bool := s1.poisonFrom (linkDie r.via) (r.addr + 64 * i) (min 64 (r.len - 64 * i))
  sendMessage r.src kRsp (segment r.src s1.devId 3 0 0 r.len 0 r.msg (s1.read r.addr r.len) psn) .reply s1

/-- An inbound READ. -/
def execSegRead (src : BitVec 16) (cls : Nat) (msg : BitVec 10) (s : State) : Res :=
  .next (serveSegment 2 src.toNat cls msg.toNat answerRead answerRead s)

/-- The sums of an inbound ADD, and what they count (R199). -/
def applyAdd (r : Reasm) (s : State) : State × Tally :=
  let rnd := getBits (payNat r.desc 1 1) 1 2
  let c : Cvt := { ori := 0, fmt := fFP32, scm := false, ovfNf := false, sat := (payNat r.desc 1 1).testBit 3, rnd := rnd }
  let s1 := touch r.addr r.len s
  let draw (i : Nat) : Nat := (Config.freeValue 16 (s1.freeCtr + i)).toNat
  let x := addRow c draw 0 r.addr r.data s1 {}
  let s2 := if rnd = 2 then { s1 with freeCtr := s1.freeCtr + r.len / 4 } else s1
  (writeServed (linkDie r.via) r.addr x.1 s2, x.2)

/-- An inbound ADD, granted with its counts. -/
def execSegAdd (src : BitVec 16) (cls : Nat) (msg : BitVec 10) (s : State) : Res :=
  .next (serveSegment 4 src.toNat cls msg.toNat (finalGrant · []) (fun r s =>
    let x := applyAdd r s
    let t := x.2
    finalGrant r [(8, 4, min t.sat 0xFFFFFFFF), (12, 4, min t.nan 0xFFFFFFFF), (16, 4, min t.inf 0xFFFFFFFF),
      (20, 4, min t.unf 0xFFFFFFFF), (24, 4, t.maxAbs), (28, 1, t.nf.toNat)] x.1) s)

/-- RDATA completes a READ: the data goes to the command that asked. -/
def execSegRdata (src : BitVec 16) (cls : Nat) (msg : BitVec 10) (s : State) : Res :=
  .next (match s.fab.reasm.find? (·.is src.toNat cls msg.toNat) with
    | none => s
    | some r =>
        if !r.whole || payNat r.desc 0 1 != 3 then s
        else settleFab (dropReasm r (deliverOnce r.src r.cls r.msg (cShade r.desc) r.cells.length (finalGrant r []) (fun s =>
          let s1 := match s.sendFor r.src kReq (payNat r.desc 16 2 % 1024) with
            | none => s
            | some m => match m.origin with
                | .remote q uid piece => flumePart q uid piece r.data (finishSend m.uid .accepted s)
                | _ => s
          (finalGrant r [] s1, true)) s)))

/-- An inbound MIRROR segment: only from the partner named, in this device's role, into the mirror area (R209). -/
def execSegMirror (src : BitVec 16) (cls : Nat) (msg : BitVec 10) (s : State) : Res :=
  .next (match s.fab.reasm.find? (·.is src.toNat cls msg.toNat) with
    | none => s
    | some r =>
        if !r.whole || payNat r.desc 0 1 != 5 then s
        else settleFab (dropReasm r (deliverOnce r.src r.cls r.msg (cShade r.desc) r.cells.length (finalGrant r []) (fun s =>
          let ok := r.src == s.get LPC_MIRPART_INSRC && payNat r.desc 2 2 == s.get GLB_ROLEGEN_RGEN
            && decide (mirrorBase ≤ r.addr) && decide (r.addr + r.len ≤ tier2End)
          if ok then (finalGrant r [] (writeServed (linkDie r.via) r.addr r.data s), true)
          else (event 0x5008 srcMirror ((refuseSeg r 3 s).set LPC_MIRSTAT_REFUSED 1), false)) s)))

/-- A whole segment with a reserved OP is refused, reason 4 (R297). -/
def refuseReserved (s : State) : State :=
  forAll (s.fab.reasm.filter fun r => r.whole && (payNat r.desc 0 1 == 0 || decide (5 < payNat r.desc 0 1))) (fun r s =>
    dropReasm r (refuseSeg r 4 s)) s

/-! ### Cells arriving (R260, R288, R293) -/

/-- A routed cell as the link receives it. -/
def routedIn (n : Nat) (c : CellBits) (s : State) : State :=
  let r := receive n c s
  if !r.2 then r.1 else if vcClass (cVc c) = kCol then wheelCell n c r.1 else refuseReserved (routeIn n c r.1)

def execSegf (n : LinkId) (fec : Fec) (cell : BitVec 640) (s : State) : Res :=
  .next (settleFab (if cType cell = ctSegf then routedIn n cell (fecCount n fec s) else s))
def execSeg (n : LinkId) (fec : Fec) (cell : BitVec 640) (s : State) : Res :=
  .next (settleFab (if cType cell = ctSeg then routedIn n cell (fecCount n fec s) else s))
def execGrant (n : LinkId) (cell : BitVec 640) (s : State) : Res :=
  .next (settleFab (if cType cell = ctGrant ∧ vcClass (cVc cell) ≠ kCol then routedIn n cell s else s))
def execSignal (n : LinkId) (cell : BitVec 640) (s : State) : Res :=
  .next (settleFab (if cType cell = ctSignal then routedIn n cell s else s))
def execNotice (n : LinkId) (cell : BitVec 640) (s : State) : Res :=
  .next (settleFab (if cType cell = ctNotice ∧ payNat cell 16 1 = 1 then routedIn n cell s else s))
def execNoticeFull (n : LinkId) (cell : BitVec 640) (s : State) : Res :=
  .next (settleFab (if cType cell = ctNotice ∧ payNat cell 16 1 = 2 then routedIn n cell s else s))
def execNoticeAborted (n : LinkId) (cell : BitVec 640) (s : State) : Res :=
  .next (settleFab (if cType cell = ctNotice ∧ payNat cell 16 1 = 3 then routedIn n cell s else s))
def execRefuse (n : LinkId) (cell : BitVec 640) (s : State) : Res :=
  .next (settleFab (if cType cell = ctRefuse then routedIn n cell s else s))
def execFlush (n : LinkId) (cell : BitVec 640) (s : State) : Res :=
  .next (settleFab (if cType cell = ctFlush then routedIn n cell s else s))

/-! ### Timers of the router and the transport (R291, R295, R296) -/

def execAdaptiveFallback (s : State) : Res := .next (settleFab (adaptiveFallback s))

/-- The resend timer of a message expires; it is resent at most RTE_XPORT.MAX times. -/
def execTransportResend (dst : BitVec 16) (cls : Nat) (msg : BitVec 10) (s : State) : Res :=
  .next (settleFab (match s.sendFor dst.toNat cls msg.toNat with
    | some m => if m.tries < s.get RTE_XPORT_MAX then resend m.uid s else s
    | none => s))

/-- The source gives up on a message that has been resent RTE_XPORT.MAX times. -/
def execTransportGiveUp (dst : BitVec 16) (cls : Nat) (msg : BitVec 10) (s : State) : Res :=
  .next (settleFab (match s.sendFor dst.toNat cls msg.toNat with
    | some m =>
        if m.tries < s.get RTE_XPORT_MAX then s
        else finishSend m.uid .gaveUp (eventD 0x7003 srcRouter (m.dst * 2 ^ 16 + m.cls) (s.inc RTE_XGIVEUP_CNT 1))
    | none => s))

/-- A key has been held for the give-up time. -/
def execDuplicateKeyExpiry (src : BitVec 16) (cls : Nat) (msg : BitVec 10) (s : State) : Res :=
  .next (s.setFab { s.fab with dedup := s.fab.dedup.filter (· != (src.toNat, cls, msg.toNat)) })

/-! ### Shades (R302, R305) -/

/-- A routing register write that no row permits is discarded. -/
def routeDiscard (s : State) : State := event 0x7007 srcRouter s

/-- The shade in a state, light first. -/
def State.shadeIn (s : State) (st : Nat) : Option Nat := [0, 1].find? fun sh => s.shade sh == st

def openShade (s : State) : State :=
  match s.shadeIn shRetired with
  | some sh => forAll [aRTE_SHINJ sh, aRTE_SHEJ sh, aRTE_SHDROP sh] (fun a s => s.wr a 0) (s.set (shadeRef sh) shOpen)
  | none => routeDiscard s

/-- STAMP selects the OPEN shade; a write that keeps STAMP as it is selects nothing (log entry 21). -/
def stampShade (sh : Nat) (s : State) : State :=
  if s.stamp = sh then s
  else if s.shade sh = shOpen then
    let s1 := (s.set (shadeRef sh) shLive).set RTE_CTRL_STAMP sh
    if s.shade (1 - sh) = shLive then s1.set (shadeRef (1 - sh)) shDraining else s1
  else routeDiscard s

def retireShade (s : State) : State :=
  match s.shadeIn shDraining with
  | some sh => s.set (shadeRef sh) shRetired
  | none => routeDiscard s

/-! ### Flush reports (R304) -/

/-- Send a FLUSH report of the DRAINING shade: the first at once, a further one after a change of its counts. -/
def flushReport (s : State) : State :=
  match s.shadeIn shDraining with
  | none => s
  | some sh =>
      if !s.isSet RTE_CTRL_FLREP then s
      else
        let ej := s.get (RTE_SHEJ_CNT sh)
        let drop := s.get (RTE_SHDROP_CNT sh)
        let last := match s.fab.flushSent with
          | some (x, e, d) => if x = sh then some (e, d) else none
          | none => none
        let first := last.isNone
        let e0 := (last.map (·.1)).getD 0
        let d0 := (last.map (·.2)).getD 0
        if !first && ej == e0 && drop == d0 then s
        else
          let pay := payload [(0, 2, s.devId), (2, 1, sh), (3, 1, first.toNat), (8, 8, if first then s.get (RTE_SHINJ_CNT sh) else 0),
            (16, 8, (ej + 2 ^ 64 - e0) % 2 ^ 64), (24, 8, (drop + 2 ^ 64 - d0) % 2 ^ 64)]
          sendCell (s.get RTE_FLCFG_COORD) kCtl ctFlush 0 pay (s.setFab { s.fab with flushSent := some (sh, ej, drop) })

/-- FLREP starts reporting, with a first report at once, or stops it. -/
def setFlrep (on : Bool) (s : State) : State :=
  if on then flushReport (s.set RTE_CTRL_FLREP 1)
  else (s.set RTE_CTRL_FLREP 0).setFab { s.fab with flushSent := none }

/-- FLCLR clears the coordinator's collection. -/
def flushClear (s : State) : State :=
  let s1 := (s.set RTE_FLSTAT_DONE 0).set RTE_FLSTAT_REPORTED 0
  let s2 := forAll [aRTE_FLINJ, aRTE_FLEJ, aRTE_FLDROP] (fun a s => s.wr a 0) s1
  s2.setFab { s2.fab with flushGuard := false }

/-- CNT_CLR clears the RTE counters (R314). -/
def rteCntClr (s : State) : State :=
  forAll ([aRTE_NOROUTE, aRTE_EXPREF, aRTE_XRETRY, aRTE_XGIVEUP, aRTE_DEDUPFULL, aRTE_CEMARK, aRTE_ETHDROP]
    ++ [0, 1].flatMap fun sh => [aRTE_SHINJ sh, aRTE_SHEJ sh, aRTE_SHDROP sh]) (fun a s => s.wr a 0) s

/-- An owner's write of RTE_CTRL with one effect. -/
def rteCtrl (p : PortId) (eff : State → State) (s : State) : State := settleFab (ownerWrite p aRTE_CTRL eff s)

def execOpen (p : PortId) (s : State) : Res := .next (rteCtrl p openShade s)
def execStamp (p : PortId) (dark : Bool) (s : State) : Res := .next (rteCtrl p (stampShade dark.toNat) s)
def execRetire (p : PortId) (s : State) : Res := .next (rteCtrl p retireShade s)
def execFlrep (p : PortId) (on : Bool) (s : State) : Res := .next (rteCtrl p (setFlrep on) s)
def execFlclr (p : PortId) (s : State) : Res := .next (rteCtrl p flushClear s)
def execRteCntClr (p : PortId) (s : State) : Res := .next (rteCtrl p rteCntClr s)

def execFlushReportSend (s : State) : Res := .next (settleFab (flushReport s))

/-- The guard time ends: the coordinator tests again. -/
def execFlushGuardExpiry (s : State) : Res :=
  .next (if !s.fab.flushGuard then s
    else
      let s1 := s.setFab { s.fab with flushGuard := false }
      if s1.get RTE_FLSTAT_REPORTED = s1.get RTE_FLCFG_NDEV ∧ s1.get RTE_FLINJ_SUM ≤ s1.get RTE_FLEJ_SUM + s1.get RTE_FLDROP_SUM then
        event 0x7001 srcRouter (s1.set RTE_FLSTAT_DONE 1)
      else s1)

end Sys2Proof.Machine
end

