-- ==== Sys2Proof/Machine/Ethernet.lean ====
section
/-! DEFINITION. The Ethernet personality: frames, priority flow control and LLDP (R306 to R310). -/

namespace Sys2Proof.Machine

/-! ### Frames (R307) -/

/-- The 16-bit big-endian words of a byte string, padded. -/
def wordsOf : List Nat → List Nat
  | [] => []
  | [a] => [a * 256]
  | a :: b :: r => (a * 256 + b) :: wordsOf r

/-- The Internet checksum. -/
def inetSum (bs : List Nat) : Nat :=
  let t := (wordsOf bs).foldl (· + ·) 0
  let f := t % 65536 + t / 65536
  let g := f % 65536 + f / 65536
  65535 - (g % 65536 + g / 65536)

/-- The flow value of a class and gateway. -/
def State.flowOf (s : State) (gw k : Nat) : Nat := crc16 (leBytes 2 s.devId ++ [gw % 256, k])

/-- The frame that carries cells of class `k` to gateway `gw` from link `n`. -/
def State.cellFrame (s : State) (n k gw : Nat) (cells : List CellBits) : List Byte :=
  let f := s.flowOf gw k
  let src := leBytes 8 (s.rd (aRTE_ETHIPH n)).toNat ++ leBytes 8 (s.rd (aRTE_ETHIPL n)).toNat
  let dst := leBytes 8 (s.rd (aRTE_GW gw)).toNat ++ leBytes 8 (s.rd (aRTE_GWL gw)).toNat
  let body := [2, cells.length] ++ leBytes 2 s.devId ++ [0, 0, 0, 0] ++ cells.flatMap fun c => (cellBytes c).drop 8
  let ulen := 8 + body.length
  let head (sum : Nat) : List Nat := beBytes 2 (0xC000 + f % 16384) ++ beBytes 2 (s.get RTE_ETHCFG_UDPPORT) ++ beBytes 2 ulen ++ beBytes 2 sum
  let sum := inetSum (src ++ dst ++ beBytes 4 ulen ++ [0, 0, 0, 17] ++ head 0 ++ body)
  let tag := if s.isSet RTE_ETHCFG_TAG then [0x81, 0x00] ++ beBytes 2 (s.classPcp k * 8192 + s.get RTE_ETHPCP_VID) else []
  let ip := beBytes 4 (6 * 2 ^ 28 + (s.classDscp k * 4 + 2) * 2 ^ 20 + f) ++ beBytes 2 ulen ++ [17, 64] ++ src ++ dst
  withFcs (leBytes 6 (s.get (RTE_GWMAC_MAC gw)) ++ s.ownMac n ++ tag ++ [0x86, 0xDD] ++ ip ++ head (if sum = 0 then 65535 else sum) ++ body)

/-! ### Sending -/

/-- A frame leaves: CPD cells, or what the hold timer finds; each cell alone when HOLD is 0. -/
def execEthFrameSend (n : LinkId) (cls : Nat) (gw : BitVec 8) (s : State) : Res :=
  .next (
    let l := s.link n
    if !s.isEth n || s.lstate n != lActive || l.pfcStopped.testBit (s.classPcp cls) then s
    else match l.frames.find? fun f => f.cls == cls && f.gw == gw.toNat with
      | none => s
      | some f =>
          let most := if s.get RTE_ETHCFG_HOLD = 0 then 1 else s.get RTE_ETHCFG_CPD
          let go := f.cells.take most
          let rest := f.cells.drop most
          let others := l.frames.filter fun x => !(x.cls == cls && x.gw == gw.toNat)
          let s1 := s.setLink n (fillFrames { l with frames := if rest = [] then others else others ++ [{ f with cells := rest }] })
          settleFab (forAll go (fun q s => giveRoom q.inp s) (s1.emit (.frame n (s.cellFrame n cls gw.toNat (go.map (·.cell)))))))

/-! ### Receiving (R308) -/

/-- `k` bytes of a byte string from `i`, most significant first. -/
def beAt (bs : List Nat) (i k : Nat) : Nat := beNat ((bs.drop i).take k)

/-- Discard a frame with its event. -/
def frameDiscard (n : Nat) (s : State) : State := event 0x7008 (srcLink n) (s.inc RTE_ETHDROP_CNT 1)

/-- A cell out of a frame enters the router as an originated one; COL and link-local cells never do. -/
def frameCell (n : Nat) (ce : Bool) (c : CellBits) (s : State) : State :=
  let k := vcClass (cVc c)
  if 12 ≤ cVc c ∨ k = kCol ∨ cType c < 4 ∨ 11 ≤ cType c then countDrop c s
  else
    let c1 := cellSet (if ce then cellSet c 127 1 1 else c) 68 4 (escVc k)
    if cDst c1 = s.devId then drainInbox 64 (refuseReserved (deliver c1 s))
    else routeCell false { cell := c1, inp := some (n, escVc k) } s

/-- The cells a frame carries, byte 0 to 7 of each empty. -/
def frameCells (bs : List Nat) : Nat → Nat → List CellBits
  | 0, _ => []
  | k + 1, i => BitVec.ofNat 640 (leNat ((bs.drop i).take 72) * 2 ^ 64) :: frameCells bs k (i + 72)

/-- A received frame's fate. -/
def frameArrives (n : Nat) (frame : List Byte) (s : State) : State :=
  let bs := frame.map (·.toNat)
  let size := bs.length
  let data := bs.take (size - 4)
  let at_ := if beAt bs 12 2 = 0x8100 then 18 else 14
  if size < 64 ∨ 9216 < size ∨ leNat (bs.drop (size - 4)) ≠ crc32 data then s
  else if beAt bs (at_ - 2) 2 ≠ 0x86DD ∨ beAt bs (at_ + 6) 1 ≠ 17 ∨ beAt bs (at_ + 42) 2 ≠ s.get RTE_ETHCFG_UDPPORT then frameDiscard n s
  else
    let version := beAt bs (at_ + 48) 1
    let count := beAt bs (at_ + 49) 1
    let ulen := beAt bs (at_ + 44) 2
    if version = 0 ∨ 16 < version ∨ !(s.get PRT_PROTO_PVSET).testBit (version - 1) ∨ count = 0 ∨ 63 < count ∨ ulen ≠ 16 + 72 * count
        ∨ size < at_ + 40 + ulen + 4 then frameDiscard n s
    else
      let cells := frameCells bs count (at_ + 56)
      let ce := beAt bs at_ 4 / 2 ^ 20 % 4 = 3
      let k := vcClass (cVc (cells.headD 0))
      if s.get (LNK_VCFREE_FREE n (escVc k)) < 80 * count then forAll cells countDrop (s.inc RTE_ETHDROP_CNT 1)
      else forAll cells (frameCell n (decide ce)) s

def execEthFrameReceive (n : LinkId) (frame : List (BitVec 8)) (s : State) : Res :=
  .next (if !s.isEth n || !s.lanesUp n then s else settleFab (frameArrives n frame s))

/-- A received PFC frame: with PFC on it stops or releases its priority, otherwise it is counted. -/
def execPfcFrameReceive (n : LinkId) (prio : Fin 8) (quanta : BitVec 16) (s : State) : Res :=
  .next (if !s.isEth n || !s.lanesUp n then s
    else if !s.isSet RTE_ETHCFG_PFC then s.inc RTE_ETHDROP_CNT 1
    else
      let l := s.link n
      s.setLink n { l with pfcStopped := putBits l.pfcStopped prio.val 1 (if quanta = 0 then 0 else 1) })

/-- The PFC frame of a class still held is repeated. -/
def execPfcRepeat (n : LinkId) (cls : Nat) (s : State) : Res :=
  .next (if s.isEth n && s.isSet RTE_ETHCFG_PFC && (s.link n).pfcSent.testBit cls && s.classHeld n cls then
      s.emit (.frame n (s.pfcFrame n (s.classPcp cls) 0xFFFF))
    else s)

/-! ### LLDP (R310) -/

/-- A TLV's header and value. -/
def tlv (ty : Nat) (v : List Nat) : List Nat := beBytes 2 (ty * 512 + v.length) ++ v

/-- The frame of an LLDPDU. -/
def State.lldpFrame (s : State) (n : Nat) : List Byte :=
  let port := [7, 70, 76, 48 + n / 10, 48 + n % 10]
  let ttl := (4 * s.get RTE_LLDP_INTERVAL + 9) / 10
  let hello := leBytes 28 (s.helloPayload n)
  withFcs ([0x01, 0x80, 0xC2, 0x00, 0x00, 0x0E] ++ s.ownMac n ++ [0x88, 0xCC] ++ tlv 1 ([4] ++ s.ownMac n) ++ tlv 2 port
    ++ tlv 3 (beBytes 2 ttl) ++ tlv 127 (beBytes 3 (s.get RTE_LLDP_OUI) ++ [1] ++ hello) ++ tlv 0 [])

def execLldpSend (n : LinkId) (s : State) : Res :=
  .next (if s.isEth n && (s.lstate n == lActive || s.lstate n == lParked) && s.get RTE_LLDP_INTERVAL != 0 then
      let s1 := s.emit (.frame n (s.lldpFrame n))
      s1.setLink n { s1.link n with hseq := ((s1.link n).hseq + 1) % 65536 }
    else s)

/-- The TLVs of an LLDPDU: type and value; `fuel` bounds them. -/
def tlvs : Nat → List Nat → List (Nat × List Nat)
  | 0, _ => []
  | fuel + 1, bs =>
      let h := beAt bs 0 2
      if bs.length < 2 ∨ h / 512 = 0 then [] else (h / 512, (bs.drop 2).take (h % 512)) :: tlvs fuel (bs.drop (2 + h % 512))

/-- An LLDPDU arrives: it clears the neighbour, stores a hello, or shows a switch; the plan is evaluated. -/
def lldpArrives (n : Nat) (pdu : List Nat) (s : State) : State :=
  let ts := tlvs pdu.length pdu
  let value (ty : Nat) : List Nat := ((ts.find? (·.1 == ty)).map (·.2)).getD []
  let mine := ts.find? fun t => t.1 == 127 && t.2.length == 32 && beAt t.2 0 3 == s.get RTE_LLDP_OUI && beAt t.2 3 1 == 1
  let l := s.link n
  let clear (ser : Nat) (s : State) : State := ((s.wr (aLNK_NBR n) 0).wr (aLNK_NBRSER n) (BitVec.ofNat 64 ser)).wr (aLNK_NBRVER n) 0
  if beAt (value 3) 0 2 = 0 then evaluate n (clear 0 (s.setLink n { l with heard := false, switch := false }))
  else match mine with
    | some t =>
        let f (i k : Nat) : Nat := leNat (((t.2.drop 4).drop i).take k)
        evaluate n (storeHello n f (s.setLink n { l with heard := true, switch := false }))
    | none =>
        let ch := value 1
        let ser := if beAt ch 0 1 = 4 then leNat ((ch.drop 1).take 6) else 0
        evaluate n (clear ser (s.setLink n { l with heard := false, switch := true }))

def execLldpReceive (n : LinkId) (pdu : List (BitVec 8)) (s : State) : Res :=
  .next (if !s.isEth n || !s.lanesUp n then s else settleFab (lldpArrives n (pdu.map (·.toNat)) s))

end Sys2Proof.Machine
end

