-- ==== Sys2Proof/Machine/Tile.lean ====
section
/-! DEFINITION. Tile gating, flags and records written by a host, the job seed, and counters cleared (R24 to R27, R50, R57,
R126, R127, R215). -/

namespace Sys2Proof.Machine

/-! ### Gating (R24 to R27) -/

/-- Whether no engine of a tile has a command in progress.  A command whose work is complete counts until it retires, but for
one that an aborted command before it holds back until a thaw. -/
def State.enginesIdle (s : State) (t : Nat) : Bool :=
  (setQueues t).all fun q =>
    !((s.que q).issued.any fun e => e.isEngine && decide (e.status = .busy)) &&
    !(((s.que q).issued.takeWhile fun e => decide (e.status ≠ .rerun)).any Issued.isEngine)

/-- Whether an access to tile `t`'s scratchpad is in progress: a DMA descriptor between its parts, a collective that reads or
writes there, or another tile's Flume command that waits for a part of it. -/
def State.padBusy (s : State) (t : Nat) : Bool :=
  let here (a : Nat) : Bool := padTile (localOf a) == some t
  ((List.range 32).any fun k => match (tabGet (fun _ => {}) s.dmas k).desc with
    | some d => here (descDev d)
    | none => false) ||
  ((List.range 4).any fun a => match (s.wheel a).coll with
    | some c => here c.src || here c.dst || here c.res || here c.vrec
    | none => false) ||
  ((List.range 120).any fun q => q / 5 != t && (s.que q).issued.any fun e =>
    decide (e.status = .busy) && 3 ≤ q % 5 && (e.job.take 6).any fun a => decide (devOf a = s.devId) && here a)

/-- A running tile whose queues and engines rest, whose scratchpad nothing accesses, and which no sluice has pre-woken, stops its
clocks (R24, R359). -/
def execTileClockGate (t : TileId) (s : State) : Res :=
  .next (if (s.gate t).phase = .running ∧ s.queuesIn t [qIdle, qWaiting, qParked, qFrozen] ∧ s.enginesIdle t ∧ !s.padBusy t ∧ !s.preWoken t then startGateTimer t (setPhase t .clockGated s) else s)

/-- A clock-gated tile with no waiting queue enters power gating, where PG_EN permitted it as the timer started (R27). -/
def execTilePowerGateEntry (t : TileId) (s : State) : Res :=
  .next (if (s.gate t).phase = .clockGated ∧ s.queuesIn t [qIdle, qParked, qFrozen] ∧ (s.gate t).pgEn = some true then setPhase t .entering s else s)

/-- The quiescing phase ends: the arithmetic is isolated. -/
def execTileIsolation (t : TileId) (s : State) : Res :=
  .next (if (s.gate t).phase = .entering then setPhase t .isolated s else s)

/-- Entry completes; a wake event that came after isolation starts the exit. -/
def execTilePowerGateComplete (t : TileId) (s : State) : Res :=
  .next (if (s.gate t).phase = .isolated then
      let s1 := setPhase t .powerGated (loseArrays t s)
      if (s.gate t).wakeAfter then setPhase t .waking (s1.setGate t { s1.gate t with wakeAfter := false }) else s1
    else s)

/-- A wake event reaches the tile. -/
def execTileWake (t : TileId) (s : State) : Res := .next (wakeTile t s)

/-- The tile can act again. -/
def execTileWakeComplete (t : TileId) (s : State) : Res :=
  .next (if (s.gate t).phase = .waking then runTile t s else s)

/-- TIL_GATE.WAKE. -/
def execTilGateWake (p : PortId) (t : TileId) (s : State) : Res := .next (ownerWrite p (aTIL_GATE t) (wakeTile t) s)

/-! ### Flags (R126, R127) -/

/-- Set a flag's value. -/
def setFlag (g f v : Nat) (s : State) : State :=
  if f = 0 then s else flagChanged g f (s.set (TIL_FLAG_VALUE g f) v)

/-! ### The job seed (R50) -/

/-- Commit the pending words with word 3. -/
def commitSeed (v : BitVec 32) (s : State) : State :=
  let w (k : Nat) : Word := (s.seedPend.extractLsb' (32 * k) 32).setWidth 64
  (((s.wr (aGLB_JOBSEED 0) (w 0)).wr (aGLB_JOBSEED 1) (w 1)).wr (aGLB_JOBSEED 2) (w 2)).wr (aGLB_JOBSEED 3) (v.setWidth 64)

/-- Hold word `k` until the next commit. -/
def holdSeed (k v : Nat) (s : State) : State := { s with seedPend := BitVec.ofNat 96 (putBits s.seedPend.toNat (32 * k) 32 v) }

def execGlbJobseedCommit (p : PortId) (v : BitVec 32) (s : State) : Res := .next (ownerWrite p (aGLB_JOBSEED 3) (commitSeed v) s)

/-! ### Records and counters -/

/-- CLR of a tile's overflow record (R57). -/
def execTilOvfClr (p : PortId) (t : TileId) (i : Fin 64) (s : State) : Res :=
  .next (ownerWrite p (aTIL_OVF_W7 (tileOvfBase t i)) (clearOvf (tileOvfBase t i)) s)

/-- Clear the error counters of the first tier, or of the second. -/
def clearErrCounts (lpc : Bool) (s : State) : State :=
  if lpc then forAll (List.range 4) (fun k s => (s.wr (aLPC_CECNT k) 0).wr (aLPC_UECNT k) 0) s
  else forAll (List.range 16) (fun k s => (s.wr (aHBC_CECNT k) 0).wr (aHBC_UECNT k) 0) s

/-- HBC_CTRL.CNT_CLR or LPC_CTRL.CNT_CLR (R215). -/
def execHbcCntClr (p : PortId) (lpc : Bool) (s : State) : Res :=
  .next (ownerWrite p (if lpc then aLPC_CTRL else aHBC_CTRL) (clearErrCounts lpc) s)

end Sys2Proof.Machine
end

