-- ==== Sys2Proof/Machine/Host.lean ====
section
/-! DEFINITION. The host ports: ownership, BAR4, doorbells, mailboxes, DMA channels, PCI Express configuration and
port resets (R362 to R396). -/

namespace Sys2Proof.Machine

/-! ### Ownership (R371 to R373) -/

/-- Make a port the owner, or none (0): OGEN advances, the event and vector 34 follow. -/
def changeOwner (new : Nat) (s : State) : State :=
  let old := s.get HST_OWN_OWNER
  let s1 := (s.set HST_OWN_OWNER new).inc HST_OWN_OGEN 1
  let s2 := (s1.set (HST_STAT_OWNER 0) (new == 1).toNat).set (HST_STAT_OWNER 1) (new == 2).toNat
  raiseBoth 34 (eventD 0xA003 srcDevice (old + new * 2 ^ 8 + s2.get HST_OWN_OGEN * 2 ^ 16) s2)

/-- Whether port `p` may take ownership: not frozen, and the device is ready. -/
def State.mayOwn (s : State) (p : Nat) : Bool := s.ready && !s.isSet (HST_STAT_FROZEN p)

/-- Complete an ownership read: RESULT and OGEN after the action. -/
def ownReply (p result : Nat) (s : State) : State :=
  readReply p (BitVec.ofNat 64 (result * 2 ^ 30 + s.get HST_OWN_OGEN)) s

/-- R372's rows for HST_CLAIM, in their order. -/
def claimRead (p : Nat) (s : State) : State :=
  if s.owns p then ownReply p 1 s
  else if s.get HST_OWN_OWNER ≠ 0 then ownReply p 2 s
  else if s.mayOwn p then ownReply p 0 (changeOwner (p + 1) s) else ownReply p 3 s
/-- R372's rows for HST_RELEASE. -/
def releaseRead (p : Nat) (s : State) : State :=
  if s.owns p then ownReply p 0 (changeOwner 0 s) else ownReply p 1 s
/-- R372's rows for HST_SEIZE: without another owner it does not apply. -/
def seizeRead (p : Nat) (s : State) : State :=
  if s.owns p || s.get HST_OWN_OWNER == 0 then ownReply p 2 s
  else if !s.mayOwn p then ownReply p 3 s
  else if s.get (HST_SEIZEKEY_KEY p) = s.get HST_OWN_OGEN then ownReply p 0 (changeOwner (p + 1) s)
  else ownReply p 1 s

def execHstClaim (port : PortId) (s : State) : Res := .next (claimRead port s)
def execHstRelease (port : PortId) (s : State) : Res := .next (releaseRead port s)
def execHstSeize (port : PortId) (s : State) : Res := .next (seizeRead port s)

/-! ### The write freeze (R374, R375) -/

/-- A port's own read of HST_VIOLREC lets it thaw. -/
def violSeen (p port : Nat) (s : State) : State :=
  if p = port ∧ s.isSet (HST_STAT_FROZEN port) then s.setPort port { s.port port with violRead := true } else s

/-- A read of HST_VIOLREC. -/
def execHstViolrecRead (p port : PortId) (s : State) : Res :=
  .next (violSeen p port (readReply p (s.rd (aHST_VIOLREC port)) s))

/-- Release the freeze. -/
def releaseFreeze (p : Nat) (s : State) : State :=
  let s1 := ((s.set (HST_VIOLREC_VALID p) 0).set (HST_VIOLREC_COUNT p) 0).set (HST_STAT_FROZEN p) 0
  s1.setPort p { s1.port p with violRead := false }

/-- What a port's own read of HST_PORTTHAW does (R375). -/
def thawRead (p : Nat) (s : State) : State :=
  let answer (r : Nat) (s : State) : State := readReply p (BitVec.ofNat 64 (r * 2 ^ 30)) s
  if !s.isSet (HST_STAT_FROZEN p) then answer 1 s
  else if (s.port p).violRead then answer 0 (releaseFreeze p s) else answer 2 s

def execHstPortthaw (port : PortId) (s : State) : Res := .next (thawRead port s)

/-! ### Doorbells (R377, R378) -/

def execDbl (p : PortId) (g : SetId) (f : Fin 512) (v : BitVec 32) (s : State) : Res :=
  .next (hostWrite p true 1 (g * 0x1000 + 4 * f) (fun s => addFlag g f (v.toNat % 65536) (accessSet g s)) s)

/-! ### Mailboxes (R379 to R384) -/

/-- A post through a staging slot. -/
def hostPost (p k : Nat) (s : State) : State :=
  let done (out : Nat) (s : State) : State :=
    (readReply p (BitVec.ofNat 64 (out * 2 ^ 28)) (s.set (MBX_STGSTAT_LAST p k) out)).set (MBX_POST_OUTCOME p k) out
  let mbox := s.get (MBX_STGDST_MBOX p k)
  let dst := s.get (MBX_STGDST_DSTDEV p k)
  let notice := (s.rd (aMBX_STGADDR p k)).toNat + s.get (MBX_STGLEN_LEN p k) * 2 ^ 64
    + s.get (MBX_STGCODE_CODE p k) * 2 ^ 96 + s.get (MBX_STGCODE_RGEN p k) * 2 ^ 112
  if 48 ≤ mbox ∨ dst = 0xFFFF ∨ (s.port p).posts.any (·.1 == k) then done 5 s
  else if dst ≠ s.devId ∧ !s.armed then done 3 s
  else
    let s1 := s.setPort p { s.port p with posts := (s.port p).posts ++ [(k, true)] }
    if dst = s.devId then
      let x := acceptNotice mbox notice s.devId p k s1
      hostPostOutcome p k x.2.post x.1
    else
      settleFab (sendMessage dst kReq [noticeCell dst s.devId notice 1 mbox p k] (.hostPost p k) (s1.set (MBX_STGSTAT_PENDING p k) 1))

def execMbxPost (p : PortId) (k : Fin 8) (s : State) : Res :=
  .next (if s.ready then hostPost p k s else readReply p 0 s)

/-- The POST read completes with its post still pending. -/
def execPostwaitExpiry (p : PortId) (k : Fin 8) (s : State) : Res :=
  .next (if (s.port p).posts.contains (k.val, true) then
      let s1 := s.setPort p { s.port p with posts := (s.port p).posts.map fun x => if x.1 = k.val then (x.1, false) else x }
      (readReply p (BitVec.ofNat 64 (4 * 2 ^ 28)) (s1.set (MBX_STGSTAT_PENDING p k) 1)).set (MBX_POST_OUTCOME p k) 4
    else s)

/-- A write of MBX_CONS: by the receiver, and not past PROD. -/
def consWrite (p m v : Nat) (s : State) : State :=
  hostWrite p false 1 (0x100204 + 0x400 * m) (fun s =>
    if m / 16 ≠ p then violation p 1 (0x100204 + 0x400 * m) s
    else if (v + 65536 - s.get (MBX_CONS_CONS m)) % 65536 ≤ s.mailHeld m then s.set (MBX_CONS_CONS m) v else s) s

def execMbxCons (p : PortId) (m : Fin 48) (v : BitVec 16) (s : State) : Res := .next (consWrite p m v.toNat s)

/-- HST_CTRL.MBXCLR of the port's own block. -/
def execMbxclr (p : PortId) (s : State) : Res :=
  .next (hostWrite p false 0 (aHST_CTRL p) (fun s => settleFab (clearMailboxes (16 * p) (srcHost p 0) s)) s)

/-! ### Flag watches (R370) -/

/-- Write HST_FWATCH_w; a watch armed on a condition that holds fires at once. -/
def fwatchWrite (p w v wlo whi : Nat) (s : State) : State :=
  let s1 := writeBits (aHST_FWATCH p w) v wlo whi s
  if s1.isSet (HST_FWATCH_ARM p w) then fireWatches (s1.get (HST_FWATCH_SET p w)) (s1.get (HST_FWATCH_FLAG p w)) s1 else s1

def execHstFwatchArm (p : PortId) (w : Fin 1984) (v : BitVec 64) (s : State) : Res :=
  .next (hostWrite p false 0 (aHST_FWATCH p w) (fwatchWrite p w v.toNat 0 63) s)

/-! ### DMA channels (R386 to R389) -/

def State.dma (s : State) (p c : Nat) : DmaJob := tabGet (fun _ => {}) s.dmas (p * 16 + c)
def State.setDma (s : State) (p c : Nat) (j : DmaJob) : State := { s with dmas := tabPut (fun _ => {}) s.dmas (p * 16 + c) j }

/-- Descriptors the ring holds. -/
def State.dmaHeld (s : State) (p c : Nat) : Nat := (s.get (DMA_PROD_PROD p c) + 65536 - s.get (DMA_CONS_CONS p c)) % 65536

/-- Ask the host for bytes. -/
def dmaRead (p c a n : Nat) (s : State) : State :=
  let tag := s.nextUid
  (({ s with nextUid := tag + 1 }).setDma p c { s.dma p c with tag := some tag, at_ := a, want := n }).emit (.hostRead p a n tag)

/-- An idle channel with descriptors in its ring fetches the next one, while its port's path is open. -/
def dmaKick (p c : Nat) (s : State) : State :=
  if s.get (DMA_STAT_STATE p c) == 2 || (s.dma p c).tag.isSome || (s.dma p c).desc.isSome then s
  else if !s.isSet (DMA_CFG_EN p c) ∨ s.dmaHeld p c = 0 ∨ !s.hostOpen p then s.set (DMA_STAT_STATE p c) 0
  else
    let i := s.get (DMA_CONS_CONS p c) % 2 ^ s.get (DMA_CFG_SIZE p c)
    dmaRead p c (s.get (DMA_RING_BASE p c) * 4096 + 32 * i) 32 (s.set (DMA_STAT_STATE p c) 1)

/-- Every channel of a port goes on if it can. -/
def dmaKickAll (p : Nat) (s : State) : State := forAll (List.range 16) (fun c s => dmaKick p c s) s

/-- A channel stops: its device destination is open, and its error is recorded (R389). -/
def dmaStop (p c err addr : Nat) (s : State) : State :=
  let s1 := match (s.dma p c).desc with
    | some d => if !descOut d && rangePopulated (descDev d) (descLen d) then s.scramble (descDev d) (descLen d) else s
    | none => s
  let s2 := ((s1.setDma p c {}).set (DMA_STAT_STATE p c) 2).set (DMA_STAT_ERR p c) err
  raiseVector p (16 + c) (eventD 0xA006 (srcHost p c) (err + p * 2 ^ 8 + c * 2 ^ 16) (s2.wr (aDMA_ERRADDR p c) (BitVec.ofNat 64 addr)))

/-- The first address of a range that is not populated. -/
def firstHole (a : Nat) : Nat :=
  match regionOf a with
  | some .tier1 => 0x020000000000
  | some .tier2 => tier2End
  | some (.pad t) => padBase t + padSize
  | none => a

/-- Whether a descriptor holds a reserved field or value. -/
def descReserved (d : Nat) : Bool :=
  decide (1 < getBits d 160 8) || getBits d 170 6 != 0 || getBits d 190 2 != 0 || descLen d == 0 || getBits d 208 48 != 0
    || (getBits d 169 1 == 1 && decide (24 < getBits d 185 5))

/-- The most a channel asks for in one read. -/
def dmaPart : Nat := 4096

/-- A fetched descriptor is checked and begun. -/
def dmaBegin (p c d : Nat) (s : State) : State :=
  let a := descDev d
  let n := descLen d
  let s1 := s.setDma p c { desc := some d }
  if descReserved d then dmaStop p c 1 (s.dma p c).at_ (s.setDma p c {})
  else if !rangePopulated a n then dmaStop p c 2 (firstHole a) (s.setDma p c {})
  else if !descOut d && s.locked a n then dmaStop p c 2 (max a mirrorBase) (s.setDma p c {})
  else if descOut d then
    let s2 := touch a n (accessRange a n s1)
    hostWriteOut p (descHost d) true (s2.readFrom (hostDie p) a n) (s2.setDma p c { desc := some d, got := n })
  else dmaRead p c (descHost d) (min dmaPart n) s1

/-- A read completion arrives for a channel: its descriptor, or a part of its data. -/
def dmaCompletion (p c : Nat) (bs : List (Byte × Bool)) (s : State) : State :=
  let j := s.dma p c
  match j.desc with
  | none => dmaBegin p c (leNat (bs.map (·.1.toNat))) (s.setDma p c { j with tag := none })
  | some d =>
      let at_ := descDev d + j.got
      let s1 := countUnmirrored at_ bs.length (writeServed (hostDie p) at_ bs (accessRange at_ bs.length s))
      let got := j.got + bs.length
      let s2 := s1.setDma p c { j with tag := none, got := got }
      if got < descLen d then dmaRead p c (descHost d + got) (min dmaPart (descLen d - got)) s2 else s2

/-- A descriptor's writes are visible: CONS advances, its signal and interrupt follow, and the next is fetched. -/
def dmaComplete (p c d : Nat) (s : State) : State :=
  let s1 := (s.setDma p c {}).inc (DMA_CONS_CONS p c) 1
  let g := getBits d 185 5
  let s2 := if getBits d 169 1 = 1 then addFlag g (getBits d 176 9) (getBits d 192 16) (accessSet g s1) else s1
  dmaKick p c (if getBits d 168 1 = 1 then raiseVector p (16 + c) s2 else s2)

def execDmaDescriptorComplete (port : PortId) (c : Fin 16) (s : State) : Res :=
  .next (match (s.dma port c).desc with
    | some d => if (s.dma port c).tag = none ∧ (s.dma port c).got = descLen d then dmaComplete port c d s else s
    | none => s)

/-- Write DMA_PROD: a count the ring cannot hold is discarded. -/
def dmaProdWrite (p c v : Nat) (s : State) : State :=
  if 2 ^ s.get (DMA_CFG_SIZE p c) - 1 < (v + 65536 - s.get (DMA_CONS_CONS p c)) % 65536 then
    event 0xA00D (srcHost p c) s
  else dmaKick p c (s.set (DMA_PROD_PROD p c) v)

def execDmaProd (p : PortId) (port : PortId) (c : Fin 16) (v : BitVec 16) (s : State) : Res :=
  .next (ownerWrite p (aDMA_PROD port c) (dmaProdWrite port c v.toNat) s)

/-- Write DMA_CFG: EN from 0 to 1 restarts the channel; EN 0 stops its fetching. -/
def dmaCfgWrite (p c v wlo whi : Nat) (s : State) : State :=
  let s1 := writeBits (aDMA_CFG p c) v wlo whi s
  if !s.isSet (DMA_CFG_EN p c) ∧ s1.isSet (DMA_CFG_EN p c) then
    (((s1.setDma p c {}).set (DMA_PROD_PROD p c) 0).set (DMA_CONS_CONS p c) 0).set (DMA_STAT_STATE p c) 0
  else s1

def execDmaCfgEn (p : PortId) (port : PortId) (c : Fin 16) (v : BitVec 32) (s : State) : Res :=
  .next (ownerWrite p (aDMA_CFG port c) (dmaCfgWrite port c v.toNat 0 31) s)

/-! ### Reads of host memory (R367, R389, R390, R393) -/

/-- The channel of a port that waits for a tag. -/
def State.dmaOf (s : State) (p tag : Nat) : Option Nat := (List.range 16).find? fun c => (s.dma p c).tag == some tag

/-- A host read fails: the channel stops with an error, or the Flume access is refused. -/
def hostReadFails (p tag err : Nat) (s : State) : State :=
  match s.fab.hostReads.find? fun h => h.port == p && h.tag == tag with
  | some h => failIssued h.q h.uid 0x5001 (event 0x5001 (srcEngine h.q) s)
  | none => match s.dmaOf p tag with
    | some c => dmaStop p c err (s.dma p c).at_ s
    | none => s

/-- A host read's data arrives. -/
def hostReadArrives (p tag : Nat) (bs : List (Byte × Bool)) (s : State) : State :=
  match s.fab.hostReads.find? fun h => h.port == p && h.tag == tag with
  | some h => if h.len ≠ bs.length then s else
      flumePart h.q h.uid h.piece bs (s.setFab { s.fab with hostReads := s.fab.hostReads.filter fun x => !(x.port == p && x.tag == tag) })
  | none => match s.dmaOf p tag with
    | some c => if (s.dma p c).want ≠ bs.length then s else dmaCompletion p c bs s
    | none => s

def execHostReadCompletion (port : PortId) (tag : Nat) (ok : Bool) (data : List (BitVec 8)) (ep : Bool) (s : State) : Res :=
  .next (settleFab (if !ok then hostReadFails port tag 3 s
    else hostReadArrives port tag (data.map fun b => (b, ep)) (if ep then event 0xA00B (srcHost port 0) s else s)))

/-- Whether a host read with that tag is outstanding. -/
def State.reading (s : State) (p tag : Nat) : Bool :=
  s.fab.hostReads.any (fun h => h.port == p && h.tag == tag) || (s.dmaOf p tag).isSome

def execCompletionTimeout (port : PortId) (tag : Nat) (s : State) : Res :=
  .next (settleFab (if s.reading port tag then hostReadFails port tag 3 (event 0xA00A (srcHost port 0) s) else s))

/-! ### BAR4 (R366, R367, R429) -/

/-- BAR4's size, and its segment's. -/
def State.bar4Size (s : State) (p : Nat) : Nat := 2 ^ (36 + (s.port p).bar4)

/-- The local address a BAR4 offset names, if its segment is mapped. -/
def State.bar4Addr (s : State) (p off : Nat) : Option Nat :=
  let seg := s.bar4Size p / 8
  let k := off / seg
  if k < 8 ∧ s.isSet (HST_B4MAP_EN p k) ∧ !(s.port p).b4dead.testBit k then
    some (s.get (HST_B4MAP_BASE p k) * 2 ^ 33 + off % seg) else none

/-- A BAR4 write let through. -/
def bar4Write (p off : Nat) (data : List Byte) (ep : Bool) (s : State) : State :=
  let grey := event 0xA007 (srcHost p 0)
  match s.bar4Addr p off with
  | none => grey s
  | some a =>
      if !rangePopulated a data.length || s.locked a data.length then grey s
      else
        let s1 := accessRange a data.length (if ep then event 0xA00B (srcHost p 0) s else s)
        countUnmirrored a data.length (writeServed (hostDie p) a (data.map fun b => (b, ep)) s1)

/-- A BAR4 read: zeros with no segment or memory there, else the data, with EP where a line is poisoned or cannot be
reached. -/
def bar4Read (p off len : Nat) (s : State) : State :=
  let zeros (s : State) : State := s.emit (.readData p (List.replicate len 0) false)
  let grey := event 0xA007 (srcHost p 0)
  match s.bar4Addr p off with
  | none => zeros (grey s)
  | some a =>
      if !rangePopulated a len then zeros (grey s)
      else
        let s1 := touch a len (accessRange a len s)
        let ep := s1.poisonFrom (hostDie p) a len
        (if ep then event 0xA00C (srcHost p 0) s1 else s1).emit (.readData p (s1.read a len) ep)

def execBar4Access (port : PortId) (off : BitVec 42) (write : Bool) (len : Nat) (data : List (BitVec 8)) (ep : Bool) (s : State) : Res :=
  .next (if write then hostWrite port true 2 off.toNat (bar4Write port off.toNat data ep) s
    else if s.ready then bar4Read port off.toNat len s else s.emit (.readData port (List.replicate len 0) false))

/-- Write HST_B4MAP_s: a BASE not aligned to the segment size is a reserved encoding; a rewritten BASE maps again. -/
def b4mapWrite (p k v wlo whi : Nat) (s : State) : State :=
  let s1 := writeBits (aHST_B4MAP p k) v wlo whi s
  let bad := s1.get (HST_B4MAP_BASE p k) * 2 ^ 33 % (s.bar4Size p / 8) != 0
  let live (s : State) : State := s.setPort p { s.port p with b4dead := putBits (s.port p).b4dead k 1 0 }
  if whi < 33 then s1
  else if bad then eventD 0xA00E (srcHost p 0) (aHST_B4MAP p k) (s1.set (HST_B4MAP_BASE p k) (s.get (HST_B4MAP_BASE p k)))
  else live s1

/-! ### Configuration (R362, R365, R366, R369, R386) -/

/-- A resize disables the segments whose BASE it leaves unaligned. -/
def bar4Resize (p code : Nat) (s : State) : State :=
  let s1 := s.setPort p { s.port p with bar4 := code }
  let dead := (List.range 8).foldl (fun m k =>
    if s1.get (HST_B4MAP_BASE p k) * 2 ^ 33 % (s1.bar4Size p / 8) ≠ 0 then putBits m k 1 1 else m) (s.port p).b4dead
  s1.setPort p { s1.port p with b4dead := dead }

/-- Bus Master Enable: cleared under a running channel it stops it; set, channels fetch. -/
def busMaster (p : Nat) (en : Bool) (s : State) : State :=
  let s1 := s.set (HST_STAT_BME p) en.toNat
  if en then dmaKickAll p s1
  else forAll (List.range 16) (fun c s =>
    if s.get (DMA_STAT_STATE p c) = 1 then dmaStop p c 3 (s.dma p c).at_ s else s) s1

def configWrite (p : Nat) (w : ConfigWrite) (s : State) : State :=
  match w with
  | .busMaster en => busMaster p en s
  | .powerState d3 => if d3 then s.set (HST_STAT_DSTATE p) 3 else dmaKickAll p (flushVectors p (s.set (HST_STAT_DSTATE p) 0))
  | .msix en mask => flushVectors p (s.setPort p { s.port p with msixEn := en, msixMask := mask })
  | .bar4Size code => if (s.port p).memSpace then s else bar4Resize p code s
  | .memorySpace en => s.setPort p { s.port p with memSpace := en }
  | .relaxedOrdering en => s.setPort p { s.port p with relaxed := en }

def execConfigurationRequest (port : PortId) (w : ConfigWrite) (s : State) : Res :=
  .next (if (s.port port).perst then s else configWrite port w s)

/-! ### Port resets (R391) -/

/-- Reset one port's configuration: configuration space, MSI-X table and PBA, B4MAP, HST_CFG and the flag watches. -/
def portConfigReset (p : Nat) (s : State) : State :=
  let s1 := s.setPort p { perst := (s.port p).perst }
  let s2 := ((s1.set (HST_STAT_BME p) 0).set (HST_STAT_DSTATE p) 0).wr (aHST_CFG p) (regReset (aHST_CFG p))
  ((s2.resetRegs (aHST_B4MAP p 0) 0x40).resetRegs (aHST_FWATCH p 0) (8 * 1984)).resetRegs (aMSIX_ADDR p 0) 0x8100

/-- The posts of a port are dropped; messages already sent go on without an originator. -/
def dropPosts (p : Nat) (s : State) : State :=
  let s1 := s.setPort p { s.port p with posts := [] }
  let mine (m : Send) : Bool := match m.origin with
    | .hostPost q _ => q == p
    | _ => false
  let s2 := s1.setFab { s1.fab with sends := s1.fab.sends.map fun m => if mine m then { m with origin := .none } else m }
  forAll (List.range 8) (fun k s => s.set (MBX_STGSTAT_PENDING p k) 0) s2

/-- Stop one channel for a reset; with no access under way its error address is a free value. -/
def dmaResetStop (p c : Nat) (s : State) : State :=
  if (s.dma p c).tag.isSome || (s.dma p c).desc.isSome then dmaStop p c 4 (s.dma p c).at_ s
  else dmaStop p c 4 (s.fresh 64).toNat s.tick

/-- A port reset; `code` is its event. -/
def portReset (p code : Nat) (s : State) : State :=
  let s1 := if s.owns p then changeOwner 0 s else s
  let s2 := portConfigReset p (dropPosts p ((releaseFreeze p s1).wr (aHST_VIOLREC p) 0))
  let s3 := forAll (List.range 16) (fun c s => dmaResetStop p c s) s2
  let s4 := forAll (s3.fab.hostReads.filter (·.port == p)) (fun h s => failIssued h.q h.uid 0x5001 (event 0x5001 (srcEngine h.q) s)) s3
  let s5 := (clearMailboxes (16 * p) (srcHost p 0) s4).inc (HST_ROLEGEN_RGEN p) 1
  settleFab (raiseVector (1 - p) 35 (event code (srcHost p 0) s5))

def execPerst (port : PortId) (s : State) : Res :=
  .next (if (s.port port).perst then s
    else portReset port 0xA005 ((s.setPort port { s.port port with perst := true }).set (HST_STAT_LINKUP port) 0))
def execFunctionLevelReset (port : PortId) (s : State) : Res :=
  .next (if (s.port port).perst then s else portReset port 0xA005 s)
def execSurpriseRemoval (port : PortId) (s : State) : Res :=
  .next (if s.isSet (HST_STAT_LINKUP port) then portReset port 0xA004 (s.set (HST_STAT_LINKUP port) 0) else s)

/-- PERST deasserts: the port trains and answers configuration, ready or not (R363). -/
def execPerstDeassertion (port : PortId) (s : State) : Res := .next (s.setPort port { s.port port with perst := false })
def execHostPortLinkUp (port : PortId) (s : State) : Res :=
  .next (if (s.port port).perst then s else dmaKickAll port (s.set (HST_STAT_LINKUP port) 1))

/-! ### Registers that clear when read (R8, R151, R394, R420) -/

/-- Read a register and clear its RCL field, once the device serves that block. -/
def readClear (p a : Nat) (f : FRef) (s : State) : State := (readReply p (s.rd a) s).set f 0

def execQuePostrecRead (p : PortId) (q : QId) (s : State) : Res :=
  .next (if s.ready then readClear p (aQUE_POSTREC q) (QUE_POSTREC_ABORTCNT q) (wakeByAccess (aQUE_POSTREC q) s) else readReply p 0 s)
def execHstPostrecRead (p : PortId) (port : PortId) (s : State) : Res :=
  .next (readClear p (aHST_POSTREC port) (HST_POSTREC_ABORTCNT port) s)
def execMgtRepdropRead (p : PortId) (s : State) : Res :=
  .next (if s.ready then (readReply p (s.rd aMGT_REPDROP) s).wr aMGT_REPDROP 0 else readReply p 0 s)

end Sys2Proof.Machine
end

