-- ==== Sys2Proof/Machine/Bolter.lean ====
section
/-! DEFINITION. The Elvob image and the Bolter's checks of it (R153 to R165; log entry 30). -/

namespace Sys2Proof.Machine

/-- A rejection: the reject code and where it lies (R161).  `open_` marks a failure whose place the spec does not
give. -/
structure Rej where
  code : Nat
  queue : Nat
  index : Nat
  detail : Nat := 0
  open_ : Bool := false
  deriving DecidableEq, Repr

/-! ### The image (R153, R154) -/

/-- An image of `len` bytes at local address `base`, its lines having been read by a loader on die `die`. -/
structure Image where
  s : State
  base : Nat
  len : Nat
  die : Nat

def Image.nat (m : Image) (off n : Nat) : Nat := m.s.readNat (m.base + off) n
/-- Whether a line of a range reads poisoned or uncorrectable. -/
def Image.bad (m : Image) (off n : Nat) : Bool := m.s.poisonFrom m.die (m.base + off) n

def Image.total (m : Image) : Nat := m.nat 8 4
def Image.carries (m : Image) (q : Nat) : Bool := (m.nat 7 1).testBit q
def Image.qoff (m : Image) (q : Nat) : Nat := m.nat (32 + 8 * q) 4
def Image.qlen (m : Image) (q : Nat) : Nat := getBits (m.nat (36 + 8 * q) 4) 0 14
def Image.eoff (m : Image) : Nat := m.nat 72 4
def Image.slots (m : Image) : List Nat := (List.range 16).filter fun k => (m.nat 76 2).testBit k
def Image.moff (m : Image) : Nat := m.nat 80 4
def Image.mcount (m : Image) : Nat := m.nat 84 2

/-- Command `i` of queue section `q`. -/
def Image.command (m : Image) (q i : Nat) : CmdBits := BitVec.ofNat 256 (m.nat (m.qoff q + 32 * i) 32)
/-- The program of queue `q`. -/
def Image.commands (m : Image) (q : Nat) : List CmdBits := if m.carries q then (List.range (m.qlen q)).map (m.command q) else []
/-- The manifest entries. -/
def Image.entries (m : Image) : List Nat := (List.range m.mcount).map fun e => m.nat (m.moff + 32 * e) 32
/-- Where the element section keeps slot number `k` of those present. -/
def Image.slotAt (m : Image) (k : Nat) : Nat := m.eoff + 128 * k
/-- The 32 micro-operations of a slot; a slot not present holds END throughout. -/
def Image.slotWords (m : Image) (slot : Nat) : List Nat :=
  match m.slots.findIdx? (· == slot) with
  | some k => (List.range 32).map fun u => m.nat (m.slotAt k + 4 * u) 4
  | none => List.replicate 32 0

/-- The bits of `v` outside its named fields. -/
def spareBits (v : Nat) (named : List (Nat × Nat)) : Nat := named.foldl (fun v f => putBits v f.1 f.2 0) v
/-- The lowest set bit. -/
def lowBit (v : Nat) : Nat := Nat.log2 (v ^^^ (v - 1))

/-- The header's named fields. -/
def headerFields : List (Nat × Nat) :=
  [(0, 96), (128, 64), (256, 46), (320, 46), (384, 46), (448, 46), (512, 46), (576, 48), (640, 48)]

/-- The sections: header offset of the field, whether its length is out of range, section offset and bytes. -/
def Image.sections (m : Image) : List (Nat × Bool × Nat × Nat) :=
  (List.range 5).map (fun q => (32 + 8 * q, if m.carries q then m.qlen q == 0 || decide (8192 < m.qlen q) else m.qlen q != 0,
    m.qoff q, if m.carries q then 32 * m.qlen q else 0)) ++
  [(72, m.slots == [] && m.eoff != 0, m.eoff, 128 * m.slots.length), (80, decide (1024 < m.mcount), m.moff, 32 * m.mcount)]

/-- Whether a section lies wrong: off its boundary, in the header, beyond TOTAL, or over an earlier one. -/
def sectionBad (total : Nat) (earlier : List (Nat × Bool × Nat × Nat)) (x : Nat × Bool × Nat × Nat) : Bool :=
  x.2.1 || (x.2.2.2 != 0 && (x.2.2.1 % 32 != 0 || decide (x.2.2.1 < 128) || decide (total < x.2.2.1 + x.2.2.2)
    || earlier.any fun y => y.2.2.2 != 0 && decide (x.2.2.1 < y.2.2.1 + y.2.2.2) && decide (y.2.2.1 < x.2.2.1 + x.2.2.2)))

/-- The first poisoned line that holds none of the items checked later: the header, and what lies between sections. -/
def Image.poisonedGap (m : Image) : Option Nat :=
  let inSec (o : Nat) : Bool := m.sections.any fun x => x.2.2.2 != 0 && decide (x.2.2.1 ≤ o) && decide (o < x.2.2.1 + x.2.2.2)
  ((List.range (m.total / 32)).map (32 * ·)).find? fun o => m.bad o 32 && (decide (o < 128) || !inSec o)

/-- The header and sections (codes 0x4001 to 0x4003, and 0x401B). -/
def Image.checkHeader (m : Image) (kind : Nat) : Option Rej :=
  let sp := spareBits (m.nat 0 128) headerFields
  let secs := m.sections
  let tests : List (Bool × Nat × Nat) :=
    [(m.nat 0 4 != 0x42564C45, 0x4001, 0), (m.nat 4 2 != 1, 0x4001, 4), (decide (1 < m.nat 6 1), 0x4001, 6),
     (decide (32 ≤ m.nat 7 1), 0x4001, 7),
     (m.total % 32 != 0 || decide (m.total < 128) || decide (m.len < m.total), 0x4001, 8), (sp != 0, 0x4001, lowBit sp / 8),
     (m.nat 6 1 != kind, 0x4002, 6), (kind == 1 && (m.eoff != 0 || m.slots != []), 0x4002, 72)] ++
    (secs.zipIdx).map fun x => (sectionBad m.total (secs.take x.2) x.1, 0x4003, x.1.1)
  match tests.find? (·.1) with
  | some (_, code, at_) => some { code := code, queue := 7, index := at_ }
  | none => (m.poisonedGap).map fun o => { code := 0x401B, queue := 7, index := o }

/-! ### The manifest (R155, R156) -/

def entType (r : Nat) : Nat := getBits r 0 8
def entFields (r : Nat) : List (Nat × Nat) :=
  let t := entType r
  if t = 1 then [(0, 10), (64, 128)]
  else if t = 2 then [(0, 9), (16, 48)]
  else if t = 3 then [(0, 25), (32, 16), (64, 112)]
  else if t = 4 then [(0, 64)]
  else if t = 5 then [(0, 16), (32, 64)]
  else [(0, 9), (32, 64), (128, 64)]

/-- Whether an entry breaks R155 by itself or beside those before it (code 0x4004). -/
def entBad (kind : Nat) (earlier : List Nat) (r : Nat) : Bool :=
  let t := entType r
  let g := getBits r
  let same (p : Nat → Bool) : Bool := earlier.any fun e => entType e == t && p e
  t == 0 || decide (6 < t) || (t == 6 && kind == 1) || spareBits r (entFields r) != 0 ||
  (if t = 1 then g 112 16 != 0 || g 176 16 != 0 || decide (g 128 64 < g 64 64)
   else if t = 2 then g 16 16 == 0 || decide (511 < g 16 16) || same fun e => getBits e 16 16 == g 16 16
   else if t = 3 then decide (4 < g 8 8) || g 16 8 == 0 || decide (15 < g 16 8) || same fun e => getBits e 8 16 == g 8 16
   else if t = 4 then
     decide (1 < g 8 8) || decide (1 < g 16 8) || (g 24 8 != fFP32 && g 24 8 != fINT32) || g 48 16 == 0 || decide (2048 < g 32 16 + g 48 16)
       || same fun e => getBits e 8 16 == g 8 16 && getBits e 24 8 != g 24 8 && decide (g 32 16 < getBits e 32 16 + getBits e 48 16)
           && decide (getBits e 32 16 < g 32 16 + g 48 16)
   else if t = 5 then decide (4 < g 8 8) || (g 64 32 != 0xFFFFFFFF && decide (2 ^ 24 ≤ g 64 32)) || same fun e => getBits e 8 8 == g 8 8
   else g 128 64 % 32 != 0)

/-- The first address of a range that `reach` does not carry on from; `reach a` is an end beyond `a`. -/
def firstGap (reach : Nat → Option Nat) : Nat → Nat → Nat → Option Nat
  | 0, a, _ => some a
  | k + 1, a, e =>
      if e ≤ a then none
      else match reach a with
        | none => some a
        | some x => firstGap reach k x e

/-- The farthest end among some ranges (first byte, end) that hold `a`. -/
def farthest (ranges : List (Nat × Nat)) (a : Nat) : Option Nat :=
  ranges.foldl (fun b r => if r.1 ≤ a ∧ a < r.2 then some (max (b.getD 0) r.2) else b) none

/-- The grant windows of a tile that permit at least an access. -/
def State.grantWindows (s : State) (t : Nat) (r w : Bool) : List (Nat × Nat) :=
  ((List.range 8).filter fun k => (!r || s.isSet (TIL_GRANTBASE_R t k)) && (!w || s.isSet (TIL_GRANTBASE_W t k))).map fun k =>
    (s.get (TIL_GRANTBASE_BASE t k) * 4096, (s.get (TIL_GRANTLIM_LIMIT t k) + 1) * 4096)

/-- Whether a WINDOW leaves the grants, or DATA its scratchpad or the image (code 0x4005). -/
def entOut (s : State) (t total r : Nat) : Bool :=
  let g := getBits r
  if entType r = 1 ∧ t < 24 ∧ g 8 2 ≠ 0 then
    (firstGap (farthest (s.grantWindows t (g 8 1 == 1) (g 9 1 == 1))) 16 (g 64 64) (g 128 64 + 1)).isSome
  else if entType r = 6 then decide (total < g 32 32 + g 64 32) || decide (padSize < g 128 64 + g 64 32)
  else false

/-- The manifest entries, in entry order. -/
def Image.checkManifest (m : Image) (g : Nat) : Option Rej :=
  let es := m.entries
  (es.zipIdx).findSome? fun x =>
    let at_ (code : Nat) : Option Rej := some { code := code, queue := 6, index := x.2 }
    if entBad (if g < 24 then 0 else 1) (es.take x.2) x.1 then at_ 0x4004
    else if entOut m.s g m.total x.1 then at_ 0x4005
    else if m.bad (m.moff + 32 * x.2) 32 then at_ 0x401B
    else none

/-! ### Element programs (R94 to R99) -/

/-- The fields a micro-operation uses, of A, B, C and D, and the bits of MOD; none for a reserved OP. -/
def uopUses (op : Nat) : Option (Bool × Bool × Bool × Bool × Nat) :=
  if op = 1 ∨ op = 2 ∨ op = 3 ∨ op = 6 ∨ op = 7 then some (true, true, false, true, 0)
  else if op = 4 ∨ op = 5 then some (true, true, true, true, 0)
  else if op = 8 ∨ op = 9 ∨ op = 0xA ∨ (0x10 ≤ op ∧ op ≤ 0x17) then some (true, false, false, true, 0)
  else if op = 0xB then some (true, true, true, true, 3)
  else if op = 0x20 then some (true, true, false, true, 2)
  else if op = 0x21 ∨ op = 0x22 then some (false, false, false, true, 2)
  else if op = 0x30 then some (true, false, false, false, 4)
  else none

/-- Whether a micro-operation is malformed by itself. -/
def uopBad (u : Nat) : Bool :=
  match uopUses (uOp u) with
  | none => true
  | some (a, b, c, d, n) =>
      (!a && uA u != 0) || (!b && uB u != 0) || (!c && uC u != 0) || (if d then decide (17 < uD u) else uD u != 0)
        || decide (2 ^ n ≤ uMod u) || ((uOp u == 0xB || uOp u == 0x30) && decide (5 < uMod u % 8))

/-- The temporaries a micro-operation reads. -/
def uopReads (u : Nat) : List Nat :=
  match uopUses (uOp u) with
  | none => []
  | some (a, b, c, _, _) => ((if a then [uA u] else []) ++ (if b then [uB u] else []) ++ (if c then [uC u] else [])).filter (· < 16)

def isDraw (u : Nat) : Bool := uOp u == 0x20 || uOp u == 0x21 || uOp u == 0x22

/-- Whether a micro-operation breaks R96's structure or R99 after those before it. -/
def uopClash (before : List Nat) (u : Nat) : Bool :=
  let writes (d : Nat) : Bool := before.any fun x => uOp x != 0x30 && uD x == d
  (uopReads u).any (fun t => !writes t) || (uOp u != 0x30 && (uD u == 16 || uD u == 17) && writes (uD u))
    || (uOp u == 0x30 && before.any (uOp · == 0x30)) || (isDraw u && before.any fun x => isDraw x && uMod x % 4 == uMod u % 4)

/-- Where a slot's 32 words fail, if they do. -/
def slotFails (ws : List Nat) : Option Nat :=
  let prog := ws.takeWhile fun u => uOp u != 0
  match (prog.zipIdx).find? fun x => uopBad x.1 || uopClash (prog.take x.2) x.1 with
  | some x => some x.2
  | none =>
      let out := prog.any fun u => uOp u == 0x30 || uD u == 16 || uD u == 17
      if !out || ws.getD prog.length 0 != 0 then some (min prog.length 31) else none

/-- The element program slots, in ascending order. -/
def Image.checkSlots (m : Image) : Option Rej :=
  ((m.slots).zipIdx).findSome? fun x =>
    match slotFails (m.slotWords x.1) with
    | some u => some { code := 0x4011, queue := 5, index := 32 * x.1 + u }
    | none => if m.bad (m.slotAt x.2) 128 then
        ((List.range 32).find? fun u => m.bad (m.slotAt x.2 + 4 * u) 4).map fun u => { code := 0x401B, queue := 5, index := 32 * x.1 + u }
      else none

/-! ### Evident operands (R162, R163) -/

/-- A failed check: reject code and detail. -/
abbrev Fail := Nat × Nat

def failIf (b : Bool) (code : Nat) (detail : Nat := 0) : List Fail := if b then [(code, detail)] else []

/-- A command under check: its image and set, its queue's number there, and how often each base register has been
stepped before it in pass 0. -/
structure BCmd where
  m : Image
  g : Nat
  q : Nat
  adds : List Nat
  w : CmdBits

def BCmd.get (c : BCmd) (lo n : Nat) : Nat := cmdGet c.w lo n
def BCmd.tile (c : BCmd) : Bool := decide (c.g < 24)
def BCmd.ents (c : BCmd) (t : Nat) : List Nat := c.m.entries.filter fun e => entType e == t

/-- The local addresses base register `n` takes; none where it is not evident. -/
def BCmd.regValues (c : BCmd) (n : Nat) : List Nat :=
  if n = 0 then [if c.tile then padBase c.g else 0]
  else match (c.ents 3).find? fun e => getBits e 8 8 == c.q && getBits e 16 8 == n && getBits e 24 1 == 1 with
    | none => []
    | some e =>
        let mod := getBits e 32 16
        (if mod = 0 then [c.adds.getD n 0] else List.range mod).filterMap fun (k : Nat) =>
          let v := (getBits e 64 48 : Int) + (k : Int) * signed48 (getBits e 128 48)
          if 0 ≤ v ∧ v < 2 ^ 48 then some v.toNat else none

/-- The local addresses of a register and a byte offset. -/
def BCmd.addrs (c : BCmd) (reg off : Nat) : List Nat := (c.regValues reg).filterMap fun v => if v + off < 2 ^ 48 then some (v + off) else none
/-- The local addresses of the operand at bit `lo`: an offset of 20 bits in units, then a register. -/
def BCmd.operand (c : BCmd) (lo unit : Nat) : List Nat := c.addrs (c.get (lo + 20) 4) (c.get lo 20 * unit)

/-- The end of the populated region that holds an address. -/
def regionEnd (a : Nat) : Option Nat :=
  match regionOf a with
  | some .tier1 => some 0x020000000000
  | some .tier2 => some tier2End
  | some (.pad t) => some (padBase t + padSize)
  | none => none

/-- How far an access may run on from an address: to the end of the own scratchpad, of a WINDOW of that access, or,
from a privileged queue, of the populated region; `own` restricts it to the own scratchpad. -/
def BCmd.reach (c : BCmd) (own wr : Bool) (a : Nat) : Option Nat :=
  match regionEnd a with
  | none => none
  | some e =>
      if c.tile ∧ padBase c.g ≤ a ∧ a < padBase c.g + padSize then some e
      else if own then none
      else if !c.tile then some e
      else (farthest (((c.ents 1).filter fun r => getBits r (if wr then 9 else 8) 1 == 1).map fun r => (getBits r 64 64, getBits r 128 64 + 1)) a).map (min e)

/-- The read-only DATA entries: where each lies in the scratchpad, its bytes in the image, and its length. -/
def BCmd.roEntries (c : BCmd) : List (Nat × Nat × Nat) :=
  ((c.ents 6).filter fun e => getBits e 8 1 == 1).map fun e => (padBase c.g + getBits e 128 64, getBits e 32 32, getBits e 64 32)

/-- The contents of a block that lies wholly inside a read-only DATA entry. -/
def BCmd.evident (c : BCmd) (a n : Nat) : Option Nat :=
  (c.roEntries.reverse.find? fun e => decide (e.1 ≤ a) && decide (a + n ≤ e.1 + e.2.2)).map fun e => c.m.nat (e.2.1 + (a - e.1)) n

/-- The check of an evident range (codes 0x400D and 0x401C). -/
def BCmd.range (c : BCmd) (own : Bool) (a n : Nat) (wr : Bool) : List Fail :=
  if n = 0 then [] else
  (match firstGap (c.reach own wr) 2048 a (a + n) with
   | some x => [(0x400D, x % 2 ^ 48)]
   | none => []) ++
  failIf (wr && c.roEntries.any fun e => decide (a < e.1 + e.2.2) && decide (e.1 < a + n)) 0x401C

def BCmd.ranges (c : BCmd) (own : Bool) (l : List (Nat × Nat)) (wr : Bool) : List Fail := l.flatMap fun x => c.range own x.1 x.2 wr

/-- The longest a command may take (R164). -/
def BCmd.limit (c : BCmd) : Nat := c.m.s.get (TIL_LDLIM_CMDLIM c.g) * 1024

/-! ### What every command must meet (R116, R117, R120, R121, R123) -/

def knownOpcodes : List Nat :=
  [0, 1, 2, 3, 4, 5, 6, 7, 0x10, 0x11, 0x12, 0x40, 0x41, 0x70, 0x71, 0x72, 0x73, 0x90, 0x91, 0x92, 0x93, 0x94, 0x95, 0x96]

/-- Whether queue `q` of a tile or of the device set accepts an opcode. -/
def queueAccepts (tile : Bool) (q op : Nat) : Bool :=
  if op < 0x10 then !(tile && op == 7)
  else if tile then (if q < 2 then op / 16 == 1 else if q = 2 then op / 16 == 4 else op / 16 == 7)
  else decide (q < 4) && op / 16 == 9

/-- The named bits above the header. -/
def commandFields (op src : Nat) : List (Nat × Nat) :=
  if op = 1 then [(64, 120), (192, 24)]
  else if op = 2 ∨ op = 7 then [(64, 16)]
  else if op = 3 then (64, 12) :: (if src = 0 then [(128, 1)] else if src = 1 then [(128, 25)] else if src = 2 then [(128, 64)]
    else if src = 3 then [(128, 30)] else if src = 4 then [(128, 6)] else [(128, 64)])
  else if op = 4 then [(64, 5)]
  else if op = 5 then [(64, 122)]
  else if op / 16 = 1 then [(64, 56), (128, 60), (192, 50)]
  else if op = 0x40 then [(64, 4), (80, 72), (160, 24)]
  else if op = 0x41 then [(64, 2), (128, 48)]
  else if op = 0x70 then [(64, 186)]
  else if op = 0x71 then [(64, 76)]
  else if op = 0x72 then [(64, 5), (72, 24)]
  else if op = 0x73 then [(64, 14)]
  else if op / 16 = 9 then [(64, 30), (96, 134)]
  else []

def BCmd.header (c : BCmd) : List Fail :=
  failIf (spareBits c.w.toNat ((0, 64) :: commandFields (opcode c.w) (c.get 73 3)) != 0) 0x4008 ++
  failIf ((c.get 14 1 == 1 && (c.get 8 6 != 0 || c.get 15 1 != 0)) || (c.get 16 9 == 0 && c.get 25 16 != 0)
    || (c.get 50 8 == 0) != (c.get 41 9 == 0) || (c.get 58 6 != 0 && !(c.tile && decide (c.q < 2)))) 0x4009

/-! ### Queue control (R132 to R144) -/

def BCmd.control (c : BCmd) : List Fail :=
  let op := opcode c.w
  let src := c.get 73 3
  if op = 1 then failIf (c.tile && c.get 192 24 != 0) 0x4014
  else if op = 2 then failIf (c.get 64 1 == 1) 0x4014
  else if op = 3 then
    failIf (decide (4 < src) || (src == 2 && !c.tile && (c.q == 4 || c.get 144 48 != 0))) 0x4014 ++
    (if src = 3 then (c.operand 128 8).flatMap fun a => c.range c.tile (a / 8 * 8) 8 false else [])
  else if op = 4 then failIf (!(c.get 64 5).testBit c.q) 0x4014
  else if op = 5 then failIf ((c.get 176 1 == 0) != (c.get 177 9 == 0) || decide (47 < c.get 168 8) || c.get 152 16 == 0xFFFF) 0x4014
  else if op = 7 then failIf (c.get 64 16 == 0 || decide (6 < c.get 64 16)) 0x4016
  else []

/-! ### Matrix commands (R42, R64 to R69, R81) -/

/-- Whether a pair of formats belongs to one row of R42's table. -/
def pairLegal (w x : Nat) : Bool :=
  (w == x && (w == fBF16 || w == fFP16 || w == fINT8 || w == fBE2M1 || w == fFP32))
    || ((w == fE4M3 || w == fE5M2) && (x == fE4M3 || x == fE5M2)) || ((w == fBE4M3 || w == fBE5M2) && (x == fBE4M3 || x == fBE5M2))

/-- When each bank row is to be read and written by a command issued at `t0`, met by the landings of the command
before it: its own landings by `bank * 2048 + row`, when it ends, and whether the spacing of R81 is broken. -/
def mxSpacing (c : MxCmd) (wd : Nat → Nat) (mask t0 : Nat) (before : Tab Nat) : Tab Nat × Nat × Bool :=
  let rows := fedRows mask c.rows
  if rows = [] then ([], t0, false) else
  (List.range c.reps).foldl (fun acc n =>
    let p := mxRep 0 c 0 0 wd n
    (List.range c.passes).foldl (fun (acc : Tab Nat × Nat × Bool) pass =>
      let load := if c.loadw ∧ pass ≠ 1 then 128 else 0
      let fill := if pass = 0 ∧ c.op = 0x12 ∧ !c.loadw then 128 else 0
      let start := acc.2.1 + load + fill
      let lat := if p.epilogue && (c.csc || c.epi != 0) then 280 else 264
      let r := (rows.zipIdx).foldl (fun (a : Tab Nat × Bool) x =>
        if c.masken && rowMasked mask x.1 then a else
        let key := p.bank * 2048 + c.row0 + x.1
        let met := max (tabGet (fun _ => 0) before key) (tabGet (fun _ => 0) a.1 key)
        (tabPut (fun _ => 0) a.1 key (start + x.2 + lat), a.2 || decide (start + x.2 + 256 < met))) (acc.1, acc.2.2)
      (r.1, start + rows.length, r.2)) acc) ([], t0, false)

/-- ACLK cycles the command length check counts: no ramp-up, and one Fantail fill. -/
def mxDuration (c : MxCmd) (mask : Nat) : Nat :=
  let rows := (fedRows mask c.rows).length
  let loads := if c.loadw then (if c.passes = 3 then 2 else 1) else 0
  let fill := if (c.op = 0x11 ∧ c.loadw) ∨ (c.op = 0x12 ∧ !c.loadw) then 128 else 0
  if rows = 0 then 0 else c.reps * (128 * loads + rows * c.passes) + fill

/-- What a queue's earlier commands leave for the next: BASEADDs so far, the mode of the last matrix command,
whether the next must load, and the last one's landings and end where its descriptor is evident. -/
structure Walk where
  adds : List Nat := List.replicate 16 0
  mode : Option Nat := none
  mustLoad : Bool := true
  last : Option (Tab Nat × Nat) := some ([], 0)

/-- The auxiliary descriptor's unused fields (R65).  Those of the scale arrays are used where a format is block-scaled; the
strides of a stationary operand that is not loaded are R68's, not these. -/
def mxUnused (c : MxCmd) (wd : Nat → Nat) : Bool :=
  let blk := fmtIsBlock c.wfmt || fmtIsBlock c.xfmt
  let z (used : Bool) (k lo n : Nat) : Bool := !used && getBits (wd k) lo n != 0
  let rep (d : Nat) : Bool := c.rep.getD d 1 != 1
  z (blk && c.loadw) 0 0 32 || z blk 1 0 32 || z c.hen 2 0 32 || z c.hen 3 20 4 || z c.csc 3 0 20 || z false 3 24 8 || z c.masken 4 0 20
    || z c.loadw 4 20 12
    || z false 5 16 16 || z false 7 0 32 || ((List.range 12).any fun k => z false (20 + k) 0 32)
    || (List.range 3).any fun d =>
        let k := 8 + 4 * d
        z (rep d) k 0 32 || z (rep d && c.hen) (k + 1) 0 16 || z (rep d && c.csc) (k + 1) 16 16 || z (rep d && blk) (k + 2) 0 32
          || z (rep d) (k + 3) 0 1 || z false (k + 3) 1 31

/-- The row-group mask that a descriptor names, where the image shows it; else it masks nothing (R164). -/
def BCmd.matrixMask (c : BCmd) (x : MxCmd) (raw : Nat) : Nat :=
  if x.masken then (c.evident (padBase c.g + getBits (getBits raw 128 32) 0 20 * 32) 16).getD 0 else 0

/-- The checks of the operands an evident auxiliary descriptor `raw` places.  A stride of W or of its scales with LOADW = 0, which
R68 rejects and for which R161 names no code, is 0x400C (DESIGN CHOICE, log entry 57). -/
def BCmd.matrixAux (c : BCmd) (x : MxCmd) (raw : Nat) : List Fail :=
  let wd (k : Nat) : Nat := getBits raw (32 * k) 32
  let mask := c.matrixMask x raw
  let fed := fedTiles mask x.rows != []
  let hfmt := getBits (wd 3) 20 4
  let reps (w s : Nat) : List MxRep := (List.range x.reps).map fun n => mxRep c.g x w s wd n
  let rng (wr : Bool) (l : List (Nat × Nat)) : List Fail := c.ranges true l wr
  failIf (mxUnused x wd) 0x4008 ++
  failIf (x.hen && !(hfmt == fFP32 || hfmt == fBF16 || hfmt == fFP16 || hfmt == fE4M3 || hfmt == fE5M2)) 0x400B ++
  failIf (!x.loadw && (List.range 3).any fun d => getBits (wd (8 + 4 * d)) 0 16 != 0 || getBits (wd (10 + 4 * d)) 0 16 != 0) 0x400C ++
  (if x.masken then c.range true (padBase c.g + getBits (wd 4) 0 20 * 32) 16 false else []) ++
  (if !fed then [] else
    (if x.loadw then (c.operand 128 32).flatMap fun w => (reps w 0).flatMap fun p =>
        rng false (p.wRows x).ranges ++ failIf (!(p.wRows x).aligned x.wfmt) 0x400E else []) ++
    ((c.operand 152 32).flatMap fun s => (reps 0 s).flatMap fun p =>
        rng false (p.xRanges x mask) ++ failIf (!(p.xRows x).aligned x.xfmt) 0x400E) ++
    (reps 0 0).flatMap fun p =>
      (if modeBlocks x.mode then (if x.loadw then rng false (p.wscRows x).ranges else []) ++ rng false (p.xscRanges x mask) else []) ++
      (if x.hen && p.epilogue then rng (x.op == 0x10) (p.hRows x).ranges else []) ++
      (if x.csc && p.epilogue then c.range true p.cs 512 false else []))

/-- The checks that hold without the auxiliary descriptor: those of the first row of W, whose pitch it gives, and of the first
repetition's X. -/
def BCmd.matrixFirst (c : BCmd) (x : MxCmd) : List Fail :=
  let one (r : Rows) (fmt : Nat) : List Fail := c.range true r.a r.len false ++ failIf (!r.aligned fmt) 0x400E
  let rep (w s : Nat) : MxRep := mxRep c.g { x with rep := [1, 1, 1] } w s (fun _ => 0) 0
  (if x.loadw then (c.operand 128 32).flatMap fun w => one { (rep w 0).wRows x with n := 1 } x.wfmt else []) ++
  (c.operand 152 32).flatMap fun s =>
    c.ranges true ((rep 0 s).xRanges x 0) false ++ failIf (!((rep 0 s).xRows x).aligned x.xfmt) 0x400E

/-- Whether every bank row a command writes lies in a BANK entry of its format. -/
def BCmd.bankRows (c : BCmd) (engine bank fmt row n : Nat) : Bool :=
  let es := (c.ents 4).filter fun e => getBits e 8 8 == engine && getBits e 16 8 == bank && getBits e 24 8 == fmt
  (firstGap (farthest (es.map fun e => (getBits e 32 16, getBits e 32 16 + getBits e 48 16))) 2049 row (row + n)).isNone

/-- A matrix command's checks, and what it leaves.  Where AUX takes several addresses each descriptor that the image shows is
checked, and the command counts as its longest; the spacing to the command before is checked where each takes one. -/
def BCmd.matrix (c : BCmd) (k : Walk) : List Fail × Walk :=
  let x := MxCmd.ofWord c.w
  let int := x.mode = 3
  let want := if int ∧ !x.csc then fINT32 else fFP32
  let auxs := c.operand 192 32
  let raws := auxs.filterMap fun a => c.evident a 128
  let hidden := decide (raws.length < auxs.length) || auxs == []
  let word (raw i : Nat) : Nat := getBits raw (32 * i) 32
  if !pairLegal x.wfmt x.xfmt then
    ((0x400A, 0) :: failIf (raws.any fun raw => mxUnused x (word raw)) 0x4008, { k with mustLoad := false, last := none })
  else
    let alone := match auxs, raws with
      | [_], [raw] => some raw
      | _, _ => none
    let spaced (raw : Nat) : Tab Nat × Nat × Bool := match alone, k.last with
      | some _, some (land, t) => mxSpacing x (word raw) (c.matrixMask x raw) (t + 16 * c.get 58 6) land
      | _, _ => mxSpacing x (word raw) (c.matrixMask x raw) 0 []
    let banks := ((if hidden then [x.bank] else []) ++ raws.flatMap fun raw => (List.range x.reps).map fun n => (mxRep c.g x 0 0 (word raw) n).bank).eraseDups
    let times := (if hidden then [mxDuration x 0] else []) ++ raws.map fun raw => mxDuration x (c.matrixMask x raw)
    let fails :=
      failIf (!cvtLegal (c.get 64 16) 64 || x.cvt.fmt != want) 0x400A ++
      failIf ((int && x.epi != 0) || (if x.op = 0x10 then decide (7 < x.epi) else if x.op = 0x11 then x.epi != 0 && decide (x.epi < 9) else x.epi != 0)
        || (x.op == 0x12 && x.hen) || (x.op == 0x11 && !x.hen && decide (9 ≤ x.epi)) || (x.masken && x.op != 0x12)
        || decide (2048 < x.row0 + x.rows) || x.xpitch == 0 || auxs.any (· % 128 != 0)) 0x400B ++
      failIf (!x.loadw && (k.mustLoad || x.mode == 5 || k.mode != some x.mode)) 0x400C ++
      auxs.flatMap (fun a => c.range true a 128 false) ++
      raws.flatMap (c.matrixAux x) ++
      (if hidden then c.matrixFirst x else []) ++
      failIf (!banks.all fun b => c.bankRows c.q b want x.row0 x.rows) 0x400F ++
      failIf (raws.any fun raw => (spaced raw).2.2) 0x4010 ++
      failIf (times.any fun t => decide (c.limit < (t + 1) / 2)) 0x4013
    (fails, { k with mode := some x.mode, mustLoad := false, last := alone.map fun raw => ((spaced raw).1, (spaced raw).2.1) })

/-! ### Element commands (R90 to R114) -/

/-- A stream entry's reserved and unused fields, by its words. -/
def streamUnused (x : EStream) (out : Bool) (rep : List Nat) (w : Nat → Nat) : Bool :=
  let z (used : Bool) (k lo n : Nat) : Bool := !used && getBits (w k) lo n != 0
  let pad := x.kind == 1
  let blk := pad && fmtIsBlock x.fmt
  let r (d : Nat) : Bool := rep.getD d 1 != 1
  if x.kind = 0 then (List.range 8).any fun k => w k != 0
  else decide (3 < x.kind) || (out && x.kind != 1) || z pad 0 20 4 || z pad 0 18 1 || z pad 1 0 20 || z false 1 20 12 || z blk 2 0 32
    || z false 3 21 11 || z blk 3 18 1 || z false 3 16 2 || z (r 0) 4 0 16 || z (r 1) 4 16 16 || z (r 2) 5 0 16 || z (blk && r 0) 5 16 16
    || z (blk && r 1) 6 0 16 || z (blk && r 2) 6 16 16 || z false 7 3 29 || (List.range 3).any fun d => z (!pad && r d) 7 d 1

/-- One stream's checks. -/
def BCmd.stream (c : BCmd) (e : ERun) (i : Nat) (x : EStream) (w : Nat → Nat) : List Fail :=
  let out := 4 ≤ i
  let reps := List.range e.reps
  let bank := x.kind == 2 || x.kind == 3
  let cvt := getBits (w 3) 0 16
  let y := Cvt.ofBits cvt
  if x.kind = 0 then failIf (streamUnused x out e.rep w) 0x4008
  else
    failIf (streamUnused x out e.rep w) 0x4008 ++
    failIf (fmtReserved x.fmt || !cvtLegal cvt 64 || (bank && x.fmt != fFP32 && x.fmt != fINT32)
      || (if out then y.fmt != x.fmt else y.fmt != fFP32 || decide (1 < y.rnd) || y.scm || y.ovfNf)) 0x400A ++
    failIf (((x.brow || x.bcol) && (out || bank)) || (x.brow && x.bcol) || (out && x.isBlock && x.baxis && decide (2048 < e.cols))
      || (x.kind == 1 && x.pitch % ((fmtBits x.fmt + 7) / 8) != 0)) 0x4012 ++
    (if x.kind = 1 then reps.flatMap fun n => c.ranges true (e.scaleRanges x n out) out else []) ++
    (if bank then
      failIf (reps.any fun n => decide (e.bankRow0 x n < 0) || decide (2048 < e.bankRow0 x n + e.rows) || decide (128 < x.bcol0 + e.cols)) 0x4012 ++
      failIf (reps.any fun n => decide (0 ≤ e.bankRow0 x n) && !c.bankRows (x.kind - 2) (e.bankOf x n) x.fmt (e.bankRow0 x n).toNat e.rows) 0x400F
     else if x.kind = 1 then (c.addrs x.reg (x.off * 32)).flatMap fun b => reps.flatMap fun n =>
      failIf (x.isBlock && (e.streamRows x out).any fun r => (e.start x b n + r * x.pitch) % (if fmtBits x.fmt = 4 then 16 else 32) != 0) 0x400E ++
      c.ranges true (e.elemRanges x b n out) out
     else [])

/-- An overlap R107 forbids that the image shows: two streams of one register, at each of its values or, where it is not evident,
at one far from every array; two of different registers, at each pair of their values; and scale arrays, whose places are
absolute, unless the streams could be one in place. -/
def BCmd.overlaps (c : BCmd) (e : ERun) (i o : Nat) : Bool :=
  match e.ins[i]?, e.outs[o]? with
  | some x, some y =>
      let try_ (a b : Nat) : Bool := ({ e with bases := (List.range 6).map fun k => if k = i then a else if k = 4 + o then b else 0 } : ERun).shares i o
      let orFar (l : List Nat) (far : Nat) : List Nat := if l = [] then [far] else l
      if x.reg = y.reg then (orFar (c.regValues x.reg) (2 ^ 46)).any fun v => try_ (v + x.off * 32) (v + y.off * 32)
      else
        let xs := c.addrs x.reg (x.off * 32)
        let ys := c.addrs y.reg (y.off * 32)
        !((xs == [] || ys == []) && x.inPlace y) && (orFar xs (2 ^ 46)).any fun a => (orFar ys (3 * 2 ^ 45)).any fun b => try_ a b
  | _, _ => false

/-- The checks of an evident descriptor. -/
def BCmd.elementDesc (c : BCmd) (prog : List Nat) (raw : Nat) : List Fail :=
  let wd (k : Nat) : Nat := getBits raw (32 * k) 32
  let masked := getBits (wd 49) 20 1 == 1
  let maskA := padBase c.g + getBits (wd 49) 0 20 * 32
  let e := ERun.ofWords c.g 0 c.w wd [] (if masked then (c.evident maskA 16).getD 0 else 0) prog c.m.s
  let red := findRed prog
  let kind := (red.map fun u => uMod u % 8).getD 0
  let n := 4 * (if kind = 4 then e.km1 + 1 else 1) * (if (red.map fun u => (uMod u).testBit 3).getD false then 1 else e.reps * e.rows)
  let z (used : Bool) (k lo w : Nat) : Bool := !used && getBits (wd k) lo w != 0
  let streams := (e.ins ++ e.outs).zipIdx
  failIf (z false 49 21 11 || z masked 49 0 20 || z false 50 20 12 || z red.isSome 50 0 20 || z false 51 20 12 || z (red.isSome && decide (3 ≤ kind)) 51 0 20
    || z (kind == 3 || kind == 4) 52 0 32 || z false 53 16 16 || z false 53 6 4 || z red.isSome 53 10 6 || z false 54 0 32 || z false 55 0 32) 0x4008 ++
  failIf ((e.km1 != 0 && kind != 4) || (masked && decide (2048 < e.rows))) 0x4012 ++
  (if masked then c.range true maskA 16 false else []) ++
  (if red.isSome then c.range true e.rv n true ++ (if 3 ≤ kind then c.range true e.rx n true else []) else []) ++
  streams.flatMap (fun x => c.stream e x.2 x.1 fun k => wd (8 * x.2 + k)) ++
  failIf ((List.range 4).any (fun i => namesInput prog i && ((e.ins[i]?).map (·.kind)).getD 0 == 0)
    || (List.range 2).any (fun o => writesOutput prog o && ((e.outs[o]?).map (·.kind)).getD 0 != 1)) 0x4011 ++
  failIf ((List.range 4).any fun i => c.overlaps e i 0 || c.overlaps e i 1) 0x4012

/-- TCLK cycles of an ERUN (R109); a descriptor the image does not show counts no bytes. -/
def BCmd.elementTime (c : BCmd) (prog : List Nat) (raw : Option Nat) : Nat :=
  let wd (k : Nat) : Nat := getBits (raw.getD 0) (32 * k) 32
  let masked := getBits (wd 49) 20 1 == 1
  let mask := if masked then (c.evident (padBase c.g + getBits (wd 49) 0 20 * 32) 16).getD 0 else 0
  let e := ERun.ofWords c.g 0 c.w wd [] mask prog c.m.s
  64 + (if (findRed prog).isSome then 16 else 0) + (if e.outs.any fun x => x.isBlock && x.baxis then 64 else 0) + (e.blocks.map e.cost).foldl (· + ·) 0

def BCmd.element (c : BCmd) : List Fail :=
  if opcode c.w = 0x41 then
    let mode := c.get 64 2
    failIf (decide (1 < mode) || (mode == 0 && c.get 152 24 != 0)) 0x4008 ++ (c.operand 128 8).flatMap (fun a => c.range true a 8 true) ++
    (if mode = 1 then (c.operand 152 8).flatMap fun a => c.range true a 8 false else [])
  else
    let descs := c.operand 128 32
    let ws := c.m.slotWords (c.get 64 4)
    let prog := ws.takeWhile fun u => uOp u != 0
    let raws := descs.filterMap fun a => c.evident a 256
    let times := match descs, raws with
      | [_], [r] => [c.elementTime prog (some r)]
      | _, [] => [c.elementTime prog none]
      | _, rs => rs.map fun r => c.elementTime prog (some r)
    failIf (descs.any (· % 256 != 0)) 0x4008 ++ descs.flatMap (fun a => c.range true a 256 false) ++ failIf ((slotFails ws).isSome) 0x4011 ++
    raws.flatMap (c.elementDesc prog) ++ failIf (times.any fun t => decide (c.limit < t)) 0x4013

/-! ### Flume commands (R194 to R210) -/

/-- The auxiliary descriptor's unused fields, and reserved ones. -/
def flumeUnused (j : FlmJob) : Bool :=
  let z (used : Bool) (k lo n : Nat) : Bool := !used && getBits (j.aux k) lo n != 0
  let sb := fmtIsBlock j.sfmt
  let db := fmtIsBlock j.dfmt
  let v := j.vmode != 0
  let r0 := j.rep0 != 1
  let r1 := j.rep1 != 1
  z r0 0 0 32 || z r0 1 0 32 || z r1 2 0 32 || z r1 3 0 32 || z sb 4 0 24 || z false 4 24 8 || z db 5 0 24 || z false 5 24 8 || z sb 6 0 16 || z db 6 16 16
    || z (sb && r0) 7 0 16 || z (db && r0) 7 16 16 || z (sb && r1) 8 0 16 || z (db && r1) 8 16 16 || z false 9 16 16 || z false 11 2 30
    || z v 12 0 24 || z false 12 24 8 || z v 13 0 24 || z false 13 24 8 || (List.range 18).any fun k => z false (14 + k) 0 32

/-- FCOPY's or FMOVE's rows, with `ops` its operand addresses and `words` its descriptor. -/
def BCmd.job (c : BCmd) (ops words : List Nat) : FlmJob :=
  FlmJob.of (c.g * 5 + c.q) { idx := 0, pass := 0, word := c.w, job := ops ++ words }

/-- The copies' rows at evident places: `ops` by operand number, each with the addresses it takes. -/
def BCmd.copyRows (c : BCmd) (words : List Nat) (src dst ssc dsc : List Nat) : List Fail :=
  let at_ (i a : Nat) : FlmJob := c.job ((List.range 6).map fun k => if k = i then a else 0) words
  let j := c.job (List.replicate 6 0) words
  let rows := List.range j.count
  let align (fmt : Nat) : Nat := if fmtIsBlock fmt then (if fmtBits fmt = 4 then 16 else 32) else 1
  let lenD := flmRowBytes j.dfmt j.cols
  src.flatMap (fun a => rows.flatMap fun i =>
    let p := ((at_ 0 a).srcRow i).a
    c.range false p (flmRowBytes j.sfmt j.cols) false ++ failIf (p % align j.sfmt != 0) 0x4019 3) ++
  dst.flatMap (fun a => rows.flatMap fun i =>
    let p := ((at_ 1 a).dstRow i).a
    c.range false p lenD true ++ failIf (p % align j.dfmt != 0) 0x4019 3 ++ failIf (j.ten && p % 64 != 0) 0x4019 4) ++
  ssc.flatMap (fun a => rows.flatMap fun i => failIf ((c.range false ((at_ 2 a).srcScale i).a j.blocks false).any (·.1 == 0x400D)) 0x4019 3) ++
  dsc.flatMap fun a => rows.flatMap fun i =>
    let r := c.range false ((at_ 3 a).dstScale i).a j.blocks true
    failIf (r.any (·.1 == 0x400D)) 0x4019 3 ++ r.filter (·.1 == 0x401C)

def BCmd.fcopy (c : BCmd) : List Fail :=
  let sf := c.get 64 4
  let df := c.get 68 4
  let cvt := c.get 72 16
  let add := c.get 249 1 == 1
  let aen := c.get 248 1 == 1
  let same := sf == df && !add
  let j := c.job (List.replicate 6 0) (List.replicate 32 0)
  let auxs := if aen then c.operand 224 32 else []
  let src := if c.get 88 2 = 0 then c.operand 96 32 else []
  let dst := if c.get 90 2 = 0 then c.operand 120 32 else []
  let own (a n : Nat) : Bool := inPad c.g a n
  let cost := max (flmRowBytes sf j.cols) (flmRowBytes df j.cols)
  let time := 16 + j.count * (2 + (cost + 255) / 256) + (if sf ≠ df ∨ add then 24 else 0) + 600
  let desc (raw : Nat) : List Fail :=
    let words := (List.range 32).map fun k => getBits raw (32 * k) 32
    let y := c.job (List.replicate 6 0) words
    let opnd (k unit : Nat) : List Nat := c.addrs (getBits (y.aux k) 20 4) (getBits (y.aux k) 0 20 * unit)
    let vs := if y.vmode = 0 then [] else opnd 12 8
    let vr := if y.vmode = 0 then [] else opnd 13 8
    failIf (flumeUnused y) 0x4008 ++ failIf (y.vmode == 3 || vr.any (fun a => !own a 8) || (vs ++ vr).any (· % 8 != 0)) 0x4019 7 ++
    vs.flatMap (fun a => c.range false a 8 false) ++ vr.flatMap (fun a => c.range false a 8 (y.vmode == 1)) ++
    c.copyRows words src dst (if fmtIsBlock sf && c.get 88 2 == 0 then opnd 4 32 else []) (if fmtIsBlock df && c.get 90 2 == 0 then opnd 5 32 else [])
  failIf (fmtReserved sf || fmtReserved df || (!same && !cvtLegal cvt 64)) 0x400A ++
  failIf (if same then cvt != 0 else (Cvt.ofBits cvt).fmt != df) 0x4019 2 ++
  failIf (add && (df != fFP32 || (Cvt.ofBits cvt).fmt != fFP32 || c.get 90 2 != 0)) 0x4019 5 ++
  failIf (if aen then auxs.any fun a => a % 128 != 0 || !own a 128 else c.get 208 16 != 0 || fmtIsBlock sf || fmtIsBlock df) 0x4019 6 ++
  failIf (j.ten && (add || c.get 90 2 != 0 || flmRowBytes df j.cols % 64 != 0 || (j.rows != 1 && j.dpitch % 64 != 0))) 0x4019 4 ++
  auxs.flatMap (fun a => c.range false a 128 false) ++
  (let raws := auxs.filterMap fun a => c.evident a 128
   if raws = [] then
     let one : BCmd := { c with w := BitVec.ofNat 256 (putBits c.w.toNat 208 16 0) }
     one.copyRows (List.replicate 32 0) src dst [] []
   else raws.flatMap desc) ++
  failIf (decide (c.limit < time)) 0x4013

def BCmd.flume (c : BCmd) : List Fail :=
  let op := opcode c.w
  let spaces (s d : Nat) : Bool := s == 3 || d == 3 || (s != 0 && d != 0)
  if op = 0x73 then failIf ((c.get 68 1 == 0) != (c.get 69 9 == 0)) 0x4019 9
  else if op = 0x72 then (if c.get 67 1 = 1 then (c.operand 72 8).flatMap fun a => c.range false a 8 true else [])
  else if op = 0x71 then
    let n := (c.get 120 20 + 1) * 64
    let src := if c.get 64 2 = 0 then c.operand 72 32 else []
    let dst := if c.get 66 2 = 0 then c.operand 96 32 else []
    failIf (spaces (c.get 64 2) (c.get 66 2)) 0x4019 1 ++ failIf (c.get 71 1 == 1 && c.get 66 2 != 0) 0x4019 4 ++
    failIf ((src ++ dst).any (· % 64 != 0)) 0x4019 8 ++ src.flatMap (fun a => c.range false a n false) ++ dst.flatMap (fun a => c.range false a n true) ++
    failIf (decide (c.limit < 16 + (n + 255) / 256 + 600)) 0x4013
  else failIf (spaces (c.get 88 2) (c.get 90 2)) 0x4019 1 ++ c.fcopy

/-! ### Wheel commands (R317 to R339) -/

def BCmd.wheel (c : BCmd) : List Fail :=
  let w := c.w
  let op := opcode w
  let f := wFmt w
  let y := wCvt w
  let red := wReduces w
  let flt (k : Nat) : Bool := k == fFP32 || k == fBF16 || k == fFP16
  let legal := if red then
      (if f = fINT32 then y.fmt == fINT32 && !wPfmt w && wRop w == 0 else flt f && flt y.fmt && wRop w != 3)
    else !fmtIsBlock f && c.get 64 16 == 0 && wRop w == 0
  let comp := wAxis2 w != 7
  let root := wRoot w
  let esz := (fmtBits f + 7) / 8
  let res := c.operand 144 32
  let aux := c.operand 168 32
  failIf (fmtReserved f || (red && !cvtLegal (c.get 64 16) 16)) 0x400A ++
  failIf (!legal) 0x401A 1 ++
  failIf (comp && (decide (3 < wAxis2 w) || wAxis2 w == c.q || decide (opAllgather < op))) 0x401A 2 ++
  failIf (wDir w == 3 || (op == opShift && (wDir w != 0 || root == 0)) || (root != 0 && op != opBcast && op != opShift)) 0x401A 3 ++
  failIf (res.any (· % 32 != 0) || aux.any (· % 128 != 0)) 0x401A 4 ++
  failIf (wDirect w && ((op != opAllreduce && op != opAllgather) || comp || decide (65536 < wCount w * esz))) 0x401A 5 ++
  failIf (op == opPermute && !wRagged w) 0x401A 6 ++
  failIf (wCount w == 0) 0x401A 7 ++
  res.flatMap (fun a => c.range false a 32 true) ++ aux.flatMap (fun a => c.range false a 128 false) ++
  (if op = opAllreduce ∨ op = opRedscat ∨ op = opAlltoall ∨ op = opShift ∧ !wRagged w then (c.operand 96 32).flatMap fun a => c.range false a (wCount w * esz) false else []) ++
  (if op = opAllreduce ∨ op = opAllgather ∨ op = opBcast ∨ op = opShift ∧ !wRagged w then
    (c.operand 120 32).flatMap fun a => c.range false a (wCount w * ((fmtBits (if red then y.fmt else f) + 7) / 8)) true else []) ++
  failIf (decide (c.limit < 1000 + (wCount w + 31) / 32)) 0x4013

/-! ### A queue's commands, in order (R160) -/

def failLt (a b : Fail) : Bool := decide (a.1 < b.1) || (a.1 == b.1 && decide (a.2 < b.2))
/-- The failure reported: the lowest code, and within it the lowest detail. -/
def lowestFail : List Fail → Option Fail
  | [] => none
  | f :: r => match lowestFail r with
    | some g => some (if failLt g f then g else f)
    | none => some f

/-- One command's failures, and what it leaves for the next. -/
def BCmd.check (c : BCmd) (k : Walk) : List Fail × Walk :=
  let op := opcode c.w
  if !knownOpcodes.contains op then ([(0x4006, 0)], k)
  else if !queueAccepts c.tile c.q op then ([(0x4007, 0)], k)
  else
    let r : List Fail × Walk :=
      if op < 0x10 then
        (c.control, if op = 6 then { k with mustLoad := true }
          else if op = 2 then { k with adds := (List.range 16).map fun n => k.adds.getD n 0 + ((c.get 64 16).testBit n).toNat } else k)
      else if op < 0x40 then c.matrix k
      else if op < 0x70 then (c.element, k)
      else if op < 0x90 then (c.flume, k) else (c.wheel, k)
    (c.header ++ r.1, r.2)

/-- A queue's commands from index `i`. -/
def Image.checkQueue (m : Image) (g q : Nat) : Nat → List CmdBits → Walk → Option Rej
  | _, [], _ => none
  | i, w :: r, k =>
      let x := ({ m := m, g := g, q := q, adds := k.adds, w := w } : BCmd).check k
      match lowestFail (x.1 ++ failIf (m.bad (m.qoff q + 32 * i) 32) 0x401B) with
      | some f => some { code := f.1, queue := q, index := i, detail := f.2 }
      | none => m.checkQueue g q (i + 1) r x.2

/-! ### Checks that span commands (R139, R165) -/

def stepends (ws : List CmdBits) : List (Nat × Nat) := ((ws.zipIdx).filter fun x => opcode x.1 == 4).map fun x => (x.2, cmdGet x.1 64 5)

/-- One mask for every STEPEND of the set, and equal counts in its participants. -/
def Image.checkStepends (m : Image) : Option Rej :=
  let all := (List.range 5).flatMap fun q => (stepends (m.commands q)).map fun x => (q, x)
  match all with
  | [] => none
  | (q0, _, mask) :: _ =>
      match all.find? fun x => x.2.2 != mask with
      | some (q, i, _) => some { code := 0x4015, queue := q, index := i }
      | none =>
          let n := (stepends (m.commands q0)).length
          if ((List.range 5).filter mask.testBit).all fun q => (stepends (m.commands q)).length == n then none
          else some { code := 0x4015, queue := q0, index := 0, open_ := true }

/-- The abstract run: each queue's index and pass, and the flags. -/
structure Graph where
  pos : List (Nat × Nat) := List.replicate 5 (0, 0)
  flags : Tab Nat

/-- What the run reads of an image: each queue's commands, its passes, and the FLAG entries. -/
structure GraphIn where
  cmds : List (List CmdBits)
  passes : List Nat
  flags : List Nat

def GraphIn.entry (x : GraphIn) (f : Nat) : Option Nat := x.flags.find? fun e => getBits e 16 16 == f
def GraphIn.head (x : GraphIn) (s : Graph) (q : Nat) : Option CmdBits :=
  let p := s.pos.getD q (0, 0)
  if p.2 < x.passes.getD q 0 then (x.cmds.getD q [])[p.1]? else none
def GraphIn.target (x : GraphIn) (s : Graph) (q : Nat) (w : CmdBits) : Nat :=
  (cmdGet w 25 16 + (s.pos.getD q (0, 0)).2 * ((x.entry (cmdGet w 16 9)).map fun e => getBits e 48 16).getD 0) % 65536
def GraphIn.met (x : GraphIn) (s : Graph) (q : Nat) (w : CmdBits) : Bool :=
  let f := cmdGet w 16 9
  f == 0 || ((x.entry f).map fun e => getBits e 8 1 == 1).getD false || targetMet (tabGet (fun _ => 0) s.flags f) (x.target s q w)

/-- The queues that fire together with queue `q`'s head, if it is enabled. -/
def GraphIn.enabled (x : GraphIn) (s : Graph) (q : Nat) : List Nat :=
  match x.head s q with
  | none => []
  | some w =>
      if !x.met s q w then []
      else if opcode w ≠ 4 then [q]
      else
        let ps := (List.range 5).filter (cmdGet w 64 5).testBit
        if ps.all fun p => match x.head s p with
            | some v => opcode v == 4 && x.met s p v
            | none => false then ps else []

/-- The head of queue `q` fires. -/
def GraphIn.fire (x : GraphIn) (s : Graph) (q : Nat) : Graph :=
  match x.head s q with
  | none => s
  | some w =>
      let f := cmdGet w 41 9
      let p := s.pos.getD q (0, 0)
      let next := if p.1 + 1 = (x.cmds.getD q []).length then (0, p.2 + 1) else (p.1 + 1, p.2)
      { pos := s.pos.set q next
        flags := if f = 0 then s.flags else tabPut (fun _ => 0) s.flags f ((tabGet (fun _ => 0) s.flags f + cmdGet w 50 8) % 65536) }

/-- Fire what is enabled, at most `fuel` times. -/
def GraphIn.run (x : GraphIn) : Nat → Graph → Graph
  | 0, s => s
  | k + 1, s =>
      match ((List.range 5).map (x.enabled s)).find? (· != []) with
      | some ps => x.run k (ps.foldl x.fire s)
      | none => s

/-- The image as the graph check reads it, a queue's PASSLIM being its LIMIT entry's or what the register keeps. -/
def Image.graph (m : Image) (g : Nat) : GraphIn :=
  let lim (q : Nat) : Nat := match m.entries.find? fun e => entType e == 5 && getBits e 8 8 == q with
    | some e => getBits e 32 32
    | none => m.s.get (QUE_PASSLIM_PASSES (g * 5 + q))
  { cmds := (List.range 5).map m.commands, passes := (List.range 5).map fun q => if m.carries q then (if lim q = 1 then 1 else 2) else 0,
    flags := m.entries.filter fun e => entType e == 2 }

/-- The wait and signal graph: the blocked head of the lowest queue. -/
def Image.checkGraph (m : Image) (g : Nat) : Option Rej :=
  let x := m.graph g
  let fuel := ((x.cmds.zip x.passes).map fun c => c.1.length * c.2).foldl (· + ·) 0
  let s := x.run fuel { flags := x.flags.foldl (fun t e => tabPut (fun _ => 0) t (getBits e 16 16) (getBits e 32 16)) [] }
  (List.range 5).findSome? fun q => (x.head s q).map fun w =>
    { code := 0x4017, queue := q, index := (s.pos.getD q (0, 0)).1,
      detail := cmdGet w 16 9 * 2 ^ 48 + x.target s q w * 2 ^ 16 + tabGet (fun _ => 0) s.flags (cmdGet w 16 9) }

/-! ### The save record (R173, R174) -/

/-- Bytes of the save record. -/
def recordSize : Nat := 4608

/-- Whether the record at `r` fits the image with digest `dig`. -/
def Image.recordFits (m : Image) (r : Nat) (dig : List Nat) : Bool :=
  let n (off k : Nat) : Nat := m.s.readNat (r + off) k
  n 0 2 == 1 && n 2 1 == m.nat 6 1 && n 0x20 32 == leNat dig && (List.range 5).all fun q =>
    let o := 0x40 + 0x100 * q
    let st := n o 1
    let pc := n (o + 2) 2
    (st == 0 || st == 4) && (st == 0 || (decide (pc < m.qlen q) && m.carries q
      && (m.nat 6 1 == 1 || decide (2 ≤ q) || pc == 0 || opcode (m.command q (pc - 1)) == 6)))

/-- The whole check, in R160's order; `resume` gives the record of a load in resume mode. -/
def Image.bolt (m : Image) (g : Nat) (resume : Option Nat) (dig : List Nat) : Option Rej :=
  (m.checkHeader (if g < 24 then 0 else 1)).or ((m.checkManifest g).or ((m.checkSlots).or
    (((List.range 5).findSome? fun q => m.checkQueue g q 0 (m.commands q) {}).or ((m.checkStepends).or ((m.checkGraph g).or
      (match resume with
       | some r => if m.recordFits r dig then none else some { code := 0x4018, queue := 0, index := 0, open_ := true }
       | none => none))))))

end Sys2Proof.Machine
end

