-- ==== Sys2Proof/Machine/Loader.lean ====
section
/-! DEFINITION. The loaders: loading, measuring, arming, parking, saving and resuming a set (R158 to R175). -/

namespace Sys2Proof.Machine

/-- TIL_LDSTAT.STATE. -/
abbrev ldLoading : Nat := 1
abbrev ldPassed : Nat := 2
abbrev ldRejected : Nat := 3
abbrev ldRefused : Nat := 4
abbrev ldAborted : Nat := 5
abbrev ldSaving : Nat := 6
abbrev ldSaved : Nat := 7

def State.ldState (s : State) (g : Nat) : Nat := s.get (TIL_LDSTAT_STATE g)
/-- Whether a set's loader is LOADING or SAVING. -/
def State.ldBusy (s : State) (g : Nat) : Bool := s.ldState g == ldLoading || s.ldState g == ldSaving
def State.load (s : State) (g : Nat) : LoadJob := tabGet (fun _ => {}) s.loads g
def State.setLoad (s : State) (g : Nat) (j : LoadJob) : State := { s with loads := tabPut (fun _ => {}) s.loads g j }

/-! ### Starting (R158, R172, R175) -/

/-- Whether a range lies wholly in the first tier or in the second. -/
def inTier (a n : Nat) : Bool := decide (a + n ≤ 0x020000000000) || (decide (tier2Base ≤ a) && decide (a + n ≤ tier2End))

def refuseLoad (g why : Nat) (s : State) : State := (s.set (TIL_LDSTAT_STATE g) ldRefused).set (TIL_LDSTAT_REFUSE g) why

/-- GO: a load starts, or is refused. -/
def startLoad (g : Nat) (s : State) : State :=
  let src := s.get (TIL_LDSRC_SRC g)
  let len := s.get (TIL_LDLEN_LEN g)
  if (setQueues g).any fun q => s.qstate q != qIdle then refuseLoad g 1 s
  else if src % 32 ≠ 0 ∨ !inTier src len then refuseLoad g 2 s
  else if len = 0 ∨ 0x200000 < len then refuseLoad g 3 s
  else
    let j : LoadJob := { src := src, len := len, resume := s.get (TIL_LDCTRL_MODE g) == 1, rsm := s.get (TIL_LDRSM_RSM g) }
    (((s.set (TIL_LDSTAT_STATE g) ldLoading).set (TIL_LDSTAT_REFUSE g) 0).set (TIL_LDSTAT_MV g) 0).setLoad g j

/-- SAVE: a save starts, or is refused; the locked partner-mirror area is no place for a record (R209; log entry 59). -/
def startSave (g : Nat) (s : State) : State :=
  let rsm := s.get (TIL_LDRSM_RSM g)
  if (setQueues g).any fun q => s.qstate q != qIdle && s.qstate q != qParked then refuseLoad g 1 s
  else if rsm % 64 ≠ 0 ∨ !inTier rsm recordSize ∨ s.locked rsm recordSize then refuseLoad g 2 s
  else if !s.isSet (TIL_LDSTAT_MV g) then refuseLoad g 4 s
  else ((s.set (TIL_LDSTAT_STATE g) ldSaving).set (TIL_LDSTAT_REFUSE g) 0).setLoad g { rsm := rsm }

/-- PARKALL: PARKREQ in all five queues of the set (R169); an IDLE queue clears it (R171). -/
def parkAll (g : Nat) (s : State) : State :=
  forAll (setQueues g) (fun q s => if s.qstate q = qIdle then s else s.set (QUE_CTRL_PARKREQ q) 1) s

/-- A write of TIL_LDCTRL or QUE_DLDCTRL. -/
def ldCtrl (g v wlo whi : Nat) (s : State) : State :=
  let s1 := writeBits (aTIL_LDCTRL g) v wlo whi (if v.testBit 7 then parkAll g s else s)
  let go := v.testBit 5
  let save := v.testBit 6
  if go && save then s1.set (TIL_LDSTAT_REFUSE g) 5
  else if !go && !save then s1
  else if s1.ldBusy g then s1.set (TIL_LDSTAT_REFUSE g) 6
  else if save then startSave g s1 else startLoad g s1

def execGo (p : PortId) (g : SetId) (v : BitVec 32) (s : State) : Res :=
  .next (ownerWrite p (aTIL_LDCTRL g) (ldCtrl g (v ||| 0x20).toNat 0 31) s)
def execSave (p : PortId) (g : SetId) (v : BitVec 32) (s : State) : Res :=
  .next (ownerWrite p (aTIL_LDCTRL g) (ldCtrl g (v ||| 0x40).toNat 0 31) s)
def execParkall (p : PortId) (g : SetId) (s : State) : Res :=
  .next (ownerWrite p (aTIL_LDCTRL g) (fun s => ldCtrl g (putBits (s.rd (aTIL_LDCTRL g)).toNat 5 3 4) 0 31 s) s)

/-! ### Measurement (R166, R413) -/

/-- The measurement index of a set's loader. -/
def measureIndex (g : Nat) : Nat := if g < 24 then 16 + g else 40

def setMeasurement (i : Nat) (v : Option Nat) (s : State) : State :=
  { s with mgt := { s.mgt with meas := tabPut (fun _ => none) s.mgt.meas i v } }

/-- The digest is complete: TIL_LDMEAS, MV and the measurement table. -/
def measured (g : Nat) (dig : List Nat) (s : State) : State :=
  let s1 := forAll (List.range 8) (fun k s => s.wr (aTIL_LDMEAS g k) (BitVec.ofNat 64 (leNat ((dig.drop (4 * k)).take 4)))) s
  setMeasurement (measureIndex g) (some (leNat dig)) (s1.set (TIL_LDSTAT_MV g) 1)

/-! ### Rejecting (R160) -/

/-- Instruction memory of a set is lost: nothing of it can run before a load writes it. -/
def loseImem (g : Nat) (s : State) : State := { s with imem := tabClear s.imem (g * 5 * 8192) (5 * 8192) }

/-- A tile's element program store is undefined: free values. -/
def loseSlots (g : Nat) (s : State) : State :=
  if 24 ≤ g then s else
  forAll (List.range 512) (fun i s => ((s.wr (aELE_PROG g (i / 32) (i % 32)) ((s.fresh 32).setWidth 64))).tick) s

/-- The loader reports its first failure; a place the spec does not give is open. -/
def rejectImage (g : Nat) (r : Rej) (s : State) : State :=
  let s0 := loseSlots g (loseImem g s)
  let q := if r.open_ then (s0.fresh 3).toNat else r.queue
  let s1 := if r.open_ then s0.tick else s0
  let i := if r.open_ then (s1.fresh 13).toNat else r.index
  let s2 := if r.open_ then s1.tick else s1
  let s3 := ((s2.set (TIL_LDREJ_CODE g) r.code).set (TIL_LDREJ_QUEUE g) q).set (TIL_LDREJ_INDEX g) i
  event r.code (srcLoader g) ((s3.wr (aTIL_LDDET g) (BitVec.ofNat 64 r.detail)).set (TIL_LDSTAT_STATE g) ldRejected)

/-! ### Arming (R145, R167, R174) -/

/-- Step 1: instruction memory, LEN and the element slots. -/
def armPrograms (g : Nat) (m : Image) (s : State) : State :=
  let s1 := forAll ((List.range 5).filter m.carries) (fun q s =>
    let cmds := m.commands q
    let s := { s with imem := (cmds.zipIdx).foldl (fun (t : Tab CmdBits) (x : CmdBits × Nat) => tabPut (fun _ => 0) t ((g * 5 + q) * 8192 + x.2) x.1) (tabClear s.imem ((g * 5 + q) * 8192) 8192) }
    s.set (QUE_PROG_LEN (g * 5 + q)) (m.qlen q)) s
  if 24 ≤ g then s1 else
  forAll (List.range 16) (fun k s => ((m.slotWords k).zipIdx).foldl (fun s u => s.wr (aELE_PROG g k u.2) (BitVec.ofNat 64 u.1)) s) s1

/-- Step 2: periods from the FLAG entries. -/
def armPeriods (g : Nat) (m : Image) (s : State) : State :=
  forAll (m.entries.filter fun e => entType e == 2) (fun e s => s.set (TIL_FPER_PER g (getBits e 16 16)) (getBits e 48 16))
    (s.resetRegs (aTIL_FPER g 0) 0x800)

/-- Step 2 of a fresh load: flags, predicates and overflow records. -/
def armFlags (g : Nat) (m : Image) (s : State) : State :=
  let s1 := forAll (m.entries.filter fun e => entType e == 2) (fun e s => s.set (TIL_FLAG_VALUE g (getBits e 16 16)) (getBits e 32 16))
    (s.resetRegs (aTIL_FLAG g 0) 0x800)
  forAll (setRecords g) (fun b s => s.resetRegs b 0x20) (s1.wr (aTIL_PRED g) 0)

/-- Steps 3 and 4: BASE and LIMIT entries. -/
def armBases (g : Nat) (m : Image) (s : State) : State :=
  forAll m.entries (fun e s =>
    let q := g * 5 + getBits e 8 8
    if entType e = 3 then
      let n := getBits e 16 8
      let start := if getBits e 24 1 = 1 then s.devId * 2 ^ 48 + getBits e 64 48 else getBits e 64 64
      ((s.wr (aQUE_BSTART q n) (BitVec.ofNat 64 start)).set (QUE_BINC_INC q n) (getBits e 128 48)).set (QUE_BMOD_MOD q n) (getBits e 32 16)
    else if entType e = 5 then
      let s1 := s.set (QUE_PASSLIM_PASSES q) (getBits e 32 32)
      if getBits e 64 32 = 0xFFFFFFFF then s1 else s1.set (QUE_WAITLIM_LIMIT q) (getBits e 64 32)
    else s) s

/-- Step 5: DATA entries into scratchpad. -/
def armData (g : Nat) (m : Image) (s : State) : State :=
  forAll (m.entries.filter fun e => entType e == 6) (fun e s =>
    s.write (padBase g + getBits e 128 64) (natBytes (getBits e 64 32) (m.nat (getBits e 32 32) (getBits e 64 32)))) s

/-- A queue's registers and hidden state as an arming leaves them, in state `st` at PC 0. -/
def armQueue (q st : Nat) (s : State) : State :=
  let s1 := ((s.wr (aQUE_STAT q) (regReset (aQUE_STAT q))).wr (aQUE_PASS q) 0).set (QUE_STAT_STATE q) st
  let s2 := forAll ((List.range 15).map (· + 1)) (fun n s => (s.wr (aQUE_BASE q n) (s.rd (aQUE_BSTART q n))).set (QUE_BMOD_IDX q n) 0) s1
  s2.setQue q { issued := (s2.que q).issued }

/-- A queue taken up again from a save record at `r`. -/
def resumeQueue (g q r : Nat) (s : State) : State :=
  let o := r + 0x40 + 0x100 * q
  let x := g * 5 + q
  let n (off k : Nat) : Nat := s.readNat (o + off) k
  let s1 := armQueue x (n 0 1) s
  let s2 := (s1.set (QUE_STAT_PC x) (n 2 2)).set (QUE_PASS_PASS x) (n 4 4)
  let s3 := forAll ((List.range 15).map (· + 1)) (fun i s =>
    (s.wr (aQUE_BASE x i) (BitVec.ofNat 64 (n (8 * i) 8))).set (QUE_BMOD_IDX x i) (n (0x7E + 2 * i) 2)) s2
  s3.setQue x { s3.que x with parkedAtPP := n 0 1 == qParked && n 1 1 % 2 == 0 }

/-- Flags, predicates, STEP and overflow records from a save record. -/
def resumeSet (g r : Nat) (s : State) : State :=
  let s1 := (s.set (TIL_STEP_STEP g) (s.readNat (r + 8) 8)).wr (aTIL_PRED g) (BitVec.ofNat 64 (s.readNat (r + 0x10) 8))
  let s2 := forAll ((List.range 511).map (· + 1)) (fun f t => t.set (TIL_FLAG_VALUE g f) (s.readNat (r + 0x600 + 2 * f) 2)) s1
  ((setRecords g).zipIdx).foldl (fun t b => (List.range 8).foldl (fun t w =>
    t.wr (b.1 + 4 * w) (BitVec.ofNat 64 (s.readNat (r + 0xA00 + 32 * b.2 + 4 * w) 4))) t) s2

/-- A passed image arms its set, and starts or resumes it with AUTOSTART. -/
def armSet (g : Nat) (m : Image) (j : LoadJob) (s : State) : State :=
  let qs := (List.range 5).filter m.carries
  let s1 := armBases g m (armPeriods g m (armPrograms g m s))
  let s2 := if j.resume then forAll (List.range 5) (fun q s => resumeQueue g q j.rsm s) (resumeSet g j.rsm (touch j.rsm recordSize s1))
    else forAll qs (fun q s => armQueue (g * 5 + q) qArmed s) (armData g m (armFlags g m s1))
  let s3 := (s2.set (TIL_LDSTAT_STATE g) ldPassed).inc (TIL_LDSTAT_PASSCNT g) 1
  if !s3.isSet (TIL_LDCTRL_AUTOSTART g) then s3
  else forAll (setQueues g) (fun q s => if s.qstate q = qArmed ∨ s.qstate q = qParked then runAgain q s else s) s3

/-- A load ends: the image is read and checked, and the set armed or the failure reported (R160, R166, R167, R174).
A load rejected before its last check has no digest, and no
rejected image is reported as loaded. -/
def endLoad (g : Nat) (s : State) : State :=
  let j := s.load g
  let s1 := touch j.src j.len (s.setLoad g {})
  let s2 := if j.resume then touch j.rsm recordSize s1 else s1
  let m : Image := { s := s2, base := j.src, len := j.len, die := setDie g }
  let meas := j.resume || s2.isSet (TIL_LDCTRL_MEAS g)
  let dig := if meas ∧ m.total ≤ j.len then sha256 ((s2.read j.src m.total).map (·.toNat)) else []
  match m.bolt g (if j.resume then some j.rsm else none) dig with
  | some r => setMeasurement (measureIndex g) none (rejectImage g r (if meas && r.code == 0x4018 then measured g dig s2 else s2))
  | none => armSet g m j (if meas then measured g dig s2 else setMeasurement (measureIndex g) none s2)

def execLoadDone (g : SetId) (s : State) : Res := .next (if s.ldState g = ldLoading then endLoad g s else s)

/-! ### Saving (R173) -/

/-- A queue's context in the save record. -/
def queueContext (q : Nat) (s : State) : List Byte :=
  let parked := s.qstate q == qParked
  natBytes 1 (s.qstate q) ++ natBytes 1 (parked && !(s.que q).parkedAtPP).toNat ++ natBytes 2 (s.get (QUE_STAT_PC q)) ++
  natBytes 4 (s.get (QUE_PASS_PASS q)) ++ (List.range 15).flatMap (fun i => natBytes 8 (s.rd (aQUE_BASE q (i + 1))).toNat) ++
  (List.range 15).flatMap (fun i => natBytes 2 (s.get (QUE_BMOD_IDX q (i + 1)))) ++ List.replicate 98 0

/-- The save record of a set. -/
def saveRecord (g : Nat) (s : State) : List Byte :=
  natBytes 2 1 ++ natBytes 1 (if g < 24 then 0 else 1) ++ List.replicate 5 0 ++ natBytes 8 (s.get (TIL_STEP_STEP g)) ++
  natBytes 8 (s.rd (aTIL_PRED g)).toNat ++ List.replicate 8 0 ++
  (List.range 8).flatMap (fun k => natBytes 4 (s.rd (aTIL_LDMEAS g k)).toNat) ++
  (setQueues g).flatMap (fun q => queueContext q s) ++ List.replicate 192 0 ++
  (List.range 512).flatMap (fun f => natBytes 2 (s.flag g f)) ++
  (setRecords g).flatMap (fun b => (List.range 8).flatMap fun w => natBytes 4 (s.rd (b + 4 * w)).toNat)

/-- Write a save record; one that LPC_MIRCTL.LOCK has come to bar is not written (R209). -/
def writeSaved (g a : Nat) (bs : List Byte) (s : State) : State :=
  if s.locked a bs.length then s else countUnmirrored a bs.length (writeServed (setDie g) a (bs.map fun b => (b, false)) s)

/-- A save ends: the record is written. -/
def execSaveDone (g : SetId) (s : State) : Res :=
  .next (if s.ldState g = ldSaving then
      let j := s.load g
      (writeSaved g j.rsm (saveRecord g s) (s.setLoad g {})).set (TIL_LDSTAT_STATE g) ldSaved
    else s)

/-! ### Flags written by a host (R126, R127, R159) -/

/-- A register write discarded while the set's queues run or its loader is busy. -/
def setDiscard (a : Nat) (s : State) : State := event 0x300A (srcReg a) s

/-- Write a flag: not while the loader is busy. -/
def flagWrite (g f v : Nat) (s : State) : State := if s.ldBusy g then setDiscard (aTIL_FLAG g f) s else setFlag g f v s

def execTilFlagWrite (p : PortId) (g : SetId) (f : Fin 512) (v : BitVec 16) (s : State) : Res :=
  .next (ownerWrite p (aTIL_FLAG g f) (flagWrite g f v.toNat) s)

/-- TIL_FLAGADD adds at any time. -/
def execTilFlagadd (p : PortId) (g : SetId) (f : Fin 512) (v : BitVec 8) (s : State) : Res :=
  .next (ownerWrite p (aTIL_FLAGADD g f) (addFlag g f v.toNat) s)

/-- A reset ends a load or save (R159): ABORTED, and a save record in progress is undefined. -/
def abortLoader (g : Nat) (s : State) : State :=
  if s.ldState g = ldSaving then ((if s.locked (s.load g).rsm recordSize then s else s.scramble (s.load g).rsm recordSize).setLoad g {}).set (TIL_LDSTAT_STATE g) ldAborted
  else if s.ldState g = ldLoading then (s.setLoad g {}).set (TIL_LDSTAT_STATE g) ldAborted else s

end Sys2Proof.Machine
end

