-- ==== Sys2Proof/Machine/Power.lean ====
section
/-! DEFINITION. The power controller: throttle and its causes, AVSBus, thermal trip and the memories' temperatures
(R453 to R465, R473, R474). -/

namespace Sys2Proof.Machine

def State.dom (s : State) (d : Nat) : DomSt := tabGet (fun _ => {}) s.pwr.dom d
def State.setDom (s : State) (d : Nat) (v : DomSt) : State := { s with pwr := { s.pwr with dom := tabPut (fun _ => {}) s.pwr.dom d v } }

/-! ### Stretch (R461, R462) -/

/-- The largest stretch any cause requests of domain `d`. -/
def State.stretchAsked (s : State) (d : Nat) : Nat :=
  let x := s.dom d
  let prochot := if s.isSet PWR_STAT_PROCHOT then s.get PWR_THR_PHS else 0
  let trip := if s.isSet PWR_STAT_TRIP then 12 else 0
  max (max (max x.hotReq x.capReq) (max prochot trip)) (max (if x.unread then 4 else 0) (s.get (PWR_STRETCH_FORCE d)))

/-- PWR_STRETCH_d.CAUSE: the causes in force. -/
def showCauses (d : Nat) (s : State) : State :=
  let x := s.dom d
  s.set (PWR_STRETCH_CAUSE d) ((decide (x.hotReq ≠ 0)).toNat + 2 * s.get PWR_STAT_PROCHOT +
    4 * (decide (x.capReq ≠ 0) || x.unread).toNat + 8 * (decide (s.get (PWR_STRETCH_FORCE d) ≠ 0)).toNat)

/-- Change a domain's requests. -/
def setRequests (d : Nat) (x : DomSt) (s : State) : State := showCauses d (s.setDom d x)

/-- A request while its condition holds: one step more, once the step asked for is taken. -/
def raised (holds : Bool) (req stretch : Nat) : Nat := if holds && decide (req ≤ stretch) && decide (req ≠ 0) then min 12 (req + 1) else req

/-- A step completes: causes whose condition still holds ask for the next, and S moves one step. -/
def execThrottleStep (d : Domain) (s : State) : Res :=
  let x := s.dom d
  let now := s.get (PWR_STRETCH_S d)
  let s1 := setRequests d { x with hotReq := raised x.hot x.hotReq now, capReq := raised (x.above || x.warn) x.capReq now } s
  let ask := s1.stretchAsked d
  .next (s1.set (PWR_STRETCH_S d) (if now < ask then now + 1 else if ask < now then now - 1 else now))

/-- A cause is released: its number is that of its CAUSE bit, counted from bit 16. -/
def released (d cause : Nat) (s : State) : State := eventD 0xD003 (srcPower d) cause s

/-- The hottest sensor of a die is read: the junction cause engages at TJTHR and is released 3 °C below it. -/
def execJunctionThrottle (d : Domain) (temp : BitVec 16) (s : State) : Res :=
  let s1 := s.set (PWR_TEMP_TEMP d) temp.toNat
  let x := s1.dom d
  let thr : Int := s1.get PWR_THR_TJTHR * 10
  .next (if thr ≤ temp.toInt then
      let s2 := setRequests d { x with hot := true, hotReq := max x.hotReq 1 } s1
      if x.hotReq = 0 then event 0xD002 (srcPower d) s2 else s2
    else if temp.toInt ≤ thr - 30 ∧ x.hotReq ≠ 0 then
      released d 0 (setRequests d { x with hot := false, hotReq := 0 } s1)
    else setRequests d { x with hot := false } s1)

def execProchotNAssert (s : State) : Res :=
  .next (if s.isSet PWR_STAT_PROCHOT then s
    else event 0xD005 (srcPower 0) (forAll (List.range 4) showCauses (s.set PWR_STAT_PROCHOT 1)))

def execProchotNRelease (s : State) : Res :=
  .next (if s.isSet PWR_STAT_PROCHOT then released 0 1 (forAll (List.range 4) showCauses (s.set PWR_STAT_PROCHOT 0)) else s)

/-- The current cap or a regulator warning engages or is released, as the two conditions now stand. -/
def capChange (d : Nat) (x : DomSt) (s : State) : State :=
  if x.capOn || x.warn then
    let s1 := setRequests d { x with capReq := max x.capReq 1 } s
    if x.capReq = 0 then event 0xD008 (srcPower d) s1 else s1
  else if x.capReq = 0 then s.setDom d x
  else released d 2 (setRequests d { x with capReq := 0 } s)

/-- A mean of PWR_IMEAS_d over 100 µs, in 0.1 A. -/
def execCurrentCap (d : Domain) (mean : BitVec 16) (s : State) : Res :=
  let x := s.dom d
  let cap := s.get (PWR_ICAP_ICAP d) * 10
  let m := mean.toNat
  .next (if cap < m then capChange d { x with above := true, capOn := true } s
    else if m * 100 ≤ cap * 95 then capChange d { x with above := false, capOn := false } s
    else s.setDom d { x with above := false })

/-- Write PWR_STRETCH_d: FORCE. -/
def stretchWrite (d v wlo whi : Nat) (s : State) : State := showCauses d (writeBits (aPWR_STRETCH d) v wlo whi s)

def execPwrForce (p : PortId) (d : Domain) (v : BitVec 4) (s : State) : Res :=
  .next (ownerWrite p (aPWR_STRETCH d) (stretchWrite d v.toNat 0 31) s)

/-- Write PWR_CTRL: CNT_CLR. -/
def pwrCtrl (v : Nat) (s : State) : State :=
  if v.testBit 0 then (forAll (List.range 4) (fun d s => s.wr (aPWR_THRCNT d) 0) s).wr aPWR_AVSERR 0 else s

def execPwrCntClr (p : PortId) (s : State) : Res := .next (ownerWrite p aPWR_CTRL (pwrCtrl 1) s)

/-! ### AVSBus (R453 to R455) -/

/-- The rails of an interface, in the order of their selects. -/
def avsRails (i : Nat) : List Nat := if i = 0 then [0, 1, 4] else [2, 3]

/-- A current read of every rail of an interface.  Nine reads that fail, 12 µs apart, leave a current unread for 100 µs. -/
def execAvsCurrentRead (iface : Fin 2) (reading : Option (List (BitVec 16))) (s : State) : Res :=
  let domains := (avsRails iface).filter fun r => decide (r < 4)
  let setFails (n : Nat) (s : State) : State := { s with pwr := { s.pwr with fails := tabPut (fun _ => 0) s.pwr.fails iface n } }
  .next (match reading with
    | some l =>
        let s1 := forAll ((avsRails iface).zip l) (fun e s => s.set (PWR_IMEAS_CUR e.1) e.2.toNat) (setFails 0 s)
        forAll domains (fun d s => setRequests d { s.dom d with unread := false } s) s1
    | none =>
        let n := tabGet (fun _ => 0) s.pwr.fails iface + 1
        let s1 := (setFails n s).incSat PWR_AVSERR_CNT 1
        let s2 := if n = 3 then event 0xD006 (srcPower (if iface.val = 0 then 0 else 2)) (s1.set PWR_STAT_AVSERR 1) else s1
        if n = 9 then forAll domains (fun d s => setRequests d { s.dom d with unread := true } s) s2 else s2)

/-- Write a rail's fused setpoint. -/
def writeSetpoint (r : Nat) (s : State) : State :=
  (s.set (PWR_VSET_MV r) (Config.setpoint r).toNat).emit (.avs r (Config.setpoint r).toNat)

/-- A regulator's status is read. -/
def execAvsStatusAlert (r : Fin 5) (st : AvsStatus) (s : State) : Res :=
  .next (match st with
    | .warning =>
        let s1 := event 0xD006 (srcPower r) s
        if r.val < 4 then capChange r { s1.dom r with warn := true } s1 else s1
    | .fault => eventD 0xD007 (srcPower r) r s
    | .lostSetpoint => writeSetpoint r (eventD 0xD007 (srcPower r) r s)
    | .normal => if r.val < 4 then capChange r { s.dom r with warn := false } s else s)

/-- The read-back of a voltage write: `tries` writes have been made.  After the third retry the start-up stays where it
is. -/
def execAvsWriteRetry (r : Fin 5) (tries : Nat) (confirmed : Bool) (s : State) : Res :=
  .next (if confirmed then s
    else if tries < 4 then writeSetpoint r s
    else
      let s1 := eventD 0xD007 (srcPower r) r s
      if s1.get GLB_BOOT_STATE = 2 then { s1 with boot := { s1.boot with phase := .stuck } } else s1)

/-! ### Temperature (R464, R465) -/

/-- A junction reaches 115 °C: THERMTRIP_N, the red event and its containment, and every tile power-gated. -/
def execThermalTrip (sensor : Fin 6) (s : State) : Res :=
  let s1 := (s.set (PWR_TEMP_TEMP sensor) 1150).set PWR_STAT_TRIP 1
  let s2 := eventD 0xD001 (srcPower sensor) sensor s1
  .next (forAll (List.range 24) (fun t s => setPhase t .powerGated (loseArrays t s)) s2)

/-- A stack or package is read: at 105 °C it is served at no more than half rate, until it is below 100 °C. -/
def execMemoryOvertemp (u : Fin 20) (temp : BitVec 16) (s : State) : Res :=
  let s1 := s.set (PWR_TEMP_TEMP (6 + u)) temp.toNat
  let slow (on : Bool) (s : State) : State := { s with pwr := { s.pwr with slow := putBits s.pwr.slow u 1 on.toNat } }
  .next (if 1050 ≤ temp.toInt then
      (if s1.pwr.slow.testBit u then s1 else event 0xD00A (srcPower (6 + u)) (slow true s1))
    else if temp.toInt < 1000 then slow false s1 else s1)

/-- A stack refreshes at twice its normal rate above 95 °C. -/
def execDoubledRefresh (k : Fin 16) (temp : BitVec 16) (s : State) : Res :=
  let s1 := s.set (PWR_TEMP_TEMP (6 + k)) temp.toNat
  .next { s1 with pwr := { s1.pwr with doubled := putBits s1.pwr.doubled k 1 (decide (950 < temp.toInt)).toNat } }

end Sys2Proof.Machine
end

