-- ==== Sys2Proof/Machine/Time.lean ====
section
/-! DEFINITION. Fabric time: the counter, the time tree, the exchange, steps and alarms, and the TIME_PPS pins
(R342 to R361). -/

namespace Sys2Proof.Machine

/-! ### The counter (R342, R345) -/

/-- Whether the counter runs: from the readiness that ends a cold start, and on through a device reset (R342). -/
def State.counting (s : State) : Bool := s.ready || !s.boot.cold

/-- A tick of the time base: the counter advances while it runs, and always-on start gives way to the boot ROM phase. -/
def idleTick (s : State) : State :=
  if s.counting then wheelsDark (s.advanceTo (s.now + 1))
  else if s.boot.phase = .rom then s.set GLB_BOOT_STATE 1 else s

/-- A counter that runs has come at least to the reading a happening was stamped with, in 1/16 tick (log entry 3). -/
def carry (t : Nat) (s : State) : State :=
  if s.counting ∧ s.now < t / 16 then s.advanceTo (t / 16) else s

/-- A fabric time moved by a step. -/
def moveTime (d : Int) (t : Nat) : Nat := ((t + d) % 2 ^ 64).toNat

/-- The times from which the device counts running intervals move with a step: of links, of the transport, of the recorder, of
the core, of the time replies, of engines that a pre-wake raises, and of collectives (R345). -/
def moveTimes (d : Int) (s : State) : State :=
  let s1 := forAll allLinks (fun n s =>
    let l := s.link n
    s.setLink n { l with
      lastNak := l.lastNak.map fun e => (e.1, moveTime d e.2)
      failTimes := l.failTimes.map (moveTime d) }) s
  let s2 := s1.setFab { s1.fab with
    msgUsed := s1.fab.msgUsed.map fun u => (u.1, u.2.1, moveTime d u.2.2)
    litAt := s1.fab.litAt.map fun e => (e.1, e.2.map (moveTime d)) }
  let s3 := { s2 with
    evr := { s2.evr with escTimes := s2.evr.escTimes.map (moveTime d) }
    mgt := { s2.mgt with shedEvent := s2.mgt.shedEvent.map (moveTime d) }
    ftm := { s2.ftm with heard := s2.ftm.heard.map fun e => (e.1, e.2.map fun r => { r with at_ := moveTime d r.at_ }) } }
  let s4 := forAll (List.range 48) (fun k s => s.setMxe k { s.mxe k with riseAt := (s.mxe k).riseAt.map (moveTime d) }) s3
  forAll (List.range 4) (fun a s => s.setWheel a { s.wheel a with
    coll := (s.wheel a).coll.map fun c => { c with began := moveTime d c.began } }) s4

/-- Set the counter: the intervals that are running do not count the difference, and event 0x9004 carries it. -/
def stepTo (t : Nat) (s : State) : State :=
  let d : Int := t - s.now
  eventD 0x9004 srcTime (d % 2 ^ 32).toNat (moveTimes d (s.wr aFTM_NOW (BitVec.ofNat 64 t)))

/-- An integer quotient; where it is not exact, a free value says which way it is rounded. -/
def openDiv (x : Int) (k : Int) (s : State) : Int := x / k + (if x % k = 0 then 0 else (s.fresh 1).toNat)

/-! ### The time tree (R346 to R348) -/

/-- Whether a link exchanges TIME cells: HELLO, PARKED or ACTIVE with lock, in the Bivin personality. -/
def State.timeLink (s : State) (n : Nat) : Bool := s.lanesUp n && s.isSet (LNK_STAT_LOCK n) && !s.isEth n

def State.timeHeard (s : State) (n : Nat) : Option TimeHeard := tabGet (fun _ => none) s.ftm.heard n

/-- Whether a link may be the parent: it has lock, a reply came within 8 × PERIOD, and the reply allows it (R348); one whose DEPTH
would make a loop is not restored. -/
def State.usable (s : State) (n : Nat) : Bool :=
  s.timeLink n && match s.timeHeard n with
    | some r => (r.sync || r.depth == 0) && decide (r.depth + 1 ≤ 127) && decide (s.since r.at_ ≤ 8 * s.get FTM_CFG_PERIOD * 4000)
    | none => false

/-- Start the averages and runs anew. -/
def newParent (link : Nat) (s : State) : State :=
  { s.set FTM_STAT_ACTPARENT link with ftm := { s.ftm with offsets := [], inBound := 0, outBound := 0 } }

/-- A change of MODE, PARENT or ALTPARENT takes effect at an exchange (R361). -/
def adoptRole (s : State) : State :=
  let mode := s.get FTM_CFG_MODE
  let role := (mode, s.get FTM_CFG_PARENT, s.get FTM_CFG_ALTPARENT)
  if s.ftm.role = role then s
  else
    let s1 := { s with ftm := { s.ftm with role := role, ppsGood := 0, ppsIgnored := 0 } }
    if mode = 2 then
      newParent (if s1.usable role.2.1 then role.2.1 else 31) (if s.ftm.role.1 = 2 then s1 else s1.set FTM_STAT_DEPTH 255)
    else
      let s2 := newParent 31 (s1.set FTM_STAT_DEPTH (if mode = 3 then 255 else 0))
      ((s2.set FTM_STAT_HOLD 0).set FTM_STAT_UPHOLD 0).set FTM_STAT_LOOP 0

/-- FLAGS, DEPTH and ROOTID of this device's cells (R349); without a root, ROOTID is a free value. -/
def State.timeSelf (s : State) : List PayField :=
  let root := s.ftm.role.1 < 2
  let flags := s.get FTM_STAT_SYNC + 2 * s.get FTM_STAT_HOLD + 4 * (decide root).toNat + 8 * s.get FTM_STAT_PPSLOCK
  let id := if root then s.devId else s.ftm.root.getD (s.fresh 16).toNat
  [(1, 1, flags), (2, 1, s.get FTM_STAT_DEPTH), (40, 2, id)]

/-- The parent stops being usable: the alternate parent or holdover. -/
def parentLost (s : State) : State :=
  let act := s.get FTM_STAT_ACTPARENT
  let lost := if act = 31 then s.ftm.role.2.1 else act
  let s1 := { s with ftm := { s.ftm with heard := tabPut (fun _ => none) s.ftm.heard lost none } }
  let alt := s.ftm.role.2.2
  let new := if s.isSet FTM_CFG_ALTEN && lost != alt && s1.usable alt then alt else 31
  let s2 := newParent new s1
  let s3 := if new = 31 then s2.set FTM_STAT_HOLD 1 else s2
  eventD 0x9002 srcTime (lost + new * 256) s3

def execParentUnusable (s : State) : Res :=
  let s1 := adoptRole s
  .next (if s1.ftm.role.1 = 2 ∧ (s1.get FTM_STAT_ACTPARENT ≠ 31 ∨ !s1.isSet FTM_STAT_HOLD) then parentLost s1 else s1)

/-! ### Discipline (R350, R351) -/

/-- The rate the servo chooses: a free value within ±200,000 ppb. -/
def slew (s : State) : State :=
  let r : Int := ((s.fresh 32).toNat % 400001 : Nat) - 200000
  (s.set FTM_RATE_RATE (r % 2 ^ 32).toNat).tick

/-- Step by −θ, and let the averages start anew. -/
def stepBack (theta : Int) (s : State) : State :=
  let d := openDiv (-theta) 16 s
  let s1 := stepTo (moveTime d s.now) s.tick
  { s1 with ftm := { s1.ftm with offsets := [], inBound := 0, outBound := 0 } }

/-- Take an offset of the active parent, or of the pulse, into the average and report it. -/
def takeOffset (theta : Int) (s : State) : State :=
  let n := 2 ^ s.get FTM_CFG_AVG
  let l := (theta :: s.ftm.offsets).take n
  let s1 := { s with ftm := { s.ftm with offsets := l } }
  if l.length < n then s1
  else (s1.set FTM_OFFSET_OFFSET (openDiv l.sum n s % 2 ^ 32).toNat).tick

/-- Correct the counter by one offset. -/
def discipline (theta : Int) (s : State) : State :=
  let alarm : Int := s.get FTM_THR_ALARM * 16
  let far := decide ((s.get FTM_THR_STEPTHR * 16 : Int) < theta.natAbs)
  let near := decide ((theta.natAbs : Int) ≤ alarm)
  let n := 2 ^ s.get FTM_CFG_AVG
  let s1 := takeOffset theta (if near then s.set FTM_STAT_HOLD 0 else s)
  if far then
    stepBack theta (if s.isSet FTM_STAT_SYNC then event 0x9003 srcTime (s1.set FTM_STAT_SYNC 0) else s1)
  else if s.isSet FTM_STAT_SYNC then
    let k := if near then 0 else s1.ftm.outBound + 1
    let s2 := slew { s1 with ftm := { s1.ftm with outBound := k } }
    if k = 64 then event 0x9008 srcTime s2 else s2
  else
    let l := s1.ftm.offsets
    let inside := l.length == n && decide ((l.sum.natAbs : Int) ≤ alarm * n)
    let k := if inside then s1.ftm.inBound + 1 else 0
    let s2 := slew { s1 with ftm := { s1.ftm with inBound := if k = 64 then 0 else k } }
    if k = 64 then event 0x9001 srcTime (s2.set FTM_STAT_SYNC 1) else s2

/-! ### The exchange (R349, R350) -/

/-- A time in 1/16 tick as its tick and fraction fields. -/
def timeField (i f t : Nat) : List PayField := [(i, 8, t / 16), (f, 1, t % 16)]
/-- A time in 1/16 tick read from a payload. -/
def timeRead (c : CellBits) (i f : Nat) : Nat := payNat c i 8 * 16 + payNat c f 1 % 16

/-- This tick's departure time in 1/16 tick: the fraction is a free value. -/
def State.departure (s : State) : Nat := s.now * 16 + (s.fresh 4).toNat

def execTimeRequestSend (n : LinkId) (s : State) : Res :=
  .next (if !s.timeLink n then s
    else
      let s1 := adoptRole s
      let x := tabGet (fun _ => 0) s1.ftm.xseq n
      let t1 := s1.departure
      let s2 := s1.tick
      let s3 := (sendLocal n ctTime (payload ([(0, 1, 1), (3, 1, x)] ++ s2.timeSelf ++ timeField 4 12 t1)) s2).tick
      { s3 with ftm := { s3.ftm with
        xseq := tabPut (fun _ => 0) s3.ftm.xseq n ((x + 1) % 256)
        asked := tabPut (fun _ => none) s3.ftm.asked n (some (x, t1)) } })

def execTimeRequest (n : LinkId) (cell : BitVec 640) (t : Nat) (s : State) : Res :=
  .next (settleFab (if cType cell ≠ ctTime ∨ payNat cell 0 1 ≠ 1 then s
    else
      let r := receive n cell (carry t s)
      if !r.2 || !r.1.timeLink n then r.1
      else
        let s1 := adoptRole r.1
        let t3 := s1.departure
        let s2 := s1.tick
        (sendLocal n ctTime (payload ([(0, 1, 2), (3, 1, payNat cell 3 1)] ++ s2.timeSelf ++
          timeField 4 12 (timeRead cell 4 12) ++ timeField 16 24 t ++ timeField 28 36 t3)) s2).tick))

/-- Delay and offset of an exchange, in 1/16 tick; an odd sum is halved either way. -/
def exchange (t1 t2 t3 t4 : Nat) (a : Int) (s : State) : Int × Int :=
  let x : Int := t2 - t1
  let y : Int := t4 - t3
  (openDiv (x + y) 2 s, openDiv (y - x) 2 s.tick + a)

/-- FTM_LASYM_n as a number. -/
def State.asym (s : State) (n : Nat) : Int := (BitVec.ofNat 16 (s.get (FTM_LASYM_A n))).toInt

/-- Report an exchange in FTM_LNK_n; a value the fields cannot hold leaves a free one there. -/
def reportExchange (n : Nat) (d theta : Int) (s : State) : State :=
  let dv := if 0 ≤ d ∧ d < 2 ^ 32 then d.toNat else (s.fresh 32).toNat
  let tv := if -2 ^ 31 ≤ theta ∧ theta < 2 ^ 31 then (theta % 2 ^ 32).toNat else (s.tick.fresh 32).toNat
  (((s.set (FTM_LNK_D n) dv).set (FTM_LNK_THETA n) tv).tick).tick

/-- A follower in holdover whose PARENT stays unusable switches to an ALTPARENT that has become usable (R348). -/
def takeAlternate (n : Nat) (s : State) : State :=
  let parent := s.ftm.role.2.1
  if s.get FTM_STAT_ACTPARENT = 31 ∧ s.isSet FTM_STAT_HOLD ∧ !s.isSet FTM_STAT_LOOP ∧ s.isSet FTM_CFG_ALTEN ∧ n = s.ftm.role.2.2 ∧ n ≠ parent
      ∧ s.usable n ∧ !s.usable parent then
    eventD 0x9002 srcTime (parent + n * 256) (newParent n s)
  else s

/-- The follower's part of a reply: its parent chosen, its DEPTH checked, its counter disciplined. -/
def followReply (n : Nat) (r : TimeHeard) (theta : Int) (s : State) : State :=
  let act := s.get FTM_STAT_ACTPARENT
  let parent := s.ftm.role.2.1
  if (n = parent ∨ n = act) ∧ 127 < r.depth + 1 then
    if s.isSet FTM_STAT_LOOP then s
    else event 0x9007 srcTime (newParent 31 ((s.set FTM_STAT_LOOP 1).set FTM_STAT_HOLD 1))
  else
    let s1 := if n = parent ∧ act ≠ n ∧ s.usable n then (newParent n s).set FTM_STAT_LOOP 0 else takeAlternate n s
    if s1.get FTM_STAT_ACTPARENT = n ∧ s1.usable n then
      let s2 := ((s1.set FTM_STAT_DEPTH (r.depth + 1)).set FTM_STAT_UPHOLD r.hold.toNat).inc FTM_XCNT_CNT 1
      discipline theta { s2 with ftm := { s2.ftm with root := some r.root } }
    else s1

def execTimeReply (n : LinkId) (cell : BitVec 640) (t : Nat) (s : State) : Res :=
  .next (settleFab (if cType cell ≠ ctTime ∨ payNat cell 0 1 ≠ 2 then s
    else
      let r := receive n cell (carry t s)
      if !r.2 || !r.1.timeLink n then r.1
      else
        let s1 := adoptRole r.1
        match tabGet (fun _ => none) s1.ftm.asked n with
        | none => s1
        | some (x, t1) =>
            if payNat cell 3 1 ≠ x then s1
            else
              let flags := payNat cell 1 1
              let h : TimeHeard := ⟨flags.testBit 0, flags.testBit 1, payNat cell 2 1, payNat cell 40 2, s1.now⟩
              let s2 := { s1 with ftm := { s1.ftm with
                asked := tabPut (fun _ => none) s1.ftm.asked n none
                heard := tabPut (fun _ => none) s1.ftm.heard n (some h) } }
              let e := exchange t1 (timeRead cell 16 24) (timeRead cell 28 36) t (s2.asym n) s2
              let s3 := reportExchange n e.1 e.2 s2.tick.tick
              if s3.ftm.role.1 = 2 then followReply n h e.2 s3 else s3))

/-! ### TIME_PPS (R353) -/

/-- Ticks in a second. -/
abbrev secondTicks : Nat := 4000000000

/-- The pulse is lost or out of tolerance. -/
def ppsLost (s : State) : State :=
  event 0x9005 srcTime (((s.set FTM_STAT_PPSLOCK 0).set FTM_STAT_HOLD 1))

/-- An edge's offset from the nearest second, in 1/16 tick. -/
def State.ppsOffset (s : State) (t : Nat) : Int :=
  let m : Int := secondTicks * 16
  let x : Int := (t - s.get FTM_PPSOFF_OFF * 16 : Int) % m
  if x * 2 < m then x else x - m

def execTimePpsInEdge (t : Nat) (s : State) : Res :=
  let s0 := adoptRole (carry t s)
  .next (if s0.ftm.role.1 ≠ 1 then s0
    else
      let s1 := s0.wr aFTM_PPSCAPT (BitVec.ofNat 64 t)
      let theta := s1.ppsOffset t
      if 64000000 < theta.natAbs then
        let k := s1.ftm.ppsIgnored + 1
        let s2 := { s1.inc FTM_PPSIGN_CNT 1 with ftm := { s1.ftm with ppsIgnored := k, ppsGood := 0 } }
        if k = 4 then ppsLost s2 else s2
      else if s1.ftm.loadDue then
        stepTo (s1.rd aFTM_LOADVAL).toNat { s1 with ftm := { s1.ftm with ppsIgnored := 0, loadDue := false, offsets := [] } }
      else
        let k := if theta.natAbs ≤ s1.get FTM_THR_ALARM * 16 then min 4 (s1.ftm.ppsGood + 1) else 0
        let s2 := { s1 with ftm := { s1.ftm with ppsIgnored := 0, ppsGood := k } }
        discipline theta (if k = 4 then s2.set FTM_STAT_PPSLOCK 1 else s2))

def execPpsLoss (s : State) : Res :=
  let s1 := adoptRole s
  .next (if s1.ftm.role.1 = 1 ∧ (s1.isSet FTM_STAT_PPSLOCK || !s1.isSet FTM_STAT_HOLD) then
      ppsLost { s1 with ftm := { s1.ftm with ppsGood := 0 } } else s1)

/-- TIME_PPS_OUT is driven high for 100 µs from a second of fabric time. -/
def execTimePpsOutPulse (s : State) : Res :=
  .next (if s.isSet FTM_PPSCFG_OUTEN then
      let r := (s.now + secondTicks - s.get FTM_PPSOFF_OFF % secondTicks) % secondTicks
      let t := if r = 0 then s.now else s.now + (secondTicks - r)
      let s1 := (carry (t * 16) s).emit (.pin .timePpsOut true)
      (carry ((t + 400000) * 16) s1).emit (.pin .timePpsOut false)
    else s)

/-! ### FTM_CTRL (R353, R361) -/

/-- LOAD: at once in MODE 0, at the next accepted edge in MODE 1, discarded in MODE 2 and 3. -/
def ftmLoad (s : State) : State :=
  let mode := s.get FTM_CFG_MODE
  if mode = 0 then stepTo (s.rd aFTM_LOADVAL).toNat s
  else if mode = 1 then { s with ftm := { s.ftm with loadDue := true } }
  else event 0x9006 srcTime s

/-- What a write of FTM_CTRL does. -/
def ftmCtrl (v : Nat) (s : State) : State :=
  let s1 := if v.testBit 3 then s.wr aFTM_CAPT (s.rd aFTM_NOW) else s
  let s2 := if v.testBit 1 then (s1.wr aFTM_XCNT 0).wr aFTM_PPSIGN 0 else s1
  if v.testBit 2 then ftmLoad s2 else s2

def execCapt (p : PortId) (s : State) : Res := .next (ownerWrite p aFTM_CTRL (ftmCtrl 8) s)
def execFtmLoad (p : PortId) (s : State) : Res := .next (ownerWrite p aFTM_CTRL (ftmCtrl 4) s)
def execFtmCntClr (p : PortId) (s : State) : Res := .next (ownerWrite p aFTM_CTRL (ftmCtrl 2) s)

end Sys2Proof.Machine
end

