-- ==== Sys2Proof/Machine/Reset.lean ====
section
/-! DEFINITION. The event recorder's own rows, the resets, and the start-up sequence with the check of the firmware image
(R177, R191, R193, R400 to R406, R423 to R434, R440 to R445, R457 to R460, R470). -/

namespace Sys2Proof.Machine

/-! ### Recorder rows (R423, R437, R441 to R444) -/

/-- A queue's fetch meets an uncorrectable line of its instruction memory, and freezes it, RESUME 0 (R430). -/
def imemFails (q : Nat) (s : State) : State :=
  let pc := s.get (QUE_STAT_PC q)
  let s1 := s.setQue q { s.que q with bad := (s.que q).bad ++ [pc / 2] }
  if s.qstate q = qRunning ∧ s1.fetchFails q then
    freezeQueue q 0x300C 0 (s.headCmd q).1 0 (s1.setQue q { s1.que q with waited := false, chosen := false })
  else s1

/-- The element program store fails under the command in progress, which aborts; how far its writes had begun is a free value
(R430). -/
def storeFails (t : Nat) (s : State) : State :=
  match s.inEngine (t * 5 + 2) with
  | some e => showEngine (t * 5 + 2) (freezeQueue (t * 5 + 2) 0x2001 0 e.idx 0 (abortWork (t * 5 + 2) (s.fresh 16).toNat e s.tick))
  | none => s

/-- A wheel's staging SRAM fails under its collective: STATUS 7 (R430). -/
def stagingFails (a : Nat) (s : State) : State :=
  match (s.wheel a).coll with
  | some c =>
      let s1 := endQuietly a c 7 c.r.1 (abortBoth a c 7 s)
      settleFab (freezeQueue (120 + a) 0x8007 0 c.idx 0 (setIssued (120 + a) c.uid (fun e => { e with status := .rerun }) s1))
  | none => s

/-- A bank read of an engine is uncorrectable: one of its groups, which a free value names, becomes invalid (R73). -/
def bankFails (k : Nat) (s : State) : State := (s.setGroup (k * 256 + (s.fresh 8).toNat) false).tick

/-- What the unit that detects an occurrence does besides reporting it, where no other row of the table is that detection: errors
of the memories inside the units (R73, R430) and of a bridge, which is not crossed from then on (R426) (log entry 11). -/
def unitEffect (code src : Nat) (detail : Word) (s : State) : State :=
  if code = 0x500D then { s with badBridges := putBits s.badBridges (detail.toNat % 8) 1 1 }
  else if code = 0x300C then (match (List.range 125).find? fun q => srcQueue q == src with
    | some q => imemFails q s
    | none => s)
  else if code = 0x2001 then (match (List.range 24).find? fun t => srcTile t 2 0 == src with
    | some t => storeFails t s
    | none => s)
  else if code = 0x8007 then (match (List.range 4).find? fun a => srcWheel a == src with
    | some a => stagingFails a s
    | none => s)
  else if code = 0x1006 then (match (List.range 48).find? fun k => srcTile (k / 2) (k % 2) 0 == src with
    | some k => bankFails k s
    | none => s)
  else s

/-- An uncorrectable ring record is overwritten with VALID = 0, and nothing is recorded (R430). -/
def voidRecord (slot : Nat) (s : State) : State := s.set ⟨aEVR_REC slot 3, 56, 8⟩ 0

/-- An occurrence reaches the recorder, and its unit acts on it; an error of the always-on store that the recorder finds in a ring
record, in the slot the detail names, voids it. -/
def execEventRecord (code source : BitVec 16) (detail : BitVec 64) (s : State) : Res :=
  .next (if code = 0x500E ∧ source.toNat = srcRecorder then voidRecord (detail.toNat % 4096) s
    else recordEvent code.toNat source.toNat detail (unitEffect code.toNat source.toNat detail s))

def execBridgeError (b : Fin 8) (s : State) : Res :=
  .next (eventD 0x500D srcDevice b { s with badBridges := putBits s.badBridges b 1 1 })

/-- One second's refill of every token bucket (R441). -/
def execTokenRefill (s : State) : Res :=
  let refill (k : Nat) : Nat := if k % 2 = 1 then s.get EVR_RATE_AREFILL else s.get EVR_RATE_GREFILL
  .next { s with evr := { s.evr with spent := s.evr.spent.filterMap fun (e : Nat × Nat) =>
    (if e.2 ≤ refill e.1 then none else some (e.1, e.2 - refill e.1)) } }

def execEvrFaultClear (p : PortId) (s : State) : Res := .next (ownerWrite p aEVR_STAT (writeReg aEVR_STAT (2 ^ 31)) s)

/-- Write EVR_CTRL: its RW field, and CNT_CLR. -/
def evrCtrl (v wlo whi : Nat) (s : State) : State :=
  let s1 := writeBits aEVR_CTRL v wlo whi s
  if v.testBit 0 ∧ wlo = 0 then s1.wr aEVR_DROPCNT 0 else s1

def execEvrCntClr (p : PortId) (s : State) : Res :=
  .next (ownerWrite p aEVR_CTRL (evrCtrl ((s.rd aEVR_CTRL).toNat / 2 * 2 + 1) 0 31) s)

/-- The ring record of slot `i` as one number. -/
def State.ringRecord (s : State) (i : Nat) : BitVec 256 :=
  (s.rd (aEVR_REC i 3)) ++ (s.rd (aEVR_REC i 2)) ++ (s.rd (aEVR_REC i 1)) ++ (s.rd (aEVR_REC i 0))

/-- Write a red record's flash copy, with the next copy number (R442). -/
def writeCopy (seq : Nat) (s : State) : State :=
  let i := seq % 4096
  let num := match s.evr.flash.getLast? with
    | some e => e.1 + 1
    | none => 0
  if getBits (s.rd (aEVR_REC i 1)).toNat 0 32 ≠ seq then s
  else
    let flash := s.evr.flash ++ [(num, s.ringRecord i)]
    let s1 := { s with evr := { s.evr with flash := flash.drop (flash.length - 64) } }
    s1.set ⟨aEVR_REC i 2, 25, 1⟩ 1

/-- The valid slots are loaded at boot, oldest first. -/
def loadFlashRing (s : State) : State :=
  let s1 := s.resetRegs (aEVR_FLASH 0 0) 0x800
  let s2 := forAll ((List.range 64).zip s.evr.flash) (fun e s =>
    forAll (List.range 4) (fun w s => s.wr (aEVR_FLASH e.1 w) (e.2.2.extractLsb' (64 * w) 64)) s) s1
  s2.set EVR_FLCNT_CNT s.evr.flash.length

/-! ### What an interrupted duty leaves (R405, R407, R434) -/

/-- A firmware update is interrupted: flash being written is left undefined. -/
def interruptUpdate (m : MgtSt) : MgtSt :=
  match m.update with
  | some j => { m with update := none, flash := if j.writing then .torn else m.flash }
  | none => m

/-- A commit is interrupted: some of the fuses are blown, how many is a free value. -/
def interruptCommit (s : State) : State :=
  match s.mgt.commit with
  | some v =>
      let old := s.get SEC_SVN_FUSED
      { (s.set SEC_SVN_FUSED (old + (s.fresh 8).toNat % (v - old + 1))).tick with mgt := { s.mgt with commit := none } }
  | none => s

/-- What the management core, the flash and the security block keep over a device or cold reset. -/
def keptMgt (m : MgtSt) : MgtSt :=
  let k := interruptUpdate m
  { flash := k.flash, tag := k.tag }

/-! ### Start-up (R400, R401, R457, R458, R470) -/

/-- Whether every supply is valid. -/
def State.supplied (s : State) : Bool := s.get PWR_STAT_VALID == 2047

/-- Whether one supply is valid. -/
def State.railUp (s : State) (r : Nat) : Bool := (s.get PWR_STAT_VALID).testBit r

def setPhaseBoot (ph : BootPhase) (s : State) : State := { s with boot := { s.boot with phase := ph } }

/-- The sequence goes on from its start when every supply is valid and RESET_N is high: t0 of a cold reset, where the
straps are sampled and TESTEN keeps the device from readiness, or the boot ROM phase of a device reset. -/
def tryStart (s : State) : State :=
  if s.boot.phase = .held ∧ s.supplied ∧ s.boot.resetN then
    if s.boot.cold then setPhaseBoot (if s.boot.straps.testBit 2 then .stuck else .rom) s
    else (setPhaseBoot .rom s).set GLB_BOOT_STATE 1
  else s

/-! ### Cold reset (R431, R432, R457, R465) -/

/-- Everything at its reset value, but what no reset reaches: the pins, the fuses, the flash, the memory arrays (written
later in the sequence), and THERMTRIP_N while a sensor still reads 105 °C or more. -/
def coldReset (s : State) : State :=
  let s0 := interruptCommit s
  let hot := (List.range 26).any fun n => decide (1050 ≤ (BitVec.ofNat 16 (s0.get (PWR_TEMP_TEMP n))).toInt)
  let torn := s0.evr.copies != [] && s0.railUp 4 && decide (s0.evr.flash.length = 64)
  let r : State := { State.reset with
    mem := s0.mem
    poison := s0.poison
    errs := s0.errs
    nextUid := s0.nextUid
    ports := (tabPut (fun _ => {}) (tabPut (fun _ => {}) [] 0 { perst := (s0.port 0).perst }) 1 { perst := (s0.port 1).perst })
    mgt := keptMgt s0.mgt
    evr := { flash := if torn then s0.evr.flash.drop 1 else s0.evr.flash }
    boot := { resetN := s0.boot.resetN, straps := s0.boot.straps }
    tap := s0.tap
    out := s0.out
    freeCtr := s0.freeCtr
    pending := s0.pending }
  let r1 := ((r.set PWR_STAT_VALID (s0.get PWR_STAT_VALID)).set PWR_STAT_PROCHOT (s0.get PWR_STAT_PROCHOT)).set
    PWR_STAT_TRIP (hot && s0.isSet PWR_STAT_TRIP).toNat
  (r1.set SEC_SVN_FUSED (s0.get SEC_SVN_FUSED)).wr aSEC_TAGWR (s0.rd aSEC_TAGWR)

/-- RESET_N is driven low. -/
def execColdReset (s : State) : Res :=
  let s1 := coldReset s
  .next { s1 with boot := { s1.boot with resetN := false } }

def execResetNRise (straps : BitVec 3) (s : State) : Res :=
  .next (if s.boot.resetN then s else tryStart { s with boot := { s.boot with resetN := true, straps := straps.toNat } })

/-! ### Device reset (R401, R427, R431, R432) -/

/-- The identity registers and what they hold from the memory clear phase on (R408, R419): the RU4100-A's part number and its
stepping B1. -/
def identityRegs : List (Nat × Word) :=
  [(aGLB_SERIAL, Config.serial), (aGLB_PARTNO, 0x41004100), (aGLB_STEPPING, 0x11)] ++
    (List.range 6).map (fun n => (aGLB_DIEID n, Config.dieId n)) ++ (List.range 16).map fun n => (aGLB_STACKID n, Config.stackId n)

/-- The registers a device reset keeps: GLB_ROLEGEN, the mailboxes, EVR, FTM, the host and DMA blocks, what BAR2 alone
presents, MGT_EID and SEC_TAGWR. -/
def keptByDeviceReset (a : Nat) : Bool :=
  a == aGLB_ROLEGEN || a == aMGT_EID || a == aSEC_TAGWR || identityRegs.any (fun e => e.1 == a) || (decide (0x180000 ≤ a) && decide (a < 0x18C000)) ||
    (decide (0x200000 ≤ a) && decide (a < 0x400000)) || (decide (0x3C80000 ≤ a) && decide (a < 0x4000000)) || decide (0x8000000 ≤ a)

/-- The pending posts of both ports end unreachable. -/
def endPosts (s : State) : State :=
  forAll [0, 1] (fun p s => forAll ((s.port p).posts.map (·.1)) (fun k s => hostPostOutcome p k 3 s) s) s

/-- The units lose what they hold; flags, registers and engines return to reset values. -/
def wipeDevice (s : State) : State :=
  let busy := (List.range 25).filter s.ldBusy
  let s0 := forAll busy abortLoader s
  let pwr := (s0.get PWR_STAT_VALID, s0.get PWR_STAT_PROCHOT, s0.get PWR_STAT_TRIP, s0.get SEC_SVN_FUSED)
  let s1 : State := { s0 with
    regs := s0.regs.filter fun (e : Nat × Word) => keptByDeviceReset e.1
    rowErr := []
    seedPend := 0
    imem := []
    ques := []
    banks := []
    landings := []
    mxes := []
    gates := []
    links := []
    wheels := []
    loads := []
    badBridges := 0
    mgt := keptMgt s0.mgt
    pwr := { slow := s0.pwr.slow, doubled := s0.pwr.doubled }
    eventReceiver := none
    evr := { s0.evr with escalate := none } }
  let s2 := ((s1.set PWR_STAT_VALID pwr.1).set PWR_STAT_PROCHOT pwr.2.1).set PWR_STAT_TRIP pwr.2.2.1
  let s3 := forAll busy (fun g s => s.set (TIL_LDSTAT_STATE g) ldAborted) (s2.set SEC_SVN_FUSED pwr.2.2.2)
  forAll (List.range 24) loseSlots s3

/-- A device reset, its cause and code in GLB_RSTCAUSE.  It begins with the boot ROM phase, or holds until every supply is
valid. -/
def deviceReset (cause code : Nat) (s : State) : State :=
  let s1 := endPosts (s.set PRT_PLANSTAT_ARMED 0)
  let s2 := forAll (List.range 32) (fun k s => dmaResetStop (k / 16) (k % 16) s) (s1.setFab {})
  let s3 := wipeDevice (interruptCommit (clearMailboxes 32 srcCore s2))
  let s4 := ((s3.inc GLB_ROLEGEN_RGEN 1).set EVR_STAT_RED 0).set EVR_STAT_HELD 0
  let s5 := (s4.set GLB_RSTCAUSE_LAST cause).set GLB_RSTCAUSE_CODE code
  tryStart ({ s5 with boot := { s5.boot with phase := .held, cold := false, waiting := false } }.set GLB_BOOT_STATE 1)

/-- Write GLB_RESET: the key resets the device, after a flash copy that is in progress (R434). -/
def glbReset (v : Nat) (s : State) : State :=
  if v % 256 ≠ 0xD5 then s
  else if s.evr.copies ≠ [] ∧ s.railUp 4 then { s with boot := { s.boot with waiting := true } }
  else deviceReset 1 0 s

def execDeviceReset (p : PortId) (key : BitVec 8) (s : State) : Res := .next (ownerWrite p aGLB_RESET (glbReset key.toNat) s)

/-- A red record's flash copy completes, or fails its read-back and is retried once (R442). -/
def execRedFlashCopy (ok : Bool) (s : State) : Res :=
  .next (match s.evr.copies with
    | [] => s
    | seq :: rest =>
        if !s.railUp 4 then s
        else if !ok && !s.evr.retried then { s with evr := { s.evr with retried := true } }
        else
          let s1 := if ok then writeCopy seq s else event 0xB007 srcRecorder s
          let s2 := { s1 with evr := { s1.evr with copies := rest ++ s1.evr.copies.drop (rest.length + 1), retried := false } }
          if s2.evr.copies = [] ∧ s2.boot.waiting then deviceReset 1 0 s2 else s2)

/-- Ticks of an hour. -/
def hourTicks : Nat := 3600 * secondTicks

/-- A red event escalates, or the limit withholds the reset (R427). -/
def execRedEscalation (s : State) : Res :=
  .next (match s.evr.escalate with
    | none => s
    | some code =>
        let recent := s.evr.escTimes.filter fun t => decide (s.since t < hourTicks)
        let s1 := { s with evr := { s.evr with escalate := none, escTimes := recent } }
        if recent.length < s.get EVR_ESC_LIMIT then
          let s2 := { s1 with evr := { s1.evr with escTimes := recent ++ [s.now] } }
          deviceReset 2 code (s2.set EVR_STAT_ESCCNT (min 255 (recent.length + 1)))
        else (event 0xB008 srcRecorder (s1.set EVR_STAT_ESCCNT (min 255 recent.length))).set EVR_STAT_HELD 1)

/-! ### Tile reset (R432, R433) -/

/-- The remote work of a queue is called off; the outcome of what has gone is discarded. -/
def abandonRemote (q : Nat) (s : State) : State :=
  let gone (m : Send) : Bool := match m.origin with
    | .remote q' _ _ => q' == q
    | _ => false
  let orphan (m : Send) : Bool := match m.origin with
    | .signal q' _ _ => q' == q
    | .post q' => q' == q
    | _ => false
  let s1 := dropSends gone s
  s1.setFab { s1.fab with
    sends := s1.fab.sends.map fun m => if orphan m then { m with origin := .none } else m
    hostReads := s1.fab.hostReads.filter fun h => h.q != q }

/-- Reset tile `t`: commands abort without poisoning, and the tile ends power-gated. -/
def tileReset (t : Nat) (s : State) : State :=
  let b := 0x1000000 + t * 0x100000
  let busy := s.ldBusy t
  let gate := (s.rd (aTIL_GATE t)).toNat
  let s1 := forAll (setQueues t) (fun q s => (abandonRemote q s).setQue q {}) (abortLoader t s)
  let s2 := (s1.resetRegs b 0x200).resetRegs (b + 0x280) (0x100000 - 0x280)
  let s3 := s2.wr (aTIL_GATE t) (BitVec.ofNat 64 (putBits gate 30 2 2))
  let s4 : State := { s3 with
    banks := tabClear s3.banks (t * 4 * 2048 * 128) (4 * 2048 * 128)
    landings := tabClear s3.landings (t * 4 * 2048) (4 * 2048)
    mxes := tabClear s3.mxes (t * 2) 2
    gates := tabClear s3.gates t 1
    loads := tabClear s3.loads t 1 }
  let s5 := setMeasurement (measureIndex t) none (loseSlots t (loseImem t s4))
  if busy then s5.set (TIL_LDSTAT_STATE t) ldAborted else s5

def execTileReset (p : PortId) (t : TileId) (s : State) : Res := .next (ownerWrite p aGLB_TILERST (tileReset t) s)

/-! ### The firmware image (R402, R404) -/

/-- Byte `i` of an image; flash beyond what has been programmed is erased. -/
def imgByte (bs : List Byte) (i : Nat) : Nat := (bs.getD i 0xFF).toNat
/-- `n` bytes of an image from byte `i`. -/
def imgBytes (bs : List Byte) (i n : Nat) : List Nat :=
  let l := ((bs.drop i).take n).map (·.toNat)
  l ++ List.replicate (n - l.length) 0xFF
def imgNat (bs : List Byte) (i n : Nat) : Nat := leNat (imgBytes bs i n)
def imgLength (bs : List Byte) : Nat := imgNat bs 8 4
def imgSvn (bs : List Byte) : Nat := imgNat bs 12 4
def imgFwver (bs : List Byte) : Nat := imgNat bs 16 4

/-- The bytes the signature covers. -/
def signedBytes (bs : List Byte) : List Nat := imgBytes bs 0 (512 + imgLength bs)

/-- R404's conditions that the header alone decides, in its order; 0 when they hold, else R406's CAUSE. -/
def headerCause (bs : List Byte) (s : State) : Nat :=
  let len := imgLength bs
  if imgNat bs 0 4 ≠ 0x46545552 ∨ imgNat bs 4 2 ≠ 1 ∨ imgNat bs 6 2 ≠ 0 ∨ imgNat bs 20 12 ≠ 0 ∨ imgNat bs 420 92 ≠ 0 then 1
  else if len % 64 ≠ 0 ∨ 16776320 < len then 5
  else if sha256 (imgBytes bs 32 388) ≠ (List.range 8).flatMap (fun k => leBytes 4 (s.rd (aSEC_KEYHASH k)).toNat) then 2
  else if imgSvn bs < s.get SEC_SVN_FUSED then 4
  else 0

/-- Whether the signature verifies under the key of the image. -/
def signatureOk (bs : List Byte) : Bool :=
  pssVerify (beNat (imgBytes bs 32 384)) (imgNat bs 416 4) (signedBytes bs) (imgBytes bs (512 + imgLength bs) 384)

/-- R406's CAUSE of an image: 0 when it is valid.  The signature is checked before SVN. -/
def imageCause (bs : List Byte) (s : State) : Nat :=
  let h := headerCause bs s
  if h ≠ 0 ∧ h ≠ 4 then h else if !signatureOk bs then 3 else h

/-- The CAUSE of the image in flash; that of undefined contents is a free value. -/
def flashCause (s : State) : Nat :=
  match s.mgt.flash with
  | .factory => if 1 < s.get SEC_SVN_FUSED then 4 else 0
  | .holds bs => imageCause bs s
  | .torn => 1 + (s.fresh 8).toNat % 5

/-- FWVER, SVN and the digest of the signed bytes of the image in flash. -/
def Flash.fwver : Flash → Nat
  | .factory => Config.factoryFwver.toNat
  | .holds bs => imgFwver bs
  | .torn => 0
def Flash.svn : Flash → Nat
  | .factory => 1
  | .holds bs => imgSvn bs
  | .torn => 0
def Flash.digest : Flash → List Byte
  | .factory => (List.range 32).map Config.factoryDigest
  | .holds bs => (sha256 (signedBytes bs)).map (BitVec.ofNat 8)
  | .torn => []

/-- Enter recovery (R406). -/
def recovery (cause : Nat) (s : State) : State :=
  eventD 0xC001 srcSecurity cause (setPhaseBoot .recovery (((s.set GLB_BOOT_STATE 5).set GLB_BOOT_CAUSE cause).set GLB_BOOT_FLASHV 0))

/-- The boot ROM checks the image and boots it, or enters recovery; the recorder loads its flash ring. -/
def execBootRomCheck (s : State) : Res :=
  .next (if s.boot.phase ≠ .rom then s
    else
      let s1 := loadFlashRing s
      let c := flashCause s1
      if c = 0 then setPhaseBoot .firmware ((s1.set GLB_BOOT_STATE 2).set GLB_BOOT_FLASHV 1) else recovery c s1.tick)

/-- The firmware starts: the core runs, and the rails are set. -/
def execFirmwareStart (s : State) : Res :=
  .next (if s.boot.phase ≠ .firmware then s
    else
      let f := s.mgt.flash
      let s1 := ((s.wr aGLB_FWVER (BitVec.ofNat 64 f.fwver)).set SEC_SVN_IMAGE f.svn).set GLB_BOOT_MGTRUN 1
      let s2 := ((s1.set MGT_STAT_RUN 1).set MGT_LIBIDX_VERSION (Config.libVersion f.fwver).toNat).set MGT_LIBIDX_COUNT 6
      let s3 := { s2 with mgt := { s2.mgt with running := f.digest } }
      setPhaseBoot .memory (forAll (List.range 5) writeSetpoint s3))

/-- The stacks and packages are trained; one that fails keeps the device from readiness (R177).  The identity registers are
loaded as the memory clear begins (R400, R408). -/
def execMemoryInitialisation (refused : List (Fin 20)) (s : State) : Res :=
  .next (if s.boot.phase ≠ .memory then s
    else
      let one (u : Fin 20) (s : State) : State :=
        let bad := refused.contains u
        let s1 := if u.val < 16 then (s.set (HBC_STAT_STATE u) (if bad then 2 else 1)).set (HBC_STAT_EXT u) (!bad).toNat
          else s.set (LPC_STAT_STATE (u - 16)) (if bad then 2 else 1)
        if bad then event 0x500C (if u.val < 16 then srcStack u else srcPackage (u - 16)) s1 else s1
      let s1 := forAll (List.finRange 20) one s
      if refused ≠ [] then setPhaseBoot .stuck s1
      else if s.boot.cold || s.boot.lost then setPhaseBoot .clear (forAll identityRegs (fun e s => s.wr e.1 e.2) (s1.set GLB_BOOT_STATE 3))
      else setPhaseBoot .last s1)

/-- Every line is written with zeros and valid check bytes (R193). -/
def execMemoryClear (s : State) : Res :=
  .next (if s.boot.phase ≠ .clear then s
    else setPhaseBoot .last { s with
      mem := []
      poison := []
      errs := []
      boot := { s.boot with lost := false } })

/-- The device becomes ready (R400, R443). -/
def execDeviceReady (ms : BitVec 16) (s : State) : Res :=
  .next (if s.boot.phase ≠ .last then s
    else
      let s1 := setPhaseBoot .done ((s.set GLB_BOOT_STATE 4).set GLB_BOOT_BOOTMS ms.toNat)
      let s2 := if s.boot.cold then s1 else eventD 0xB006 srcRecorder (s1.rd aGLB_RSTCAUSE).toNat s1
      forAll (List.range 24) (fun n s => if s.isSet (LNK_CTRL_EN n) then startTraining n s else s) s2)

/-! ### Supplies (R457, R459, R460) -/

/-- A supply becomes valid. -/
def execSupplyValid (r : Rail) (s : State) : Res :=
  .next (tryStart (s.set PWR_STAT_VALID (putBits (s.get PWR_STAT_VALID) r 1 1)))

/-- A supply is lost: a cold reset for the always-on domain; for another, once past t0, the red event, and a device reset
that has begun holds at its start. -/
def execSupplyLoss (r : Rail) (s : State) : Res :=
  let s1 := s.set PWR_STAT_VALID (putBits (s.get PWR_STAT_VALID) r 1 0)
  .next (if !s.railUp r then s
    else if r.val = 10 then { coldReset s1 with tap := {} }
    else if s.boot.phase = .held ∧ s.boot.cold then s1
    else
      let s2 := if 6 ≤ r.val then { s1 with boot := { s1.boot with lost := true } } else s1
      let s3 := eventD 0xD004 (srcPower r) r s2
      if !s.boot.cold ∧ s.boot.phase ≠ .done then (setPhaseBoot .held s3).set GLB_BOOT_STATE 1 else s3)

def execSupplyDip (r : Rail) (s : State) : Res :=
  .next (if s.railUp r then event 0xD00B (srcPower r) s else s)

/-! ### The patrol scrubber (R191) -/

/-- The scrubber reads a line that has taken some symbol errors. -/
def execPatrolScrub (addr : BitVec 48) (errs : List (Fin 68 × BitVec 8)) (s : State) : Res :=
  let line := addr.toNat / 64
  let on := match homeOf addr.toNat with
    | .stack _ => s.isSet HBC_CTRL_SCRUB_EN
    | .package _ => s.isSet LPC_CTRL_SCRUB_EN
    | .pad _ => true
    | .none => false
  .next (if !s.ready || homeOf addr.toNat == .none then s
    else
      let s1 := forAll errs (fun e s => s.setErr line e.1 (tabGet (fun _ => 0) s.errs (line * 68 + e.1) ^^^ e.2)) s
      if on then readLine true line s1 else s1)

end Sys2Proof.Machine
end

