-- ==== Sys2Proof/Machine/Mgmt.lean ====
section
/-! DEFINITION. The management core: its load and watchdog, mailbox services, SPDM and PLDM answers, firmware updates and the
anti-rollback counter (R397 to R421). -/

namespace Sys2Proof.Machine

def State.setMgt (s : State) (m : MgtSt) : State := { s with mgt := m }

/-- Whether the management core runs. -/
def State.coreRuns (s : State) : Bool := s.isSet MGT_STAT_RUN
/-- Whether it serves everything: the device is ready and the core runs. -/
def State.coreServes (s : State) : Bool := s.ready && s.coreRuns

/-! ### Telemetry (R398, R415) -/

/-- The device-state sensor: 0 booting, 1 ready, 2 recovery, 3 management core halted. -/
def State.deviceState (s : State) : Nat :=
  if s.get GLB_BOOT_STATE = 5 then 2 else if !s.ready then 0 else if s.coreRuns then 1 else 3

/-- A sample: 31 measured values, the device state and the links' states.  A value not given is a free one. -/
def takeSample (vals : List (BitVec 32)) (s : State) : State :=
  let measured := (List.range 31).map fun i => (vals.getD i (Config.freeValue 32 (s.freeCtr + i))).toNat
  let l := measured ++ [s.deviceState] ++ (List.range 24).map fun n => s.get (LNK_STAT_STATE n)
  let s1 := forAll ((List.range 26).zip measured) (fun e s => s.set (PWR_TEMP_TEMP e.1) e.2) s
  { s1 with freeCtr := s1.freeCtr + 31, mgt := { s1.mgt with sample := some l } }

/-- A telemetry sample falls due with the core's load: it is taken, or skipped while shedding. -/
def execTelemetrySample (load : Fin 101) (vals : List (BitVec 32)) (s : State) : Res :=
  .next (if !s.coreServes then s
    else
      let s1 := s.set MGT_STAT_LOAD load
      if load.val ≤ s.get MGT_CFG_SHEDTHR then takeSample vals (s1.set MGT_STAT_SHED 0)
      else
        let s2 := (s1.set MGT_STAT_SHED 1).inc MGT_SHEDCNT_CNT 1
        let due := match s.mgt.shedEvent with
          | some t => decide (secondTicks ≤ s.since t)
          | none => true
        if due then event 0xB001 srcCore { s2 with mgt := { s2.mgt with shedEvent := some s2.now } } else s2)

/-- The 1 KiB of a telemetry sample (R416): 56 words, and free values beyond them and before the first sample. -/
def State.sampleBytes (s : State) : List Byte :=
  match s.mgt.sample with
  | some l => (l.flatMap (natBytes 4) ++ s.freeBytes 0 1024).take 1024
  | none => s.freeBytes 0 1024

/-! ### The watchdog (R399) -/

/-- The core is reset: its mailboxes are cleared, its exchanges lost, and its firmware loaded and checked again. -/
def execWatchdogReset (s : State) : Res :=
  .next (if !s.coreRuns then s
    else
      let s1 := (event 0xB002 srcCore s).incSat MGT_WDRSTCNT_CNT 1
      let s2 := clearMailboxes 32 srcCore s1
      let m := interruptUpdate s2.mgt
      let s3 := (s2.setMgt { m with late := [], replies := [] }).set SEC_UPDSTAT_STATE (if s2.mgt.update.isSome then 0 else s2.get SEC_UPDSTAT_STATE)
      let ok := if flashCause s3 = 0 then 1 else 0
      ((s3.tick.set GLB_BOOT_FLASHV ok).set GLB_BOOT_MGTRUN ok).set MGT_STAT_RUN ok)

/-! ### Measurements (R411 to R413) -/

/-- The user tag area. -/
def State.tagBytes (s : State) : List Byte :=
  match s.mgt.tag with
  | some l => l
  | none => (List.range 4096).map Config.emptyTag

/-- A digest's bytes. -/
def digestOf (bs : List Byte) : List Byte := (sha256 (bs.map (·.toNat))).map (BitVec.ofNat 8)

/-- The configuration record of measurement 4. -/
def State.configRecord (s : State) : List Byte :=
  natBytes 4 (s.rd aGLB_PARTNO).toNat ++ natBytes 4 (s.rd aGLB_STEPPING).toNat ++ natBytes 4 (s.rd aSEC_SVN).toNat ++
    natBytes 4 (s.rd aSEC_MEASCFG).toNat ++ natBytes 4 (s.get SEC_UPDBUF_EN) ++ natBytes 4 (s.get GLB_BOOT_FLASHV)

/-- The measurement table as a response reports it: the indices that are present, in order. -/
def State.measurements (s : State) : List Measurement :=
  [⟨1, 1, s.mgt.running⟩, ⟨2, 6, natBytes 4 (s.rd aGLB_FWVER).toNat⟩,
   ⟨3, 7, natBytes 1 (s.get SEC_SVN_IMAGE) ++ natBytes 1 (s.get SEC_SVN_FUSED)⟩,
   ⟨4, 3, digestOf s.configRecord⟩, ⟨5, 3, digestOf s.tagBytes⟩] ++
  (if s.isSet SEC_MEASCFG_ELVOB then
    (List.range 25).filterMap fun (k : Nat) => (tabGet (fun _ => none) s.mgt.meas (16 + k)).map fun (v : Nat) => (⟨16 + k, 1, natBytes 32 v⟩ : Measurement)
   else [])

/-- A signature of the identity key: 384 bytes that only its verification constrains, free values here. -/
def State.signature (s : State) : List Byte := s.freeBytes 0 384
def spend (n : Nat) (s : State) : State := { s with freeCtr := s.freeCtr + n }

/-- A measurement block in the form of DSP0274; a raw value sets bit 7 of its type. -/
def Measurement.bytes (m : Measurement) : List Byte :=
  let kind := if m.kind = 6 ∨ m.kind = 7 then m.kind + 128 else m.kind
  natBytes 1 m.index ++ natBytes 1 1 ++ natBytes 2 (m.value.length + 3) ++ natBytes 1 kind ++ natBytes 2 m.value.length ++ m.value

/-- The signed MEASUREMENTS response for index 0xFF, with a nonce of the responder's. -/
def State.measurementResponse (s : State) : List Byte :=
  let blocks := s.measurements
  let recd := blocks.flatMap Measurement.bytes
  natBytes 1 0x12 ++ natBytes 1 0x60 ++ natBytes 2 0 ++ natBytes 1 blocks.length ++ natBytes 3 recd.length ++ recd ++
    s.freeBytes 384 32 ++ natBytes 2 0 ++ s.signature

/-- The certificate chain (R409). -/
def chain : List Byte := (List.range Config.chainLength.toNat).map Config.chainByte

/-! ### Mailbox services (R410, R417) -/

/-- A request block's header. -/
structure Block where
  name : Nat                               -- ADDR of the notice
  addr : Nat                               -- its bits [47:0], the local address
  status : Nat
  mbox : Nat
  rgen : Nat
  set : Nat
  flag : Nat
  spare : Nat
  owner : Bool                             -- its sender owns the device
  deriving DecidableEq, Repr

/-- Drop a reply (R417). -/
def dropReply (s : State) : State := event 0xB004 srcCore (s.incSat MGT_REPDROP_CNT 1)

/-- Post a reply notice: one that meets a full mailbox is kept for a retry.  LENGTH and SRCUNIT are free values. -/
def postReply (r : Reply) (s : State) : State :=
  let n := r.addr % 2 ^ 64 + (s.fresh 32).toNat * 2 ^ 64 + r.status * 2 ^ 96 + r.rgen * 2 ^ 112
  let a := acceptNotice r.mbox n s.devId 2 (s.tick.fresh 8).toNat s
  if a.2 = .accepted then spend 2 a.1
  else if a.2 = .full ∧ r.tries < 1000 then
    { a.1 with mgt := { a.1.mgt with replies := a.1.mgt.replies ++ [{ r with tries := r.tries + 1 }] } }
  else dropReply a.1

/-- A write of the management core, from E0: none into the partner-mirror area while it is locked (R209), and none of it mirrored
(R207). -/
def coreWrite (a : Nat) (bs : List Byte) (s : State) : State :=
  if s.locked a bs.length then s
  else countUnmirrored a bs.length (writeServed 4 a (bs.map fun b => (b, false)) (accessRange a bs.length s))

/-- Complete a request: STATUS, the reply notice, and the flag. -/
def complete (b : Block) (status : Nat) (s : State) : State :=
  let s1 := coreWrite b.addr (natBytes 4 status) s
  let s2 := if b.mbox < 32 then postReply { addr := b.name, status := status, mbox := b.mbox, rgen := b.rgen } s1 else s1
  if b.set < 25 ∧ b.flag < 512 then addFlag b.set b.flag 1 (accessSet b.set s2) else s2

/-- A malformed block is answered with STATUS 4 (R417). -/
def malformed (b : Block) (s : State) : State := complete b 4 (event 0xB003 srcCore s)

/-- Whether a header is well formed. -/
def Block.ok (b : Block) : Bool :=
  b.status == 0 && b.spare == 0 && (decide (b.mbox < 32) || b.mbox == 0xFFFF) &&
    ((decide (b.set < 25) && decide (b.flag < 512)) || b.set == 0xFFFF)

/-- Write service data. -/
def writeData (b : Block) (off : Nat) (data : List Byte) (s : State) : State :=
  coreWrite (b.addr + off) data s

/-- Take the oldest request of mailbox `m` and serve it; `len` is the block's length, and a poisoned header is answered
with STATUS 5. -/
def serve (m len : Nat) (body : Block → State → State) (s : State) : State :=
  if !s.coreServes || s.mailHeld m == 0 then s
  else
    let cons := s.get (MBX_CONS_CONS m)
    let e := cons % 16 * 4
    let name := (s.rd (aMBX_ENT m e)).toNat
    let a := name % 2 ^ 48
    let w2 := (s.rd (aMBX_ENT m (e + 2))).toNat
    let kind := getBits w2 16 8
    let s1 := s.set (MBX_CONS_CONS m) (cons + 1)
    if !rangePopulated a 16 then event 0xB003 srcCore s1
    else
      let s2 := touch a 16 (accessRange a len s1)
      let nat (o n : Nat) : Nat := s2.readNat (a + o) n
      let b : Block := { name := name, addr := a, status := nat 0 4, mbox := nat 4 2, rgen := nat 6 2, set := nat 8 2, flag := nat 10 2,
                         spare := nat 12 4, owner := getBits w2 0 16 == s.devId && decide (kind < 2) && s.owns kind }
      if s2.poisonFrom 4 a 16 then complete b 5 s2
      else if !b.ok || !rangePopulated a len then malformed b s2
      else body b s2

def execMbxTelemetry (s : State) : Res :=
  .next (settleFab (serve 32 1040 (fun b s => complete b 1 (spend 1024 (writeData b 16 s.sampleBytes s))) s))

def execMbxCertificates (s : State) : Res :=
  .next (settleFab (serve 33 (32 + Config.chainLength.toNat) (fun b s =>
    if Config.chainParses then complete b 1 (writeData b 32 chain (writeData b 16 (natBytes 4 Config.chainLength.toNat) s))
    else complete b 5 s) s))

/-- Write the user tag area: the new copy, or the old one where its read-back fails (R410). -/
def tagWrite (data : List Byte) (ok : Bool) (s : State) : State :=
  let s1 := s.incSat SEC_TAGWR_CNT 1
  if ok then event 0xC006 srcSecurity { s1 with mgt := { s1.mgt with tag := some data } } else event 0xC007 srcSecurity s1

/-- Mailbox 34; `ok` is the read-back of a write. -/
def execMbxTagArea (ok : Bool) (s : State) : Res :=
  .next (settleFab (serve 34 4128 (fun b s =>
    let op := s.readNat (b.addr + 16) 1
    let s1 := touch (b.addr + 16) 4112 s
    if s1.poisonFrom 4 (b.addr + 16) 1 then complete b 5 s1
    else if op = 0 then complete b 1 (writeData b 32 s.tagBytes s1)
    else if op ≠ 1 then malformed b s1
    else if !b.owner then complete b 2 s1
    else if s1.poisonFrom 4 (b.addr + 32) 4096 then complete b 5 s1
    else complete b (if ok then 1 else 5) (tagWrite (s1.read (b.addr + 32) 4096) ok s1)) s))

/-- Report a failed update: SEC_UPDSTAT, and no update in progress. -/
def updateFailed (err : Nat) (s : State) : State :=
  ({ s with mgt := { s.mgt with update := none } }.set SEC_UPDSTAT_STATE 5).set SEC_UPDSTAT_ERR err

/-- The image is rejected before anything is erased (R407). -/
def updateRejected (err : Nat) (s : State) : State := event 0xC002 srcSecurity (updateFailed err s)

/-- PROGRESS: whole 64 KiB units received. -/
def showProgress (n : Nat) (s : State) : State := s.set SEC_UPDSTAT_PROGRESS (n / 65536)

/-- Mailbox 35: an update from the request block, checked whole before flash is erased. -/
def execMbxUpdate (s : State) : Res :=
  .next (settleFab (serve 35 544 (fun b s =>
    if !b.owner then complete b 2 s
    else if s.mgt.update.isSome then complete b 3 s
    else
      let a := b.addr + 32
      let s1 := touch a 512 s
      let head := s1.read a 512
      let c := headerCause head s1
      let n := 896 + imgLength head
      if s1.poisonFrom 4 a 512 then complete b 5 s1
      else if c ≠ 0 then complete b 5 (updateRejected c s1)
      else if !rangePopulated a n then malformed b s1
      else
        let s2 := touch a n s1
        let img := s2.read a n
        let s3 := showProgress n (s2.set SEC_UPDSTAT_ERR 0)
        if s2.poisonFrom 4 a n then complete b 5 s2
        else if !signatureOk img then complete b 5 (updateRejected 3 s3)
        else
          let j : UpdateJob := { block := some b.name, size := n, staged := true, got := img, writing := true }
          { s3 with mgt := { s3.mgt with update := some j } }.set SEC_UPDSTAT_STATE 3) s))

/-- Mailbox 36. -/
def execMbxMeasurements (s : State) : Res :=
  .next (settleFab (serve 36 64 (fun b s =>
    let resp := s.measurementResponse
    let s1 := touch (b.addr + 16) 32 s
    if !rangePopulated b.addr (64 + resp.length) then malformed b s1
    else if s1.poisonFrom 4 (b.addr + 16) 32 then complete b 5 s1
    else complete b 1 (spend 416 (writeData b 64 resp s1))) s))

/-- Mailboxes 37 to 47: STATUS 4. -/
def execMbxReservedService (m : Fin 11) (s : State) : Res := .next (settleFab (serve (37 + m) 16 malformed s))

/-- The oldest reply that met a full mailbox is retried. -/
def execReplyRetry (s : State) : Res :=
  .next (match s.mgt.replies with
    | [] => s
    | r :: rest => if s.coreServes then postReply r { s with mgt := { s.mgt with replies := rest } } else s)

/-! ### SPDM (R398, R411, R412) -/

/-- Whether the core is late with an answer: a free value while it is overloaded. -/
def State.isLate (s : State) : Bool := s.isSet MGT_STAT_SHED && (s.fresh 1).toNat == 1

def bindingNum : Binding → Nat
  | .portA => 0
  | .portB => 1
  | .smbus => 2

/-- Answer an SPDM request, or keep the answer for RESPOND_IF_READY.  `n` is the number of free bytes it holds. -/
def spdmAnswer (b : Binding) (n : Nat) (msg : MctpMsg) (s : State) : State :=
  if !s.coreServes then s
  else if s.isLate then
    { spend (n + 1) s with mgt := { s.mgt with late := tabPut (fun _ => none) s.mgt.late (bindingNum b) (some msg) } }.emit (.mctp b (.spdmError .responseNotReady))
  else (spend (n + 1) s).emit (.mctp b msg)

/-- SPDM 1.2 alone is served: byte 0 of any request but GET_VERSION names the version. -/
def spdm12 (req : List Byte) (msg : MctpMsg) : MctpMsg := if req.getD 0 0 = 0x12 then msg else .spdmError .versionMismatch

def execGetVersion (b : Binding) (_req : List (BitVec 8)) (s : State) : Res := .next (spdmAnswer b 0 (.version [2]) s)

def execGetCapabilities (b : Binding) (req : List (BitVec 8)) (s : State) : Res :=
  .next (spdmAnswer b 0 (spdm12 req (.capabilities true true 2 15)) s)

def execNegotiateAlgorithms (b : Binding) (req : List (BitVec 8)) (s : State) : Res := .next (spdmAnswer b 0 (spdm12 req .algorithms) s)

def execGetDigests (b : Binding) (req : List (BitVec 8)) (s : State) : Res :=
  .next (spdmAnswer b 0 (spdm12 req (.digests 1 (digestOf chain))) s)

/-- GET_CERTIFICATE: slot in byte 2, offset in bytes 4 and 5, length in bytes 6 and 7. -/
def execGetCertificate (b : Binding) (req : List (BitVec 8)) (s : State) : Res :=
  let le (i : Nat) : Nat := (req.getD i 0).toNat + 256 * (req.getD (i + 1) 0).toNat
  let part := (chain.drop (le 4)).take (le 6)
  let msg : MctpMsg :=
    if !Config.chainParses then .spdmError .unspecified
    else if (req.getD 2 0).toNat % 16 ≠ 0 ∨ chain.length ≤ le 4 then .spdmError .invalidRequest
    else .certificate 0 part (chain.length - le 4 - part.length)
  .next (spdmAnswer b 0 (spdm12 req msg) s)

/-- CHALLENGE: slot in byte 2. -/
def execChallenge (b : Binding) (req : List (BitVec 8)) (s : State) : Res :=
  let msg : MctpMsg := if (req.getD 2 0).toNat % 16 ≠ 0 then .spdmError .invalidRequest else .challengeAuth 0 (digestOf chain) (s.tick.signature)
  .next (spdmAnswer b 384 (spdm12 req msg) s)

/-- GET_MEASUREMENTS: signature wanted in bit 0 of byte 2, index in byte 3. -/
def execGetMeasurements (b : Binding) (req : List (BitVec 8)) (s : State) : Res :=
  let idx := (req.getD 3 0).toNat
  let all := s.measurements
  let sig := if (req.getD 2 0).getLsbD 0 then s.tick.signature else []
  let msg : MctpMsg :=
    if idx = 0 then .measurementCount all.length
    else if idx = 255 then .measurements all sig
    else match all.find? (·.index == idx) with
      | some m => .measurements [m] sig
      | none => .spdmError .invalidRequest
  .next (spdmAnswer b 384 (spdm12 req msg) s)

/-- RESPOND_IF_READY: the answer that was not ready. -/
def execRespondIfReady (b : Binding) (_req : List (BitVec 8)) (s : State) : Res :=
  .next (if !s.coreServes then s
    else match tabGet (fun _ => none) s.mgt.late (bindingNum b) with
      | some m => { s with mgt := { s.mgt with late := tabPut (fun _ => none) s.mgt.late (bindingNum b) none } }.emit (.mctp b m)
      | none => s.emit (.mctp b (.spdmError .unspecified)))

def execSpdmUnsupportedRequest (b : Binding) (_req : List (BitVec 8)) (s : State) : Res :=
  .next (spdmAnswer b 0 (.spdmError .unsupportedRequest) s)

/-! ### MCTP control and PLDM (R406, R407, R414, R415) -/

/-- Whether the endpoint answers MCTP control messages and PLDM types 0 and 5: the core runs, or the boot ROM is in
recovery. -/
def State.mctpUp (s : State) : Bool := s.coreRuns || s.boot.phase == .recovery

def eidField : Binding → FRef
  | .portA => MGT_EID_PORTA
  | .portB => MGT_EID_PORTB
  | .smbus => MGT_EID_SMBUS

def execSetEndpointId (b : Binding) (eid : BitVec 8) (s : State) : Res :=
  .next (if s.mctpUp then (s.set (eidField b) eid.toNat).emit (.mctp b (.endpointId eid.toNat)) else s)

/-- Answer a PLDM request with its effect, or ERROR_NOT_READY while overloaded. -/
def pldmAnswer (b : Binding) (up : Bool) (eff : State → State × MctpMsg) (s : State) : State :=
  if !up then s
  else if s.isLate then s.tick.emit (.mctp b (.pldm .notReady []))
  else
    let r := eff s.tick
    r.1.emit (.mctp b r.2)

/-- Answer with data and no effect. -/
def pldmData (b : Binding) (up : Bool) (data : State → List Byte) (s : State) : State :=
  pldmAnswer b up (fun s => (s, .pldm .success (data s))) s

/-- The PLDM types served. -/
def State.pldmTypes (s : State) : List Nat := if s.coreServes then [0, 2, 4, 5] else [0, 5]

def execGettid (b : Binding) (s : State) : Res := .next (pldmData b s.mctpUp (fun s => natBytes 1 s.mgt.tid) s)

def execSettid (b : Binding) (tid : BitVec 8) (s : State) : Res :=
  .next (pldmAnswer b s.mctpUp (fun s => ({ s with mgt := { s.mgt with tid := tid.toNat } }, .pldm .success [])) s)

/-- GetPLDMVersion: the version of each specification is not stated, and is a free value. -/
def execGetpldmversion (b : Binding) (ty : BitVec 8) (s : State) : Res :=
  .next (pldmAnswer b s.mctpUp (fun s =>
    if s.pldmTypes.contains ty.toNat then (spend 4 s, .pldm .success (s.freeBytes 0 4)) else (s, .pldm .invalidType [])) s)

def execGetpldmtypes (b : Binding) (s : State) : Res := .next (pldmData b s.mctpUp (fun s => s.pldmTypes.flatMap (natBytes 1)) s)

/-- The commands of each type by their DMTF numbers: discovery, monitoring, FRU data, firmware update. -/
def pldmCommands (ty : Nat) : List Nat :=
  if ty = 0 then [1, 2, 3, 4, 5] else if ty = 2 then [0x04, 0x0A, 0x11, 0x21, 0x50, 0x51]
  else if ty = 4 then [1, 2, 3] else [0x10, 0x1A]

def execGetpldmcommands (b : Binding) (ty : BitVec 8) (s : State) : Res :=
  .next (pldmAnswer b s.mctpUp (fun s =>
    if s.pldmTypes.contains ty.toNat then (s, .pldm .success ((pldmCommands ty.toNat).flatMap (natBytes 1)))
    else (s, .pldm .invalidType [])) s)

/-- A sensor of the last sample, numbered in the order of R415's table; without a sample its value is free. -/
def sensorAnswer (lo hi sensor : Nat) (s : State) : State × MctpMsg :=
  if lo ≤ sensor ∧ sensor < hi then
    match s.mgt.sample with
    | some l => (s, .pldm .success (natBytes 4 (l.getD sensor 0)))
    | none => (spend 4 s, .pldm .success (s.freeBytes 0 4))
  else (s, .pldm .invalidSensor [])

/-- A type 2 or 4 request, which only a ready device serves. -/
def pldmServed (b : Binding) (eff : State → State × MctpMsg) (s : State) : State :=
  pldmAnswer b s.mctpUp (fun s => if s.coreServes then eff s else (s, .pldm .invalidType [])) s

def execGetsensorreading (b : Binding) (sensor : BitVec 16) (s : State) : Res :=
  .next (pldmServed b (sensorAnswer 0 31 sensor.toNat) s)

def execGetstatesensorreadings (b : Binding) (sensor : BitVec 16) (s : State) : Res :=
  .next (pldmServed b (sensorAnswer 31 56 sensor.toNat) s)

def execSeteventreceiver (b : Binding) (eid : BitVec 8) (s : State) : Res :=
  .next (pldmServed b (fun s => ({ s with eventReceiver := some eid.toNat }, .pldm .success [])) s)

/-- The repository: one record for each sensor, its number and its unit, 0 for 0.1 °C, 1 for 0.1 W and 2 for a state. -/
def execPdrRepository (b : Binding) (_req : List (BitVec 8)) (s : State) : Res :=
  .next (pldmServed b (fun s =>
    (s, .pldm .success ((List.range 56).flatMap fun i => natBytes 1 i ++ natBytes 1 (if i < 26 then 0 else if i < 31 then 1 else 2)))) s)

/-- The identity as read-only records, and the tag area. -/
def State.fruData (s : State) : List Byte :=
  natBytes 8 (s.rd aGLB_SERIAL).toNat ++ natBytes 4 (s.rd aGLB_PARTNO).toNat ++ natBytes 4 (s.rd aGLB_STEPPING).toNat ++
    (List.range 6).flatMap (fun n => natBytes 8 (s.rd (aGLB_DIEID n)).toNat) ++
    (List.range 16).flatMap (fun n => natBytes 8 (s.rd (aGLB_STACKID n)).toNat) ++ s.tagBytes

/-- PLDM type 4; a write replaces all 4,096 bytes of the tag area. -/
def execPldmFruData (b : Binding) (write : Bool) (data : List (BitVec 8)) (ok : Bool) (s : State) : Res :=
  .next (pldmServed b (fun s =>
    if !write then (s, .pldm .success s.fruData)
    else if data.length ≠ 4096 then (s, .pldm .error [])
    else (tagWrite data ok s, .pldm (if ok then .success else .error) [])) s)

def execPldmInvalidType (b : Binding) (ty : BitVec 8) (s : State) : Res :=
  .next (pldmAnswer b s.mctpUp (fun s => if s.pldmTypes.contains ty.toNat then (s, .pldm .error []) else (s, .pldm .invalidType [])) s)

/-! ### Firmware update (R406, R407) -/

/-- Whether the boot ROM serves the update. -/
def State.inRecovery (s : State) : Bool := s.boot.phase == .recovery

/-- RequestUpdate: the first is served, and any other refused until it ends.  A staging buffer outside memory, or in the
locked partner-mirror area, is refused. -/
def execRequestupdate (b : Binding) (size : Nat) (s : State) : Res :=
  .next (pldmAnswer b s.mctpUp (fun s =>
    let staged := !s.inRecovery && s.isSet SEC_UPDBUF_EN
    if s.mgt.update.isSome then (s, .pldm .alreadyInUpdateMode [])
    else if staged && (!rangePopulated (s.get SEC_UPDBUF_BASE * 4096) 0x1000000 || s.locked (s.get SEC_UPDBUF_BASE * 4096) size) then (s, .pldm .error [])
    else
      let s1 := { s with mgt := { s.mgt with update := some { block := none, size := size, staged := staged } } }
      (showProgress 0 ((s1.set SEC_UPDSTAT_STATE 1).set SEC_UPDSTAT_ERR 0), .pldm .success [])) s)

/-- The whole image has come: a staged one is checked in memory before flash is erased. -/
def imageWhole (j : UpdateJob) (s : State) : State :=
  let a := s.get SEC_UPDBUF_BASE * 4096
  let s1 := if j.staged then touch a j.size s else s
  let img := if j.staged then s1.read a j.size else j.got
  if j.staged && !signatureOk img then updateRejected 3 s1
  else { s1 with mgt := { s1.mgt with update := some { j with got := img, writing := true } } }.set SEC_UPDSTAT_STATE 3

/-- The next bytes of the image: the header is checked as soon as it is there, staged bytes go to memory, others to flash. -/
def execUpdateImageData (off : Nat) (data : List (BitVec 8)) (s : State) : Res :=
  .next (match s.mgt.update with
    | none => s
    | some j =>
        if j.writing || off != j.got.length || data == [] || !s.mctpUp then s
        else
          let got := (j.got ++ data).take j.size
          let head := min 512 j.size
          let c := if !s.inRecovery && decide (j.got.length < head) && decide (head ≤ got.length) then headerCause got s else 0
          if c ≠ 0 then updateRejected c s
          else
            let j1 := { j with got := got }
            let s1 := showProgress got.length { s with mgt := { s.mgt with update := some j1 } }
            let buf := s1.get SEC_UPDBUF_BASE * 4096
            let s2 := if j.staged then coreWrite (buf + off) (got.drop off) s1
              else if s.inRecovery || decide (head ≤ got.length) then { s1 with mgt := { s1.mgt with flash := .holds got } } else s1
            if got.length = j.size then imageWhole j1 s2 else s2)

/-- Answer the request block of an update that came through the mailbox. -/
def answerBlock (j : UpdateJob) (status : Nat) (s : State) : State :=
  match j.block with
  | none => s
  | some name =>
      let a := name % 2 ^ 48
      let nat (o n : Nat) : Nat := s.readNat (a + o) n
      complete { name := name, addr := a, status := 0, mbox := nat 4 2, rgen := nat 6 2, set := nat 8 2, flag := nat 10 2, spare := 0, owner := true } status s

/-- Flash has been written; its copy is checked under R404. -/
def execUpdateFlashDone (ok : Bool) (s : State) : Res :=
  .next (match s.mgt.update with
    | none => s
    | some j =>
        if !j.writing then s
        else
          let s1 := { s with mgt := { s.mgt with update := none, flash := if ok then .holds j.got else .torn } }
          let c := if ok then flashCause s1 else 6
          if s.inRecovery then
            if c = 0 then
              let s2 := { s1 with boot := { s1.boot with lost := s1.boot.lost || s1.boot.cold } }
              deviceReset ((s2.fresh 8).toNat % 3) (s2.tick.fresh 16).toNat (spend 2 s2)
            else recovery (if ok then c else flashCause s1) (updateFailed c s1).tick
          else if c = 0 then
            let s2 := (s1.set SEC_UPDSTAT_STATE 4).set SEC_UPDSTAT_ERR 0
            let s3 := ((s2.wr aSEC_PENDVER (BitVec.ofNat 64 (imgFwver j.got))).set GLB_BOOT_UPDPEND 1).set GLB_BOOT_FLASHV 1
            settleFab (answerBlock j 1 (event 0xC004 srcSecurity s3))
          else settleFab (answerBlock j 5 (event 0xC003 srcSecurity ((updateFailed c s1).set GLB_BOOT_FLASHV 0))))

/-- ActivateFirmware: a reset is required once an update is applied. -/
def execActivatefirmware (b : Binding) (s : State) : Res :=
  .next (pldmAnswer b s.mctpUp (fun s => if s.get SEC_UPDSTAT_STATE = 4 then (s, .activation true) else (s, .pldm .error [])) s)

/-- A recovery update that has been idle for 60 s frees the slot. -/
def execRecoveryUpdateTimeout (s : State) : Res :=
  .next (match s.mgt.update with
    | some j => if s.inRecovery ∧ !j.writing then { s with mgt := { s.mgt with update := none } }.set SEC_UPDSTAT_STATE 0 else s
    | none => s)

/-! ### Anti-rollback (R405) -/

/-- Write SEC_SVNCOMMIT. -/
def svnCommit (v : Nat) (s : State) : State :=
  if v = s.get SEC_SVN_IMAGE ∧ s.get SEC_SVN_FUSED < v ∧ s.mgt.commit = none ∧ s.mgt.update = none then
    { s with mgt := { s.mgt with commit := some v } }
  else event 0xC008 srcSecurity s

def execSecSvncommit (p : PortId) (v : BitVec 8) (s : State) : Res := .next (ownerWrite p aSEC_SVNCOMMIT (svnCommit v.toNat) s)

/-- The fuses are blown to the SVN. -/
def execSvnFuseDone (s : State) : Res :=
  .next (match s.mgt.commit with
    | some v => event 0xC005 srcSecurity ({ s with mgt := { s.mgt with commit := none } }.set SEC_SVN_FUSED v)
    | none => s)

end Sys2Proof.Machine
end

