-- ==== Sys2Proof/Machine/Routine.lean ====
section
/-! DEFINITION. The resident routines that a privileged queue CALLs (R144, R416, R480).  Each row is one routine's work; its
inputs are BR12 and BR13 of the queue that called it. -/

namespace Sys2Proof.Machine

/-- Run routine `i`'s work in the queue that called it. -/
def routine (i : Nat) (work : Nat → Nat → Nat → State → State) (s : State) : State :=
  match s.routineQueue i with
  | none => s
  | some q => work q (s.get (QUE_BASE_BR q 12)) (s.get (QUE_BASE_BR q 13)) s

/-- A routine's work ends and its CALL is complete. -/
def routineEnd (q : Nat) (s : State) : State := leaveRoutine q .done s

/-- An address outside populated memory freezes the queue (R29, R416). -/
def routineOutside (q : Nat) (s : State) : State := freezeRoutine q 0x5001 s

/-- The local part of an address, if it names `n` populated bytes of this device (R29, R30). -/
def State.ownRange (s : State) (a n : Nat) : Option Nat :=
  if a / 2 ^ 48 = s.devId ∧ rangePopulated (a % 2 ^ 48) n then some (a % 2 ^ 48) else none

def execTelemSnap (s : State) : Res :=
  .next (routine 1 (fun q br12 _ s =>
    match s.ownRange br12 1024 with
    | some a => if s.locked a 1024 then routineOutside q s else routineEnd q (spend 1024 (coreWrite a s.sampleBytes s))
    | none => routineOutside q s) s)

def execEventMark (s : State) : Res :=
  .next (routine 2 (fun q br12 _ s => routineEnd q (recordEvent 0xB005 (srcQueue q) (BitVec.ofNat 64 br12) s)) s)

/-- Whether wheel `a`'s queue keeps its registers from being written (R341). -/
def State.wheelHeld (s : State) (a : Nat) : Bool := queueRuns (120 + a) s

def execWhlseqSet (s : State) : Res :=
  .next (routine 3 (fun q br12 br13 s =>
    let a := br12 % 4
    routineEnd q (if s.wheelHeld a then wheelDiscard a s else s.set (WHL_SEQ_SEQ a) (br13 % 65536))) s)

/-- Write a table of sixteen weights; those above 63 are not written. -/
def writeShares (ws : List Nat) (s : State) : State :=
  let put (e : Nat × Nat) (s : State) : State :=
    if 63 < e.2 then s else if e.1 < 8 then s.set (HBC_SHARE_WEIGHT e.1) e.2 else s.set (LPC_SHARE_WEIGHT (e.1 - 8)) e.2
  let s1 := forAll ((List.range 16).zip ws) put s
  match ws.findIdx? fun w => decide (63 < w) with
  | some i => event 0x500B (if i < 8 then srcStack 0 else srcPackage 0) s1
  | none => s1

def execShareSet (s : State) : Res :=
  .next (routine 4 (fun q br12 _ s =>
    match s.ownRange br12 16 with
    | none => routineOutside q s
    | some a =>
        let s1 := touch a 16 (accessRange a 16 s)
        if s1.poisonFrom (queueDie q) a 16 then freezeRoutine q 0x300E s1
        else routineEnd q (writeShares ((s1.read a 16).map (·.toNat)) s1)) s)

def execGateSet (s : State) : Res :=
  .next (routine 5 (fun q br12 br13 s =>
    routineEnd q (forAll (List.range 24) (fun t s => if br12.testBit t then s.set (TIL_GATE_PG_EN t) (br13 % 2) else s) s)) s)

def execOvfClr (s : State) : Res :=
  .next (routine 6 (fun q br12 br13 s =>
    routineEnd q (forAll (List.range 24) (fun t s =>
      if br12.testBit t then forAll (List.range 64) (fun i s => if br13.testBit i then clearOvf (tileOvfBase t i) s else s) s
      else s) s)) s)

end Sys2Proof.Machine
end

