-- ==== Sys2Proof/Machine/Blocks.lean ====
section
/-! DEFINITION. A host's write of any register: the access rules, and what each block's registers do besides taking a value
(R7 to R11, R363, R371, R374, and the write rules of each chapter's registers). -/

namespace Sys2Proof.Machine

/-- Write a register but keep one field, with the block's grey event if the write would have changed it. -/
def keepField (f : FRef) (code src : Nat) (old s : State) : State :=
  if s.get f = old.get f then s else event code src (s.set f (old.get f))

/-! ### Tile and device-set registers (R57, R80, R87, R115, R127, R151, R157, R159, R175, R214) -/

/-- Whether a set's registers may be written only now: no queue of it runs. -/
def State.setFree (s : State) (g : Nat) : Bool := !setRuns g s

/-- Write a status register; one whose ABORT clears takes its record with it. -/
def statusWrite (a v wlo whi : Nat) (abort : FRef) (recd : Nat) (s : State) : State :=
  let s1 := writeBits a v wlo whi s
  if s.isSet abort && !s1.isSet abort then s1.wr recd 0 else s1

/-- Write MXE_STAT: MXE_HAZREC clears when HAZ and ELEHAZ are both 0. -/
def mxeStatWrite (t m v wlo whi : Nat) (s : State) : State :=
  let s1 := writeBits (aMXE_STAT t m) v wlo whi s
  if s1.isSet (MXE_STAT_HAZ t m) || s1.isSet (MXE_STAT_ELEHAZ t m) then s1 else s1.wr (aMXE_HAZREC t m) 0

/-- Write MXE_DGCTRL: what is written takes effect at the next gap, which begins as the command in progress ends (R87). -/
def mxeDgctrlWrite (t m v wlo whi : Nat) (s : State) : State :=
  let s1 := writeBits (aMXE_DGCTRL t m) v wlo whi s
  if s1.get (MXE_STAT_ARRAY t m) = 1 then latchGrind t m s1 else s1

/-- A queue's block at offset `o`.  BR0 is fixed, and its start, increment and modulus are reserved (R131, R151). -/
def queBlock (q o v wlo whi : Nat) (s : State) : State :=
  let a := queBase q + o
  if o = 0 then settleFab (queCtrl q v s)
  else if queueRuns q s then setDiscard a s
  else if 0x100 ≤ o ∧ s.ldBusy (homeSet q) then setDiscard a s
  else if o = 0x100 ∨ o = 0x180 ∨ o = 0x200 ∨ o = 0x280 then s
  else writeBits a v wlo whi s

/-- TIL_FLAGLINK: a write of its bits [63:16] is discarded, with an event, while a queue of the set runs; bits [15:0] act as
always. -/
def flagLinkWrite (g k v wlo whi : Nat) (s : State) : State :=
  let a := aTIL_FLAGLINK g k
  let s1 := writeBits a v wlo whi s
  if s.ldBusy g then setDiscard a s
  else if s.setFree g ∨ whi < 16 then s1 else event 0x300A (srcReg a) (writeBits a v wlo 15 s)

/-- The flag set and loader registers of set `g` at offset `o`. -/
def setBlock (g o v wlo whi : Nat) (s : State) : State :=
  let a := setBase g + o
  let held := s.ldBusy g || setRuns g s
  if 0x1000 ≤ o ∧ o < 0x2000 then flagWrite g ((o - 0x1000) / 4) (v % 65536) s
  else if 0x2000 ≤ o ∧ o < 0x3000 then addFlag g ((o - 0x2000) / 4) (v % 256) s
  else if 0x4000 ≤ o ∧ o < 0x5000 then flagLinkWrite g ((o - 0x4000) / 8) v wlo whi s
  else if o = 0x100 then ldCtrl g v wlo whi s
  else if o = 0x20 ∨ o = 0x24 ∨ o = 0x28 ∨ o = 0x2C ∨ (0x3000 ≤ o ∧ o < 0x4000) ∨ (0x200 ≤ o ∧ o < 0x280) then
    (if held then setDiscard a s else writeBits a v wlo whi s)
  else writeBits a v wlo whi s

/-- An overflow record's W7: CLR, and AUTOCLR. -/
def ovfWrite (b v wlo whi : Nat) (s : State) : State :=
  let s1 := if v.testBit 31 then clearOvf b s else s
  writeBits (aTIL_OVF_W7 b) v wlo whi s1

/-- Tile `t`'s block at offset `o`; `a` is the register. -/
def tileBlock (t o a v wlo whi : Nat) (s : State) : State :=
  if 0x80000 ≤ o then queBlock (t * 5 + (o - 0x80000) / 0x10000) (o % 0x10000) v wlo whi s
  else if 0x40000 ≤ o then
    let f := (o - 0x40000) / 0x10000
    if o % 0x10000 = 0 then
      let s1 := writeBits a v wlo whi s
      if v.testBit 0 then (s1.wr (aFLM_BYTECNT t f) 0).wr (aFLM_MIRCNT t f) 0 else s1
    else if o % 0x10000 = 4 then statusWrite a v wlo whi (FLM_STAT_ABORT t f) (aFLM_ABORTREC t f) s
    else if queueRuns (t * 5 + 3 + f) s then event 0x500B (srcReg a) s
    else writeBits a v wlo whi s
  else if 0x30000 ≤ o then
    if o = 0x30000 then
      let s1 := writeBits a v wlo whi s
      if v.testBit 0 then (s1.wr (aELE_BUSYCNT t) 0).wr (aELE_ELEMCNT t) 0 else s1
    else statusWrite a v wlo whi (ELE_STAT_ABORT t) (aELE_ABORTREC t) s
  else if 0x10000 ≤ o then
    let m := (o - 0x10000) / 0x10000
    if o % 0x10000 = 0 then
      let s1 := writeBits a v wlo whi s
      if v.testBit 3 then ((s1.wr (aMXE_DGCNT t m) 0).wr (aMXE_STRMCNT t m) 0).wr (aMXE_LOADCNT t m) 0 else s1
    else if o % 0x10000 = 4 then mxeStatWrite t m v wlo whi s
    else if o % 0x10000 = 0x10 then mxeDgctrlWrite t m v wlo whi s
    else writeBits a v wlo whi s
  else if 0x8000 ≤ o then ovfWrite (a - 0x1C) v wlo whi s
  else if o = 0x10 then
    let s1 := writeBits a v wlo whi s
    if v.testBit 29 then wakeTile t s1 else s1
  else setBlock t o v wlo whi s

/-! ### Links and ports (R248, R252, R253, R281, R282) -/

/-- LNK_CFG: PORT while DOWN, PARKED, ABSENT or FAILED; RATE and MEDIA while DOWN. -/
def lnkCfgWrite (n v wlo whi : Nat) (s : State) : State :=
  let st := s.lstate n
  let s1 := writeBits (aLNK_CFG n) v wlo whi s
  let down := st == lDown
  let port := down || st == lParked || st == lAbsent || st == lFailed
  let keep (f : FRef) (ok : Bool) (s1 : State) : State := if ok then s1 else s1.set f (s.get f)
  let s2 := keep (LNK_CFG_PORT n) port (keep (LNK_CFG_RATE n) down (keep (LNK_CFG_MEDIA n) down s1))
  evaluate n (if s2.rd (aLNK_CFG n) = s1.rd (aLNK_CFG n) then s2 else event 0x600C (srcLink n) s2)

/-- LNK_VCTHR: not while ACTIVE; XON at least XOFF + 8. -/
def lnkVcthrWrite (n v wlo whi : Nat) (s : State) : State :=
  if s.lstate n = lActive then event 0x600C (srcLink n) s
  else
    let s1 := writeBits (aLNK_VCTHR n) v wlo whi s
    if s1.get (LNK_VCTHR_XON n) < s1.get (LNK_VCTHR_XOFF n) + 8 then keepReserved (LNK_VCTHR_XON n) 0x600C (srcLink n) v wlo whi s s1
    else s1

/-- A six-bit signed coefficient's magnitude. -/
def coefficient (x : Nat) : Nat := (signed6 x).natAbs

/-- LNK_HOSTEQ: a set whose magnitudes sum to more than 24 is a reserved encoding. -/
def hostEqWrite (n k v wlo whi : Nat) (s : State) : State :=
  let a := aLNK_HOSTEQ n k
  let s1 := writeBits a v wlo whi s
  let sum := coefficient (s1.get (LNK_HOSTEQ_CM2 n k)) + coefficient (s1.get (LNK_HOSTEQ_CM1 n k)) + coefficient (s1.get (LNK_HOSTEQ_C1 n k))
  if 24 < sum then eventD 0x600C (srcLink n) a (s1.set ⟨a, 6, 18⟩ (s.get ⟨a, 6, 18⟩)) else s1

/-- Link `n`'s block at offset `o`. -/
def linkBlock (n o v wlo whi : Nat) (s : State) : State :=
  let a := 0x400000 + n * 0x1000 + o
  if o = 0 then settleFab (lnkCtrl n v s)
  else if o = 8 then settleFab (lnkCfgWrite n v wlo whi s)
  else if o = 0xC then lnkVcthrWrite n v wlo whi s
  else if o = 0x18 then lnkTestWrite n v wlo whi s
  else if 0x20 ≤ o ∧ o < 0x30 then settleFab (planEntryWrite n (a - o % 8) v wlo whi s)
  else if 0x140 ≤ o then hostEqWrite n ((o - 0x140) / 4) v wlo whi s
  else writeBits a v wlo whi s

/-- PRT_CFG: MODE and REACH only while no link of the port is ACTIVE; NOMLINKS moves the port's state at once (R255). -/
def prtCfgWrite (p v wlo whi : Nat) (s : State) : State :=
  let s1 := writeBits (aPRT_CFG p) v wlo whi s
  let s2 := if s.get (PRT_STAT_ACTIVE p) = 0 then s1 else keepField ⟨aPRT_CFG p, 0, 2⟩ 0x600C (srcPort p) s s1
  evaluateAll (updatePort p s2)

def portBlock (a v wlo whi : Nat) (s : State) : State :=
  if a = aPRT_PLANCTL then settleFab (planCtl v s)
  else if a = aPRT_PROTO then settleFab (protoWrite v wlo whi s)
  else settleFab (prtCfgWrite ((a - 0x420000) / 0x100) v wlo whi s)

/-! ### Routing (R283, R300, R305, R309, R313) -/

/-- RTE_CTRL: its effects in the order of the bits' rows. -/
def rteCtrlWrite (v : Nat) (s : State) : State :=
  let on (b : Nat) (eff : State → State) (s : State) : State := if v.testBit b then eff s else s
  let s1 := on 5 openShade (on 4 rteCntClr (on 6 flushClear s))
  let s2 := on 3 retireShade (stampShade (v % 2) s1)
  if v.testBit 2 = s2.isSet RTE_CTRL_FLREP then s2 else setFlrep (v.testBit 2) s2

/-- Whether a link in the Ethernet personality is ACTIVE. -/
def State.ethActive (s : State) : Bool := allLinks.any fun n => s.isEth n && s.lstate n == lActive

/-- RTE_WIN: WMIN at most W. -/
def rteWinWrite (v wlo whi : Nat) (s : State) : State :=
  let s1 := writeBits aRTE_WIN v wlo whi s
  if s1.get RTE_WIN_W < s1.get RTE_WIN_WMIN then keepReserved RTE_WIN_WMIN 0x7007 srcRouter v wlo whi s s1 else s1

/-- The Ethernet registers: only while no such link is ACTIVE, and PFC needs TAG. -/
def ethWrite (a v wlo whi : Nat) (s : State) : State :=
  let s1 := writeBits a v wlo whi s
  if s.ethActive || (a == aRTE_ETHCFG && s1.isSet RTE_ETHCFG_PFC && !s1.isSet RTE_ETHCFG_TAG) then event 0x7007 srcRouter s
  else if a = aRTE_ETHCFG then evaluateAll s1 else s1

def routeBlock (a v wlo whi : Nat) (s : State) : State :=
  if a = aRTE_CTRL then settleFab (rteCtrlWrite v s)
  else if a = aRTE_WIN then rteWinWrite v wlo whi s
  else if 0x430100 ≤ a ∧ a < 0x430110 then (if s.armed then event 0x7007 srcRouter s else writeBits a v wlo whi s)
  else if 0x480000 ≤ a then settleFab (tableWrite (if a < 0x4C0000 then 0 else 1) a v wlo whi s)
  else if 0x430400 ≤ a then settleFab (ethWrite a v wlo whi s)
  else settleFab (writeBits a v wlo whi s)

/-! ### Wheels (R341) -/

def wheelBlock (a o v wlo whi : Nat) (s : State) : State :=
  let k := 0x500000 + a * 0x10000 + o
  let discard := wheelDiscard a
  if o = 0 then settleFab (if v.testBit 0 then wheelAbort a (if v.testBit 1 then wheelCntClr a s else s) else if v.testBit 1 then wheelCntClr a s else s)
  else if o = 8 ∨ o = 0xC then (if s.wheelHeld a then discard s else writeBits k v wlo whi s)
  else if o = 0x10 then
    let s1 := writeBits k v wlo whi s
    if s.isSet (WHL_FAILREC_VALID a) && !s1.isSet (WHL_FAILREC_VALID a) then s1.wr k 0 else s1
  else if 0x8000 ≤ o then
    (if v.testBit 31 && s.wheelHeld a then discard (writeBits k v wlo whi s) else ovfWrite (k - 0x1C) v wlo whi s)
  else writeBits k v wlo whi s

/-! ### Memory, power, security, device (R50, R207 to R216, R405, R407, R445, R474) -/

def memoryBlock (a v wlo whi : Nat) (s : State) : State :=
  let discard := event 0x500B srcMirror
  if a = aHBC_CTRL then
    let s1 := writeBits a v wlo whi s
    if v.testBit 2 then clearErrCounts false s1 else s1
  else if a = aLPC_CTRL then
    let s1 := writeBits a v wlo whi s
    if v.testBit 2 then clearErrCounts true s1 else s1
  else if a = aLPC_MIRCTL then mirCtlWrite v wlo whi s
  else if a = aLPC_MIRPART then (if s.mirHeld then discard s else writeBits a v wlo whi s)
  else if 0x3400200 ≤ a ∧ a < 0x3400400 then
    let r := (a - 0x3400200) / 0x20
    if a % 0x20 = 0 then mirBaseWrite r v wlo whi s
    else if s.isSet (LPC_MIRBASE_EN r) then discard s else writeBits a v wlo whi s
  else writeBits a v wlo whi s

/-- GLB: the seed's words, the ID, the coordinates and the resets. -/
def globalBlock (a v wlo whi : Nat) (s : State) : State :=
  if a = aGLB_JOBSEED 3 then commitSeed (BitVec.ofNat 32 v) s
  else if 0x200 ≤ a ∧ a < 0x20C then holdSeed ((a - 0x200) / 4) v s
  else if a = aGLB_DEVID then (if s.armed then event 0x7007 srcRouter s else writeBits a v wlo whi s)
  else if a = aGLB_COORD then settleFab (coordWrite v wlo whi s)
  else if a = aGLB_RESET then glbReset v s
  else if a = aGLB_TILERST then forAll (List.range 24) (fun t s => if v.testBit t then tileReset t s else s) s
  else writeBits a v wlo whi s

def securityBlock (a v wlo whi : Nat) (s : State) : State :=
  if a = aSEC_SVNCOMMIT then svnCommit (v % 256) s
  else if a = aSEC_UPDBUF ∧ s.mgt.update.isSome then event 0xC008 srcSecurity s
  else writeBits a v wlo whi s

def powerBlock (a v wlo whi : Nat) (s : State) : State :=
  if a = aPWR_CTRL then pwrCtrl v s
  else if aPWR_STRETCH 0 ≤ a ∧ a < aPWR_STRETCH 4 then stretchWrite ((a - aPWR_STRETCH 0) / 4) v wlo whi s
  else writeBits a v wlo whi s

/-! ### Host blocks (R366, R370, R380, R382, R383, R386, R387) -/

/-- A port's HST block, its DMA channels, mailboxes and what BAR2 alone presents. -/
def hostBlock (a v wlo whi : Nat) (s : State) : State :=
  if 0x8000000 ≤ a then
    let p := (a - 0x8000000) / 0x1000000
    let o := a % 0x1000000
    if o < 0x300000 then
      let k := (o - 0x200000) / 0x20
      if (s.port p).posts.any (·.1 == k) then event 0xA008 (srcHost p 0) s else writeBits a v wlo whi s
    else flushVectors p (writeBits a v wlo whi s)
  else if 0x3D00000 ≤ a then
    let p := (a - 0x3D00000) / 0x10000
    let c := a % 0x10000 / 0x40
    if a = aDMA_CFG p c then dmaCfgWrite p c v wlo whi s
    else if a = aDMA_PROD p c then dmaProdWrite p c (v % 65536) s
    else writeBits a v wlo whi s
  else
    let p := (a - 0x3C80000) / 0x10000
    let o := a % 0x10000
    if o = 0 then (if v.testBit 0 then settleFab (clearMailboxes (16 * p) (srcHost p 0) s) else s)
    else if 0x40 ≤ o ∧ o < 0x80 then b4mapWrite p ((o - 0x40) / 8) v wlo whi s
    else if 0x8000 ≤ o then fwatchWrite p ((o - 0x8000) / 8) v wlo whi s
    else writeBits a v wlo whi s

/-! ### Dispatch by block (R31, R32, R476) -/

/-- What a write of bits `[whi:wlo]` of `v` to the register at key `a` does. -/
def registerEffect (a v wlo whi : Nat) (s : State) : State :=
  if a < 0x100000 then globalBlock a v wlo whi s
  else if a < 0x190000 then writeBits a v wlo whi s
  else if a < 0x200000 then queBlock 124 (a - 0x1F0000) v wlo whi s
  else if a < 0x300000 then (if a = aEVR_CTRL then evrCtrl v wlo whi s else writeBits a v wlo whi s)
  else if a < 0x400000 then (if a = aFTM_CTRL then ftmCtrl v s else writeBits a v wlo whi s)
  else if a < 0x418000 then linkBlock ((a - 0x400000) / 0x1000) (a % 0x1000) v wlo whi s
  else if a < 0x430000 then portBlock a v wlo whi s
  else if a < 0x500000 then routeBlock a v wlo whi s
  else if a < 0x600000 then wheelBlock ((a - 0x500000) / 0x10000) (a % 0x10000) v wlo whi s
  else if a < 0xF80000 then queBlock (120 + (a - 0xF00000) / 0x10000) (a % 0x10000) v wlo whi s
  else if a < 0x1000000 then setBlock 24 (a - 0xF80000) v wlo whi s
  else if a < 0x2800000 then tileBlock ((a - 0x1000000) / 0x100000) (a % 0x100000) a v wlo whi s
  else if a < 0x3800000 then memoryBlock a v wlo whi s
  else if a < 0x3C00000 then powerBlock a v wlo whi s
  else if a < 0x3C80000 then securityBlock a v wlo whi s
  else hostBlock a v wlo whi s

/-! ### Who may write, and how wide (R7, R11, R371, R374) -/

/-- Whether a write of bits `[whi:wlo]` meets a field that writes act on. -/
def RegRow.writable (r : RegRow) (wlo whi : Nat) : Bool :=
  r.fields.any fun f => f.acc != .ro && f.acc != .rcl && decide (max f.lo wlo ≤ min f.hi whi)

/-- Whether port `p` may write the register at key `a`: its own HST block and BAR2 structures, and everything else as the
owner. -/
def State.mayWriteReg (s : State) (p a : Nat) : Bool :=
  if 0x8000000 ≤ a then true
  else if 0x3C80000 ≤ a ∧ a < 0x3CA0000 then (a - 0x3C80000) / 0x10000 == p
  else s.owns p

/-- A write of bits `[whi:wlo]` of the register at key `a`, that port `p` made at an offset of a BAR (0 BAR0, 1 BAR2). -/
def writeHalf (p bar off a v wlo whi : Nat) (s : State) : State :=
  if s.isSet (HST_STAT_FROZEN p) then s.incSat (HST_VIOLREC_COUNT p) 1
  else match regRow a with
    | none => wakeByAccess a s
    | some r =>
        if !r.writable wlo whi then wakeByAccess a s
        else if s.mayWriteReg p a then registerEffect a v wlo whi (wakeByAccess a s)
        else violation p bar off s

/-- The key of the register that holds a BAR2 offset of port `p`: a mailbox's in BAR0, or the port's own. -/
def bar2Key (p off : Nat) : Nat := if 0x100000 ≤ off ∧ off < 0x10C000 then off + 0x80000 else 0x8000000 + p * 0x1000000 + off

/-- Whether a BAR2 offset is a mailbox's MBX_CONS, which its receiver writes there; BAR0 shows it read-only (R396). -/
def isCons (bar off : Nat) : Bool := bar == 1 && decide (0x100000 ≤ off) && decide (off < 0x10C000) && off % 0x400 == 0x204

/-- A 32-bit write at an offset: a doorbell, a mailbox's CONS, a register, or half of a 64-bit one. -/
def write32 (p bar off v : Nat) (s : State) : State :=
  if bar = 1 ∧ off < 0x19000 ∧ off % 0x1000 < 0x800 then hostWrite p true 1 off (fun s => addFlag (off / 0x1000) (off % 0x1000 / 4) (v % 65536) (accessSet (off / 0x1000) s)) s
  else if isCons bar off then consWrite p ((off - 0x100000) / 0x400) (v % 65536) s
  else
    let a := if bar = 1 then bar2Key p off else off
    let wide := off % 8 = 4 ∧ (regRow (a - 4)).any fun r => r.wide
    if wide then writeHalf p bar off (a - 4) (v * 2 ^ 32) 32 63 s else writeHalf p bar off a v 0 31 s

/-- A 64-bit write: atomic for a 64-bit register, else the lower half first. -/
def write64 (p bar off v : Nat) (s : State) : State :=
  let a := if bar = 1 then bar2Key p off else off
  if (bar = 1 → 0x19000 ≤ off) ∧ (regRow a).any fun r => r.wide then writeHalf p bar off a v 0 63 s
  else write32 p bar (off + 4) (v / 2 ^ 32) (write32 p bar off (v % 2 ^ 32) s)

/-- A host's write of `bytes` bytes to BAR0 or BAR2. -/
def execRegisterWrite (p : PortId) (bar2 : Bool) (off : BitVec 26) (bytes : Nat) (v : BitVec 64) (s : State) : Res :=
  let o := if bar2 then off.toNat % 0x1000000 else off.toNat
  .next (if !s.ready then s
    else if bytes = 4 ∧ o % 4 = 0 then write32 p bar2.toNat o (v.toNat % 2 ^ 32) s
    else if bytes = 8 ∧ o % 8 = 0 then write64 p bar2.toNat o v.toNat s
    else if s.isSet (HST_STAT_FROZEN p) then s.incSat (HST_VIOLREC_COUNT p) 1
    else event 0xA001 (srcHost p 0) s)

end Sys2Proof.Machine
end

