-- ==== Sys2Proof/Machine/Jtag.lean ====
section
/-! DEFINITION. The test access port's instructions (R471). -/

namespace Sys2Proof.Machine

/-- Whether the port is reachable: VDD_AON and VDD_E are valid. -/
def State.tapUp (s : State) : Bool := s.railUp 10 && s.railUp 4

/-- Put an instruction in force, with what its register captures. -/
def tapPut (i : TapInstr) (cap : Option (BitVec 32)) (s : State) : State :=
  if s.tapUp then { s with tap := { s.tap with instr := i, shift := cap } } else s

/-- BYPASS captures a 0. -/
def tapBypass (s : State) : State := tapPut .bypass (some 0) s

/-- An instruction that drives the pins does so only while RESET_N is low; at any other time it is BYPASS. -/
def tapDrive (i : TapInstr) (s : State) : State := if s.boot.resetN then tapBypass s else tapPut i none s

def execBypass (s : State) : Res := .next (tapBypass s)
def execIdcode (s : State) : Res := .next (tapPut .idcode (some Config.idcode) s)
/-- The pins' levels that SAMPLE captures are the board's. -/
def execSamplePreload (pattern : BitVec 64) (s : State) : Res :=
  let s1 := tapPut .sample none s
  .next (if s.tapUp then { s1 with tap := { s1.tap with pattern := pattern } } else s1)
def execExtest (s : State) : Res := .next (tapDrive .extest s)
def execExtestPulse (s : State) : Res := .next (tapDrive .extestPulse s)
def execExtestTrain (s : State) : Res := .next (tapDrive .extestTrain s)

end Sys2Proof.Machine
end

