-- ==== Sys2Proof/Machine/Dispatch.lean ====
section
/-! DEFINITION. The meaning of each command: one arm per row of spec/opcode_table.json. -/

namespace Sys2Proof.Machine

/-- The effect of a command on everything but the queue of waiting commands. -/
def exec (i : Instr) (s : State) : Host.Outcome State Fault Refusal :=
  match i with
  | .nop q => Sys2Proof.Machine.execNop q s
  | .launch q => Sys2Proof.Machine.execLaunch q s
  | .baseadd q => Sys2Proof.Machine.execBaseadd q s
  | .setpred q => Sys2Proof.Machine.execSetpred q s
  | .stepend q => Sys2Proof.Machine.execStepend q s
  | .post q => Sys2Proof.Machine.execPost q s
  | .parkpoint q => Sys2Proof.Machine.execParkpoint q s
  | .call q => Sys2Proof.Machine.execCall q s
  | .mmf t m cyc fill => Sys2Proof.Machine.execMmf t m cyc fill s
  | .mmbi t m cyc fill => Sys2Proof.Machine.execMmbi t m cyc fill s
  | .mmbw t m cyc fill => Sys2Proof.Machine.execMmbw t m cyc fill s
  | .erun t cyc => Sys2Proof.Machine.execErun t cyc s
  | .estamp t => Sys2Proof.Machine.execEstamp t s
  | .fcopy t f => Sys2Proof.Machine.execFcopy t f s
  | .fmove t f => Sys2Proof.Machine.execFmove t f s
  | .ftint t f => Sys2Proof.Machine.execFtint t f s
  | .fmirsync t f => Sys2Proof.Machine.execFmirsync t f s
  | .allreduce a => Sys2Proof.Machine.execAllreduce a s
  | .redscat a => Sys2Proof.Machine.execRedscat a s
  | .allgather a => Sys2Proof.Machine.execAllgather a s
  | .bcast a => Sys2Proof.Machine.execBcast a s
  | .alltoall a => Sys2Proof.Machine.execAlltoall a s
  | .shift a => Sys2Proof.Machine.execShift a s
  | .permute a => Sys2Proof.Machine.execPermute a s
  | .telemSnap => Sys2Proof.Machine.execTelemSnap s
  | .eventMark => Sys2Proof.Machine.execEventMark s
  | .whlseqSet => Sys2Proof.Machine.execWhlseqSet s
  | .shareSet => Sys2Proof.Machine.execShareSet s
  | .gateSet => Sys2Proof.Machine.execGateSet s
  | .ovfClr => Sys2Proof.Machine.execOvfClr s
  | .waitMet q => Sys2Proof.Machine.execWaitMet q s
  | .commandRetire q => Sys2Proof.Machine.execCommandRetire q s
  | .sluiceOpen q => Sys2Proof.Machine.execSluiceOpen q s
  | .preWake q => Sys2Proof.Machine.execPreWake q s
  | .stepAdvance g => Sys2Proof.Machine.execStepAdvance g s
  | .waitLimitExpiry q => Sys2Proof.Machine.execWaitLimitExpiry q s
  | .queuePark q => Sys2Proof.Machine.execQueuePark q s
  | .start p q => Sys2Proof.Machine.execStart p q s
  | .resume p q => Sys2Proof.Machine.execResume p q s
  | .parkreq p q on => Sys2Proof.Machine.execParkreq p q on s
  | .thaw p q => Sys2Proof.Machine.execThaw p q s
  | .thawnext p q => Sys2Proof.Machine.execThawnext p q s
  | .qreset p q => Sys2Proof.Machine.execQreset p q s
  | .matrixParityFault t m begun => Sys2Proof.Machine.execMatrixParityFault t m begun s
  | .elementParityFault t begun => Sys2Proof.Machine.execElementParityFault t begun s
  | .flumeParityFault t f begun => Sys2Proof.Machine.execFlumeParityFault t f begun s
  | .ballastRampDown t m => Sys2Proof.Machine.execBallastRampDown t m s
  | .tileClockGate t => Sys2Proof.Machine.execTileClockGate t s
  | .tilePowerGateEntry t => Sys2Proof.Machine.execTilePowerGateEntry t s
  | .tileIsolation t => Sys2Proof.Machine.execTileIsolation t s
  | .tilePowerGateComplete t => Sys2Proof.Machine.execTilePowerGateComplete t s
  | .tileWake t => Sys2Proof.Machine.execTileWake t s
  | .tileWakeComplete t => Sys2Proof.Machine.execTileWakeComplete t s
  | .tilGateWake p t => Sys2Proof.Machine.execTilGateWake p t s
  | .glbJobseedCommit p v => Sys2Proof.Machine.execGlbJobseedCommit p v s
  | .tilOvfClr p t ix => Sys2Proof.Machine.execTilOvfClr p t ix s
  | .mxeCntClr p t m => Sys2Proof.Machine.execMxeCntClr p t m s
  | .eleCntClr p t => Sys2Proof.Machine.execEleCntClr p t s
  | .flmCntClr p t f => Sys2Proof.Machine.execFlmCntClr p t f s
  | .hbcCntClr p lpc => Sys2Proof.Machine.execHbcCntClr p lpc s
  | .tilFlagWrite p g f v => Sys2Proof.Machine.execTilFlagWrite p g f v s
  | .tilFlagadd p g f v => Sys2Proof.Machine.execTilFlagadd p g f v s
  | .go p g v => Sys2Proof.Machine.execGo p g v s
  | .loadDone g => Sys2Proof.Machine.execLoadDone g s
  | .save p g v => Sys2Proof.Machine.execSave p g v s
  | .saveDone g => Sys2Proof.Machine.execSaveDone g s
  | .parkall p g => Sys2Proof.Machine.execParkall p g s
  | .patrolScrub addr errs => Sys2Proof.Machine.execPatrolScrub addr errs s
  | .mirRegionEnable p r => Sys2Proof.Machine.execMirRegionEnable p r s
  | .mirctlEn p en => Sys2Proof.Machine.execMirctlEn p en s
  | .linkEn p n en => Sys2Proof.Machine.execLinkEn p n en s
  | .retrain p n => Sys2Proof.Machine.execRetrain p n s
  | .park p n on => Sys2Proof.Machine.execPark p n on s
  | .lpm p n on => Sys2Proof.Machine.execLpm p n on s
  | .lnkCntClr p n => Sys2Proof.Machine.execLnkCntClr p n s
  | .lnkTest p n v errs => Sys2Proof.Machine.execLnkTest p n v errs s
  | .lnkPlanWrite p n v => Sys2Proof.Machine.execLnkPlanWrite p n v s
  | .linkTrained n => Sys2Proof.Machine.execLinkTrained n s
  | .trainingTimeout n => Sys2Proof.Machine.execTrainingTimeout n s
  | .absentRetry n => Sys2Proof.Machine.execAbsentRetry n s
  | .helloTimeout n => Sys2Proof.Machine.execHelloTimeout n s
  | .helloSend n => Sys2Proof.Machine.execHelloSend n s
  | .lockLost n => Sys2Proof.Machine.execLockLost n s
  | .failedHoldExpiry n => Sys2Proof.Machine.execFailedHoldExpiry n s
  | .replayTimeout n => Sys2Proof.Machine.execReplayTimeout n s
  | .cellSend n => Sys2Proof.Machine.execCellSend n s
  | .idle n fec cell => Sys2Proof.Machine.execIdle n fec cell s
  | .hello n cell => Sys2Proof.Machine.execHello n cell s
  | .link n cell => Sys2Proof.Machine.execLink n cell s
  | .check p => Sys2Proof.Machine.execCheck p s
  | .arm p => Sys2Proof.Machine.execArm p s
  | .disarm p => Sys2Proof.Machine.execDisarm p s
  | .prtProtoWrite p v => Sys2Proof.Machine.execPrtProtoWrite p v s
  | .glbCoordWrite p v => Sys2Proof.Machine.execGlbCoordWrite p v s
  | .routingTableWrite p dark d v => Sys2Proof.Machine.execRoutingTableWrite p dark d v s
  | .segf n fec cell => Sys2Proof.Machine.execSegf n fec cell s
  | .seg n fec cell => Sys2Proof.Machine.execSeg n fec cell s
  | .segWrite src cls msg => Sys2Proof.Machine.execSegWrite src cls msg s
  | .segRead src cls msg => Sys2Proof.Machine.execSegRead src cls msg s
  | .segRdata src cls msg => Sys2Proof.Machine.execSegRdata src cls msg s
  | .segAdd src cls msg => Sys2Proof.Machine.execSegAdd src cls msg s
  | .segMirror src cls msg => Sys2Proof.Machine.execSegMirror src cls msg s
  | .grant n cell => Sys2Proof.Machine.execGrant n cell s
  | .signal n cell => Sys2Proof.Machine.execSignal n cell s
  | .notice n cell => Sys2Proof.Machine.execNotice n cell s
  | .noticeFull n cell => Sys2Proof.Machine.execNoticeFull n cell s
  | .noticeAborted n cell => Sys2Proof.Machine.execNoticeAborted n cell s
  | .refuse n cell => Sys2Proof.Machine.execRefuse n cell s
  | .flush n cell => Sys2Proof.Machine.execFlush n cell s
  | .adaptiveFallback => Sys2Proof.Machine.execAdaptiveFallback s
  | .transportResend dst cls msg => Sys2Proof.Machine.execTransportResend dst cls msg s
  | .transportGiveUp dst cls msg => Sys2Proof.Machine.execTransportGiveUp dst cls msg s
  | .open_ p => Sys2Proof.Machine.execOpen p s
  | .stamp p dark => Sys2Proof.Machine.execStamp p dark s
  | .retire p => Sys2Proof.Machine.execRetire p s
  | .flrep p on => Sys2Proof.Machine.execFlrep p on s
  | .flclr p => Sys2Proof.Machine.execFlclr p s
  | .rteCntClr p => Sys2Proof.Machine.execRteCntClr p s
  | .flushReportSend => Sys2Proof.Machine.execFlushReportSend s
  | .flushGuardExpiry => Sys2Proof.Machine.execFlushGuardExpiry s
  | .ethFrameSend n cls gw => Sys2Proof.Machine.execEthFrameSend n cls gw s
  | .ethFrameReceive n frame => Sys2Proof.Machine.execEthFrameReceive n frame s
  | .pfcFrameReceive n prio quanta => Sys2Proof.Machine.execPfcFrameReceive n prio quanta s
  | .pfcRepeat n cls => Sys2Proof.Machine.execPfcRepeat n cls s
  | .lldpSend n => Sys2Proof.Machine.execLldpSend n s
  | .lldpReceive n pdu => Sys2Proof.Machine.execLldpReceive n pdu s
  | .colChunk n cells => Sys2Proof.Machine.execColChunk n cells s
  | .colGrant n cell => Sys2Proof.Machine.execColGrant n cell s
  | .close n cell => Sys2Proof.Machine.execClose n cell s
  | .colAbort n cell => Sys2Proof.Machine.execColAbort n cell s
  | .chunkResend a => Sys2Proof.Machine.execChunkResend a s
  | .progressTimeout a => Sys2Proof.Machine.execProgressTimeout a s
  | .collectiveComplete a => Sys2Proof.Machine.execCollectiveComplete a s
  | .whlAbort p a => Sys2Proof.Machine.execWhlAbort p a s
  | .whlCntClr p a => Sys2Proof.Machine.execWhlCntClr p a s
  | .timeRequestSend n => Sys2Proof.Machine.execTimeRequestSend n s
  | .timeRequest n cell t => Sys2Proof.Machine.execTimeRequest n cell t s
  | .timeReply n cell t => Sys2Proof.Machine.execTimeReply n cell t s
  | .parentUnusable => Sys2Proof.Machine.execParentUnusable s
  | .timePpsInEdge t => Sys2Proof.Machine.execTimePpsInEdge t s
  | .ppsLoss => Sys2Proof.Machine.execPpsLoss s
  | .timePpsOutPulse => Sys2Proof.Machine.execTimePpsOutPulse s
  | .capt p => Sys2Proof.Machine.execCapt p s
  | .ftmLoad p => Sys2Proof.Machine.execFtmLoad p s
  | .ftmCntClr p => Sys2Proof.Machine.execFtmCntClr p s
  | .perst port => Sys2Proof.Machine.execPerst port s
  | .functionLevelReset port => Sys2Proof.Machine.execFunctionLevelReset port s
  | .surpriseRemoval port => Sys2Proof.Machine.execSurpriseRemoval port s
  | .bar4Access port off write len data ep => Sys2Proof.Machine.execBar4Access port off write len data ep s
  | .hstClaim port => Sys2Proof.Machine.execHstClaim port s
  | .hstRelease port => Sys2Proof.Machine.execHstRelease port s
  | .hstSeize port => Sys2Proof.Machine.execHstSeize port s
  | .hstViolrecRead p port => Sys2Proof.Machine.execHstViolrecRead p port s
  | .hstPortthaw port => Sys2Proof.Machine.execHstPortthaw port s
  | .dbl p g f v => Sys2Proof.Machine.execDbl p g f v s
  | .mbxPost p k => Sys2Proof.Machine.execMbxPost p k s
  | .postwaitExpiry p k => Sys2Proof.Machine.execPostwaitExpiry p k s
  | .mbxCons p m v => Sys2Proof.Machine.execMbxCons p m v s
  | .mbxclr p => Sys2Proof.Machine.execMbxclr p s
  | .hstFwatchArm p w v => Sys2Proof.Machine.execHstFwatchArm p w v s
  | .dmaProd p port c v => Sys2Proof.Machine.execDmaProd p port c v s
  | .dmaCfgEn p port c v => Sys2Proof.Machine.execDmaCfgEn p port c v s
  | .dmaDescriptorComplete port c => Sys2Proof.Machine.execDmaDescriptorComplete port c s
  | .quePostrecRead p q => Sys2Proof.Machine.execQuePostrecRead p q s
  | .lpcMirunmirRead p => Sys2Proof.Machine.execLpcMirunmirRead p s
  | .hstPostrecRead p port => Sys2Proof.Machine.execHstPostrecRead p port s
  | .mgtRepdropRead p => Sys2Proof.Machine.execMgtRepdropRead p s
  | .watchdogReset => Sys2Proof.Machine.execWatchdogReset s
  | .telemetrySample load vals => Sys2Proof.Machine.execTelemetrySample load vals s
  | .mbxTelemetry => Sys2Proof.Machine.execMbxTelemetry s
  | .mbxCertificates => Sys2Proof.Machine.execMbxCertificates s
  | .mbxTagArea ok => Sys2Proof.Machine.execMbxTagArea ok s
  | .mbxUpdate => Sys2Proof.Machine.execMbxUpdate s
  | .mbxMeasurements => Sys2Proof.Machine.execMbxMeasurements s
  | .replyRetry => Sys2Proof.Machine.execReplyRetry s
  | .getVersion b req => Sys2Proof.Machine.execGetVersion b req s
  | .getCapabilities b req => Sys2Proof.Machine.execGetCapabilities b req s
  | .negotiateAlgorithms b req => Sys2Proof.Machine.execNegotiateAlgorithms b req s
  | .getDigests b req => Sys2Proof.Machine.execGetDigests b req s
  | .getCertificate b req => Sys2Proof.Machine.execGetCertificate b req s
  | .challenge b req => Sys2Proof.Machine.execChallenge b req s
  | .getMeasurements b req => Sys2Proof.Machine.execGetMeasurements b req s
  | .respondIfReady b req => Sys2Proof.Machine.execRespondIfReady b req s
  | .spdmUnsupportedRequest b req => Sys2Proof.Machine.execSpdmUnsupportedRequest b req s
  | .setEndpointId b eid => Sys2Proof.Machine.execSetEndpointId b eid s
  | .gettid b => Sys2Proof.Machine.execGettid b s
  | .settid b tid => Sys2Proof.Machine.execSettid b tid s
  | .getpldmversion b ty => Sys2Proof.Machine.execGetpldmversion b ty s
  | .getpldmtypes b => Sys2Proof.Machine.execGetpldmtypes b s
  | .getpldmcommands b ty => Sys2Proof.Machine.execGetpldmcommands b ty s
  | .getsensorreading b sensor => Sys2Proof.Machine.execGetsensorreading b sensor s
  | .getstatesensorreadings b sensor => Sys2Proof.Machine.execGetstatesensorreadings b sensor s
  | .seteventreceiver b eid => Sys2Proof.Machine.execSeteventreceiver b eid s
  | .pdrRepository b req => Sys2Proof.Machine.execPdrRepository b req s
  | .pldmFruData b write data ok => Sys2Proof.Machine.execPldmFruData b write data ok s
  | .pldmInvalidType b ty => Sys2Proof.Machine.execPldmInvalidType b ty s
  | .requestupdate b size => Sys2Proof.Machine.execRequestupdate b size s
  | .updateImageData off data => Sys2Proof.Machine.execUpdateImageData off data s
  | .updateFlashDone ok => Sys2Proof.Machine.execUpdateFlashDone ok s
  | .activatefirmware b => Sys2Proof.Machine.execActivatefirmware b s
  | .recoveryUpdateTimeout => Sys2Proof.Machine.execRecoveryUpdateTimeout s
  | .secSvncommit p v => Sys2Proof.Machine.execSecSvncommit p v s
  | .svnFuseDone => Sys2Proof.Machine.execSvnFuseDone s
  | .coldReset => Sys2Proof.Machine.execColdReset s
  | .deviceReset p key => Sys2Proof.Machine.execDeviceReset p key s
  | .tileReset p t => Sys2Proof.Machine.execTileReset p t s
  | .bootRomCheck => Sys2Proof.Machine.execBootRomCheck s
  | .firmwareStart => Sys2Proof.Machine.execFirmwareStart s
  | .memoryInitialisation refused => Sys2Proof.Machine.execMemoryInitialisation refused s
  | .memoryClear => Sys2Proof.Machine.execMemoryClear s
  | .deviceReady ms => Sys2Proof.Machine.execDeviceReady ms s
  | .eventRecord code source detail => Sys2Proof.Machine.execEventRecord code source detail s
  | .redFlashCopy ok => Sys2Proof.Machine.execRedFlashCopy ok s
  | .redEscalation => Sys2Proof.Machine.execRedEscalation s
  | .tokenRefill => Sys2Proof.Machine.execTokenRefill s
  | .evrFaultClear p => Sys2Proof.Machine.execEvrFaultClear p s
  | .evrCntClr p => Sys2Proof.Machine.execEvrCntClr p s
  | .bridgeError b => Sys2Proof.Machine.execBridgeError b s
  | .supplyLoss r => Sys2Proof.Machine.execSupplyLoss r s
  | .supplyDip r => Sys2Proof.Machine.execSupplyDip r s
  | .thermalTrip sensor => Sys2Proof.Machine.execThermalTrip sensor s
  | .junctionThrottle d temp => Sys2Proof.Machine.execJunctionThrottle d temp s
  | .prochotNAssert => Sys2Proof.Machine.execProchotNAssert s
  | .prochotNRelease => Sys2Proof.Machine.execProchotNRelease s
  | .currentCap d mean => Sys2Proof.Machine.execCurrentCap d mean s
  | .throttleStep d => Sys2Proof.Machine.execThrottleStep d s
  | .pwrForce p d v => Sys2Proof.Machine.execPwrForce p d v s
  | .pwrCntClr p => Sys2Proof.Machine.execPwrCntClr p s
  | .avsCurrentRead iface reading => Sys2Proof.Machine.execAvsCurrentRead iface reading s
  | .avsStatusAlert r st => Sys2Proof.Machine.execAvsStatusAlert r st s
  | .avsWriteRetry r tries confirmed => Sys2Proof.Machine.execAvsWriteRetry r tries confirmed s
  | .memoryOvertemp u temp => Sys2Proof.Machine.execMemoryOvertemp u temp s
  | .bypass => Sys2Proof.Machine.execBypass s
  | .idcode => Sys2Proof.Machine.execIdcode s
  | .samplePreload pattern => Sys2Proof.Machine.execSamplePreload pattern s
  | .extest => Sys2Proof.Machine.execExtest s
  | .extestPulse => Sys2Proof.Machine.execExtestPulse s
  | .extestTrain => Sys2Proof.Machine.execExtestTrain s
  | .registerWrite p bar2 off bytes v => Sys2Proof.Machine.execRegisterWrite p bar2 off bytes v s
  | .discardedCell n cell uncorrectable => Sys2Proof.Machine.execDiscardedCell n cell uncorrectable s
  | .supplyValid r => Sys2Proof.Machine.execSupplyValid r s
  | .resetNRise straps => Sys2Proof.Machine.execResetNRise straps s
  | .perstDeassertion port => Sys2Proof.Machine.execPerstDeassertion port s
  | .configurationRequest port w => Sys2Proof.Machine.execConfigurationRequest port w s
  | .hostPortLinkUp port => Sys2Proof.Machine.execHostPortLinkUp port s
  | .hostReadCompletion port tag ok data ep => Sys2Proof.Machine.execHostReadCompletion port tag ok data ep s
  | .completionTimeout port tag => Sys2Proof.Machine.execCompletionTimeout port tag s
  | .duplicateKeyExpiry src cls msg => Sys2Proof.Machine.execDuplicateKeyExpiry src cls msg s
  | .doubledRefresh k temp => Sys2Proof.Machine.execDoubledRefresh k temp s
  | .mbxReservedService m => Sys2Proof.Machine.execMbxReservedService m s

end Sys2Proof.Machine
end

