-- ==== Sys2Proof/Machine/Read.lean ====
section
/-! DEFINITION. A host's read of any register or doorbell (R7 to R12, R131, R151, R363, R371, R372, R375, R377, R380, R396).
The command table has rows for the reads that act; log entry 55 says how this operation stands beside them. -/

namespace Sys2Proof.Machine

/-- The bits a read shows: those of every field but the write-only ones; reserved bits read 0. -/
def RegRow.shown (r : RegRow) : Nat :=
  r.fields.foldl (fun m f => if f.acc = .wo then m else m + (2 ^ (f.hi + 1 - f.lo) - 1) * 2 ^ f.lo) 0

/-- The queue whose block holds the register at key `a`, and the offset in it. -/
def queueAt (a : Nat) : Option (Nat × Nat) :=
  if 0x1F0000 ≤ a ∧ a < 0x200000 then some (124, a % 0x10000)
  else if 0xF00000 ≤ a ∧ a < 0xF40000 then some (120 + (a - 0xF00000) / 0x10000, a % 0x10000)
  else if 0x1000000 ≤ a ∧ a < 0x2800000 ∧ 0x80000 ≤ a % 0x100000 ∧ a % 0x100000 < 0xD0000 then
    some ((a - 0x1000000) / 0x100000 * 5 + (a % 0x100000 - 0x80000) / 0x10000, a % 0x10000)
  else none

/-- What the register of a row shows at key `a`.  QUE_BASE_0 reads as the queue's own scratchpad base, and the start, increment
and modulus of base register 0 are reserved (R131, R151). -/
def State.regValue (s : State) (r : RegRow) (a : Nat) : Nat :=
  let plain := (s.rd a).toNat &&& r.shown
  match queueAt a with
  | some (q, o) => if o = 0x100 then s.br q 0 else if o = 0x180 ∨ o = 0x200 ∨ o = 0x280 then 0 else plain
  | none => plain

/-- Whether bits `[hi:lo]` of a register meet a field. -/
def FieldRow.meets (f : FieldRow) (lo hi : Nat) : Bool := decide (max f.lo lo ≤ min f.hi hi)

/-- The fields that a read of bits `[hi:lo]` clears (R8). -/
def clearRead (r : RegRow) (a lo hi : Nat) (s : State) : State :=
  forAll (r.fields.filter fun f => f.acc == .rcl && f.meets lo hi) (fun f s => s.set ⟨a, f.lo, f.hi + 1 - f.lo⟩ 0) s

/-- Whether the port serves a read before readiness: of the GLB and HST blocks (R363). -/
def servedEarly (bar a : Nat) : Bool := bar == 0 && (decide (a < 0x100000) || (decide (0x3C80000 ≤ a) && decide (a ≤ 0x3CA0000)))

/-- What a read of a register that acts does: of the port's own block it acts, of the other port's it returns 0. -/
def readActs (p a : Nat) : Option (State → State) :=
  if a = aHST_CLAIM p then some (claimRead p)
  else if a = aHST_RELEASE p then some (releaseRead p)
  else if a = aHST_SEIZE p then some (seizeRead p)
  else if a = aHST_PORTTHAW p then some (thawRead p)
  else if [aHST_CLAIM, aHST_RELEASE, aHST_SEIZE, aHST_PORTTHAW].any fun f => a == f (1 - p) then some (readReply p 0)
  else if 0x8200000 ≤ a ∧ a % 0x1000000 < 0x200100 ∧ a % 0x1000000 % 0x20 = 0x18 then some (hostPost p (a % 0x1000000 % 0x200000 / 0x20))
  else none

/-- Read bits `[hi:lo]` of the register at key `a`; an unoccupied offset, and one not served yet, reads 0 (R11, R363). -/
def readHalf (p bar a lo hi : Nat) (s : State) : State :=
  if !s.ready && !servedEarly bar a then readReply p 0 s
  else match regRow a with
    | none => readReply p 0 (wakeByAccess a s)
    | some r => match readActs p a with
      | some act => act s
      | none =>
          let s1 := wakeByAccess a s
          let s2 := clearRead r a lo hi (readReply p (BitVec.ofNat 64 (getBits (s1.regValue r a) lo (hi + 1 - lo))) s1)
          if a = aHST_VIOLREC 0 then violSeen p 0 s2 else if a = aHST_VIOLREC 1 then violSeen p 1 s2 else s2

/-- A 32-bit read at an offset: a doorbell, a register, or half of a 64-bit one. -/
def read32 (p bar off : Nat) (s : State) : State :=
  if bar = 1 ∧ off < 0x19000 ∧ off % 0x1000 < 0x800 then
    readReply p (BitVec.ofNat 64 (if s.ready then s.flag (off / 0x1000) (off % 0x1000 / 4) else 0)) s
  else
    let a := if bar = 1 then bar2Key p off else off
    if off % 8 = 4 ∧ (regRow (a - 4)).any fun r => r.wide then readHalf p bar (a - 4) 32 63 s else readHalf p bar a 0 31 s

/-- A 64-bit read: atomic for a 64-bit register, else the lower half first, each half with its own answer. -/
def read64 (p bar off : Nat) (s : State) : State :=
  let a := if bar = 1 then bar2Key p off else off
  if (bar = 1 → 0x19000 ≤ off) ∧ (regRow a).any fun r => r.wide then readHalf p bar a 0 63 s
  else read32 p bar (off + 4) (read32 p bar off s)

/-- A host's read of `bytes` bytes of BAR0 or BAR2: one that is narrow or not aligned returns 0, with a grey event. -/
def registerRead (p : PortId) (bar2 : Bool) (off : BitVec 26) (bytes : Nat) (s : State) : State :=
  let o := if bar2 then off.toNat % 0x1000000 else off.toNat
  if bytes = 4 ∧ o % 4 = 0 then read32 p bar2.toNat o s
  else if bytes = 8 ∧ o % 8 = 0 then read64 p bar2.toNat o s
  else readReply p 0 (if s.ready || servedEarly bar2.toNat o then event 0xA001 (srcHost p 0) s else s)

end Sys2Proof.Machine
end

