-- ==== Sys2Proof/Safety.lean ====
section
/-! DEFINITION. What a safe run is, in the terms statements use. -/

namespace Sys2Proof.Machine

/-- The step goes on: it answers a next state. -/
def Completes (s : State) : Prop := ∃ t, step s = .next t

/-- The canonical forms every step keeps: each sparse store lists its keys in rising order and no entry at its
default, so that equal stores are equal data. -/
structure Inv (s : State) : Prop where
  regs : tabWf regReset s.regs = true
  mem : tabWf (fun _ => (0 : Byte)) s.mem = true
  poison : tabWf (fun _ => false) s.poison = true
  errs : tabWf (fun _ => (0 : Byte)) s.errs = true
  imem : tabWf (fun _ => (0 : CmdBits)) s.imem = true
  ques : tabWf (fun _ => ({} : QueSt)) s.ques = true
  banks : tabWf (fun _ => (0 : BitVec 32)) s.banks = true
  landings : tabWf (fun _ => ({} : RowWrites)) s.landings = true
  mxes : tabWf (fun _ => ({} : MxSt)) s.mxes = true
  gates : tabWf (fun _ => ({} : GateSt)) s.gates = true
  links : tabWf (fun _ => ({} : LinkSt)) s.links = true
  ports : tabWf (fun _ => ({} : PortSt)) s.ports = true
  dmas : tabWf (fun _ => ({} : DmaJob)) s.dmas = true
  wheels : tabWf (fun _ => ({} : WheelSt)) s.wheels = true
  loads : tabWf (fun _ => ({} : LoadJob)) s.loads = true

/-- What no command undoes: the waiting commands are the step's alone, what has left the device stays outside it, and
the numbers given only grow. -/
structure State.Evolves (s t : State) : Prop where
  pending : t.pending = s.pending
  out : s.out <:+ t.out
  nextUid : s.nextUid ≤ t.nextUid
  freeCtr : s.freeCtr ≤ t.freeCtr
  inv : Inv s → Inv t

/-! ### Commands at the head of a queue (R121) -/

/-- The word of a queue's head command. -/
def State.headWord (s : State) (q : Nat) : CmdBits := (s.headCmd q).2.2

/-- Queue `q`'s head command has opcode `op` and passes every stage before its work: it is at the head of a running queue
that may begin it, its tile is awake, no freeze or park is due at this boundary, its line of instruction memory can be read, its
WAIT is met, a SIGNAL that leaves the device may be sent, and its predicate is true, now or when it was read. -/
structure State.HeadRuns (s : State) (q op : Nat) (serial : Bool) : Prop where
  atHead : s.atHead q op = true
  mayBegin : s.mayBegin q serial = true
  awake : s.awake q = true
  noFreeze : (s.que q).pendingFreeze = none
  noPark : s.parksHere q = false
  fetched : s.fetchFails q = false
  waited : hdrWaitFlag (s.headWord q) = 0 ∨ (s.que q).waited = true ∨
    s.waitMet (homeSet q) (hdrWaitFlag (s.headWord q)) (hdrWaitValue (s.headWord q)) (s.headCmd q).2.1 = true
  signal : (s.signalsOut q (s.headWord q) && !s.armed) = false
  executes : (s.que q).chosen = true ∨ s.executes (homeSet q) (s.headWord q) = true

/-- The head command of queue `q` is one fetched at PC, not one that a thaw runs again. -/
def State.Fresh (s : State) (q : Nat) : Prop := s.rerunHead q = none

/-- From `s` to `t` queue `q` issued its head command, as `e`, and went on to the next command: PC moves past it, and after
the last command of a pass returns to 0 with PASS counted (R119). -/
structure State.MovesOn (s t : State) (q : Nat) (e : Issued) : Prop where
  issued : (t.que q).issued = (s.que q).issued ++ [e]
  pc : t.get (QUE_STAT_PC q) = if s.get (QUE_STAT_PC q) + 1 < s.get (QUE_PROG_LEN q) then (s.get (QUE_STAT_PC q) + 1) % 8192 else 0
  pass : t.get (QUE_PASS_PASS q) = if s.get (QUE_STAT_PC q) + 1 < s.get (QUE_PROG_LEN q) then s.get (QUE_PASS_PASS q)
    else (s.get (QUE_PASS_PASS q) + 1) % 2 ^ 32

/-- From `s` to `t` no register changes outside `P`. -/
def State.RegsBut (P : Nat → Prop) (s t : State) : Prop := ∀ a, ¬ P a → t.rd a = s.rd a

/-- The recorder and what has left the device are, in `t`, what an occurrence of event `code` makes of them in `s`
(R423, R435 to R441). -/
structure State.Logs (s : State) (code src detail : Nat) (t : State) : Prop where
  regs : ∀ a, 0x200000 ≤ a → a < 0x300000 → t.rd a = (eventD code src detail s).rd a
  evr : t.evr = (eventD code src detail s).evr

/-- A range that is read as it stands: its lines hold no symbol error and no poison, no bridge has failed (R426), and the tile
whose scratchpad holds it runs (R26). -/
structure State.Plain (s : State) (a n : Nat) : Prop where
  lines : ∀ l ∈ linesOf a n, s.lineErrs l = [] ∧ s.poisoned l = false
  bridges : s.badBridges = 0
  runs : ∀ t, padTile a = some t → (s.gate t).phase = .running

/-- From `s` to `t` memory, poison, symbol errors, instruction memory and accumulator banks stay exactly as they are. -/
structure State.KeepsStores (s t : State) : Prop where
  mem : t.mem = s.mem
  poison : t.poison = s.poison
  errs : t.errs = s.errs
  imem : t.imem = s.imem
  banks : t.banks = s.banks

/-- Base register `n` is selected by queue `q`'s head BASEADD (R132). -/
def State.Selects (s : State) (q n : Nat) : Prop := 1 ≤ n ∧ n < 16 ∧ (cmdGet (s.headWord q) 64 16).testBit n = true

/-- Queue `q` freezes at its head command, which is to run again: STATE, and the record where none stands (R147). -/
structure State.FreezesAtHead (s : State) (q code : Nat) (t : State) : Prop where
  state : t.qstate q = qFrozen
  record : s.isSet (QUE_FREEZEREC_VALID q) = false → t.get (QUE_FREEZEREC_CODE q) = code ∧ t.isSet (QUE_FREEZEREC_VALID q) = true ∧
    t.isSet (QUE_FREEZEREC_RESUME q) = false ∧ t.get (QUE_FREEZEREC_CMD q) = (s.headCmd q).1 % 8192
  kept : s.isSet (QUE_FREEZEREC_VALID q) = true → t.rd (aQUE_FREEZEREC q) = s.rd (aQUE_FREEZEREC q)
  issued : (t.que q).issued = (s.que q).issued
  pc : t.get (QUE_STAT_PC q) = s.get (QUE_STAT_PC q)

/-- The queue, the opcode, and whether it begins only after every earlier command has retired, of the rows that do nothing but
run a queue's head command (R116, R122). -/
def headRow : Instr → Option (Nat × Nat × Bool)
  | .nop q => some (q, 0x00, false)
  | .launch q => some (q, 0x01, false)
  | .baseadd q => some (q, 0x02, false)
  | .setpred q => some (q, 0x03, true)
  | .stepend q => some (q, 0x04, false)
  | .parkpoint q => some (q, 0x06, false)
  | .mmf t m _ _ => some (t.val * 5 + m.val, 0x10, false)
  | .mmbi t m _ _ => some (t.val * 5 + m.val, 0x11, false)
  | .mmbw t m _ _ => some (t.val * 5 + m.val, 0x12, false)
  | _ => none

/-- Nothing is held at the router, on its way within the device, or being sent, and no PFC frame is due. -/
structure State.Quiet (s : State) : Prop where
  adapt : s.fab.adapt = []
  inbox : s.fab.inbox = []
  sends : s.fab.sends = []
  pfc : s.isSet RTE_ETHCFG_PFC = true → ∀ n ∈ allLinks, s.isEth n = true →
    ∀ k ∈ [kCtl, kReq, kRsp, kBlk], (s.link n).pfcSent.testBit k = s.classHeld n k

/-- The registers of `l` read 0 after, no other register changes, and nothing but registers changes. -/
structure State.Clears (s : State) (l : List Nat) (t : State) : Prop where
  zero : ∀ a ∈ l, t.rd a = 0
  regs : s.RegsBut (· ∈ l) t
  same : t = { s with regs := t.regs }

/-- Queue `q` stands in a state, with a reason (R145, R151). -/
def State.Stands (t : State) (q st why : Nat) : Prop := t.qstate q = st ∧ t.get (QUE_STAT_WHY q) = why

/-! ### Links (R246 to R282) -/

/-- A register that recording an event changes: the recorder's, and the interrupt vectors held pending. -/
def eventReg (a : Nat) : Prop := (0x200000 ≤ a ∧ a < 0x300000) ∨ ∃ p < 2, ∃ w < 32, a = aMSIX_PBA p w

/-- Nothing is queued on link `n` or waits for an acknowledgment, and nothing is held at the router. -/
structure State.Calm (s : State) (n : Nat) : Prop where
  quiet : s.Quiet
  queue : (s.link n).queue = []
  frames : (s.link n).frames = []
  copies : (s.link n).copies = []

/-- From `s` to `t` registers change only among link `n`'s status, the port states, the recorder's, and those of `P`; no
memory and no queue changes. -/
structure State.LinkFrame (s t : State) (n : Nat) (P : Nat → Prop) : Prop where
  regs : s.RegsBut (fun a => a = aLNK_STAT n ∨ (∃ p < 8, a = aPRT_STAT p) ∨ eventReg a ∨ P a) t
  stores : s.KeepsStores t
  ques : t.ques = s.ques

/-- Link `n` begins to train: its status reads 0 beside STATE, and either direction starts anew with empty buffers (R273). -/
structure State.Trains (s t : State) (n : Nat) (P : Nat → Prop) : Prop where
  state : t.lstate n = lTraining
  reads0 : t.get (LNK_STAT_REASON n) = 0 ∧ t.get (LNK_STAT_FCAUSE n) = 0 ∧ t.get (LNK_STAT_LP n) = 0 ∧ t.get (LNK_STAT_LOCK n) = 0 ∧
    t.get (LNK_STAT_NPV n) = 0
  buffers : ∀ v < 12, t.get (LNK_VCFREE_FREE n v) = 65536
  sides : (t.link n).txSeq = 4095 ∧ (t.link n).expect = 0 ∧ (t.link n).rxOn = 0xFFF ∧ (t.link n).txOn = 0xFFF ∧ (t.link n).copies = [] ∧
    (t.link n).queue = [] ∧ (t.link n).heard = false ∧ (t.link n).shaken = false
  frame : s.LinkFrame t n (fun a => (∃ v < 12, a = aLNK_VCFREE n v) ∨ P a)

/-- Link `n` is in a state in which its plan is evaluated (R276). -/
def State.Evaluable (s : State) (n : Nat) : Prop :=
  (s.lstate n = lHello ∧ ((s.link n).shaken = true ∨ s.isEth n = true)) ∨ s.lstate n = lParked ∨ s.lstate n = lActive

/-- Link `n` stands as its plan says: ACTIVE if every check passes and the neighbour's do, else PARKED with the reason (R276). -/
def State.PlanHolds (t : State) (n : Nat) : Prop :=
  let matched := (t.get (LNK_NBR_FLAGS n)).testBit 1 || (t.link n).switch
  if t.planReason n = 0 ∧ matched = true then t.lstate n = lActive
  else t.lstate n = lParked ∧ t.get (LNK_STAT_REASON n) = if t.planReason n = 0 then 9 else t.planReason n

/-- Link `n` takes `c`: its lanes run cells, the check is good, and the sequence number is the one expected (R260, R261). -/
structure State.Takes (s : State) (n : Nat) (c : CellBits) : Prop where
  up : s.lanesUp n = true
  cells : s.isEth n = false
  crc : crcOk c = true
  vc : cVc c < 12
  type : cType c < 11
  seq : 4 ≤ cType c → cLseq c = (s.link n).expect
  room : 4 ≤ cType c → 80 ≤ s.get (LNK_VCFREE_FREE n (cVc c))

/-- The time unit follows the role its configuration names (R361). -/
def State.Settled (s : State) : Prop := s.ftm.role = (s.get FTM_CFG_MODE, s.get FTM_CFG_PARENT, s.get FTM_CFG_ALTPARENT)

/-- Wheel `a`'s running collective `c` ends in failure with STATUS and the position reported (R328, R329, R341): nothing runs,
STATUS shows, FAILREC is filled where it was empty, its queue freezes with the command to run again, and its event is recorded;
memory outside its result and its descriptor stays. -/
structure State.CollFails (s t : State) (a : Nat) (c : Coll) (status pos : Nat) : Prop where
  coll : (t.wheel a).coll = none ∧ (t.wheel a).lastSeq = some c.seq
  shown : t.get (WHL_STAT_LAST a) = status ∧ t.get (WHL_STAT_STATE a) = 0
  record : s.isSet (WHL_FAILREC_VALID a) = false → t.isSet (WHL_FAILREC_VALID a) = true ∧ t.get (WHL_FAILREC_STATUS a) = status ∧
    t.get (WHL_FAILREC_POS a) = pos % 64 ∧ t.get (WHL_FAILREC_CMD a) = c.idx % 8192 ∧ t.get (WHL_FAILREC_STEP a) = c.step % 65536
  kept : s.isSet (WHL_FAILREC_VALID a) = true → t.rd (aWHL_FAILREC a) = s.rd (aWHL_FAILREC a)
  queue : t.qstate (120 + a) = qFrozen ∧
    (t.que (120 + a)).issued = (s.que (120 + a)).issued.map fun e => if e.uid = c.uid then { e with status := .rerun } else e
  logged : s.errs = [] → s.Logs (failCode status) (srcWheel a) (status * 2 ^ 8 + c.idx * 2 ^ 16) t
  outside : s.errs = [] → ∀ x, (x < c.dst ∨ c.dst + c.dstLen * c.outBytes ≤ x) → (x < c.res ∨ c.res + 32 ≤ x) → t.byte x = s.byte x

/-- Port `p` has been reset with its event and its peer told (R391): it owns nothing, is not frozen, its configuration and watches are
at reset, no post of its waits, every channel stands stopped with ERR 4, its mailboxes are empty and its role has moved on. -/
structure State.PortResets (s t : State) (p : Nat) : Prop where
  owner : t.get HST_OWN_OWNER = if s.owns p then 0 else s.get HST_OWN_OWNER
  ogen : t.get HST_OWN_OGEN = if s.owns p then (s.get HST_OWN_OGEN + 1) % 65536 else s.get HST_OWN_OGEN
  thawed : t.isSet (HST_STAT_FROZEN p) = false ∧ t.rd (aHST_VIOLREC p) = 0
  config : t.isSet (HST_STAT_BME p) = false ∧ t.get (HST_STAT_DSTATE p) = 0
  regs : ∀ a, (aHST_B4MAP p 0 ≤ a ∧ a < aHST_B4MAP p 0 + 0x40) ∨ (aHST_FWATCH p 0 ≤ a ∧ a < aHST_FWATCH p 0 + 8 * 1984) ∨
    (aMSIX_ADDR p 0 ≤ a ∧ a < aMSIX_ADDR p 0 + 0x8100) ∨ a = aHST_CFG p → t.rd a = regReset a
  posts : (t.port p).posts = [] ∧ (t.port p).msixEn = false ∧ (t.port p).memSpace = false ∧ (t.port p).bar4 = 0
  dma : ∀ c < 16, t.get (DMA_STAT_STATE p c) = 2 ∧ t.get (DMA_STAT_ERR p c) = 4 ∧ t.dma p c = {}
  mail : ∀ k < 16, t.get (MBX_CONS_CONS (16 * p + k)) = t.get (MBX_PROD_PROD (16 * p + k)) ∧
    t.get (MBX_PROD_PROD (16 * p + k)) = s.get (MBX_PROD_PROD (16 * p + k))
  role : t.get (HST_ROLEGEN_RGEN p) = (s.get (HST_ROLEGEN_RGEN p) + 1) % 65536

/-! ### The management core (R397 to R421) -/

/-- Mailbox `m` holds one more notice, the core's reply with this name and status (R380, R417). -/
def State.Noticed (s t : State) (m name status : Nat) : Prop :=
  let e := s.get (MBX_PROD_PROD m) % 16 * 4
  t.get (MBX_PROD_PROD m) = (s.get (MBX_PROD_PROD m) + 1) % 65536 ∧ t.rd (aMBX_ENT m e) = BitVec.ofNat 64 name ∧
    (t.rd (aMBX_ENT m (e + 1))).toNat / 2 ^ 32 = status + s.mailRole m * 2 ^ 16 ∧
    (t.rd (aMBX_ENT m (e + 2))).toNat % 2 ^ 24 = s.devId + 2 * 2 ^ 16 ∧ t.rd (aMBX_ENT m (e + 3)) = s.rd aFTM_NOW

/-- The core serves, and mailbox `m`'s oldest notice names request block `b`: well formed, its `len` bytes in memory and
without errors (R417). -/
structure State.Asks (s : State) (m len : Nat) (b : Block) : Prop where
  serves : s.coreServes = true
  held : s.mailHeld m ≠ 0
  quiet : s.Quiet
  name : (s.rd (aMBX_ENT m (s.get (MBX_CONS_CONS m) % 16 * 4))).toNat = b.name
  addr : b.addr = b.name % 2 ^ 48
  here : 16 ≤ len ∧ rangePopulated b.addr len = true
  plain : s.Plain b.addr len
  ok : b.ok = true
  header : s.bytes b.addr 16 = natBytes 4 0 ++ natBytes 2 b.mbox ++ natBytes 2 b.rgen ++ natBytes 2 b.set ++ natBytes 2 b.flag ++ natBytes 4 0
  role : b.rgen < 65536
  sender : b.owner = (let w := (s.rd (aMBX_ENT m (s.get (MBX_CONS_CONS m) % 16 * 4 + 2))).toNat
    decide (getBits w 0 16 = s.devId) && decide (getBits w 16 8 < 2) && s.owns (getBits w 16 8))

/-- The core takes mailbox `m`'s oldest request and completes its block: STATUS is in memory (unless the block lies in the locked
partner-mirror area, where nothing is written, R209), the reply is in a mailbox with room, the block's flag counts it, and only `n`
bytes from the block may change (R417). -/
structure State.Answers (s t : State) (m : Nat) (b : Block) (status n : Nat) : Prop where
  taken : t.get (MBX_CONS_CONS m) = (s.get (MBX_CONS_CONS m) + 1) % 65536
  shown : t.bytes b.addr 4 = if s.locked b.addr 4 then s.bytes b.addr 4 else natBytes 4 status
  noticed : b.mbox < 32 → b.rgen = s.mailRole b.mbox → s.mailHeld b.mbox < 16 → s.Noticed t b.mbox b.name status
  flagged : b.set < 25 → 0 < b.flag → b.flag < 512 → t.flag b.set b.flag = (s.flag b.set b.flag + 1) % 65536
  outside : ∀ x, (x < b.addr ∨ b.addr + n ≤ x) → t.byte x = s.byte x
  others : (∀ l, t.poisoned l = s.poisoned l) ∧ t.errs = s.errs ∧ t.imem = s.imem ∧ t.banks = s.banks

/-- An update ends before flash is written, with ERR, and its event (R407). -/
structure State.UpdateEnds (s t : State) (err code : Nat) : Prop where
  state : t.get SEC_UPDSTAT_STATE = 5 ∧ t.get SEC_UPDSTAT_ERR = err
  none : t.mgt.update = none
  logged : s.Logs code srcSecurity 0 t

/-- One message leaves a binding, and neither a register nor a store changes (R398, R414). -/
structure State.Says (s t : State) (b : Binding) (msg : MctpMsg) : Prop where
  out : t.out = .mctp b msg :: s.out
  regs : t.regs = s.regs
  stores : s.KeepsStores t

/-- A device reset (R401, R431, R432): the device is not ready, plans are unarmed, the units lose what they hold, red and the
hold clear, the role moves on, the cause is shown, and the sequence begins with the boot ROM once every supply is
valid. -/
structure State.Restarts (s t : State) : Prop where
  phase : t.boot.phase = if s.supplied && s.boot.resetN then .rom else .held
  notReady : t.get GLB_BOOT_STATE = 1 ∧ t.boot.cold = false
  unarmed : t.get PRT_PLANSTAT_ARMED = 0
  units : t.ques = [] ∧ t.banks = [] ∧ t.links = [] ∧ t.wheels = [] ∧ t.mxes = [] ∧ t.gates = [] ∧ t.loads = []
  recorder : t.get EVR_STAT_RED = 0 ∧ t.get EVR_STAT_HELD = 0 ∧ t.evr.escalate = none
  role : t.get GLB_ROLEGEN_RGEN = (s.get GLB_ROLEGEN_RGEN + 1) % 65536
  kept : t.get PWR_STAT_VALID = s.get PWR_STAT_VALID ∧ t.get PWR_STAT_PROCHOT = s.get PWR_STAT_PROCHOT ∧
    t.rd aMGT_EID = s.rd aMGT_EID ∧ t.rd aSEC_TAGWR = s.rd aSEC_TAGWR ∧ t.rd aFTM_NOW = s.rd aFTM_NOW
  channels : ∀ p < 2, ∀ c < 16, t.get (DMA_STAT_STATE p c) = 2 ∧ t.get (DMA_STAT_ERR p c) = 4
  mail : ∀ k < 16, t.get (MBX_CONS_CONS (32 + k)) = t.get (MBX_PROD_PROD (32 + k))
  posts : (t.port 0).posts = [] ∧ (t.port 1).posts = []

/-! ### Commands that store nothing -/

end Sys2Proof.Machine

namespace Sys2Proof

/-- The commands that write no memory, instruction memory or accumulator bank, from whatever state. -/
def Instr.storesNothing : Instr → Bool
  | .nop .. | .launch .. | .baseadd .. | .stepend .. | .parkpoint .. | .call .. | .fmirsync .. | .eventMark .. |
    .whlseqSet .. | .gateSet .. | .ovfClr .. | .waitMet .. | .sluiceOpen .. | .preWake .. | .stepAdvance .. |
    .waitLimitExpiry .. | .queuePark .. | .start .. | .resume .. | .parkreq .. | .thaw .. | .thawnext .. | .qreset .. |
    .ballastRampDown .. | .tileClockGate .. | .tilePowerGateEntry .. | .tileIsolation .. | .tilePowerGateComplete .. |
    .tileWake .. | .tileWakeComplete .. | .tilGateWake .. | .glbJobseedCommit .. | .tilOvfClr .. | .mxeCntClr .. |
    .eleCntClr .. | .flmCntClr .. | .hbcCntClr .. | .tilFlagWrite .. | .tilFlagadd .. | .go .. | .save .. | .parkall .. |
    .mirRegionEnable .. | .mirctlEn .. | .lnkTest .. | .trainingTimeout .. | .absentRetry .. | .helloTimeout .. |
    .helloSend .. | .failedHoldExpiry .. | .flushGuardExpiry .. | .pfcFrameReceive .. | .pfcRepeat .. | .lldpSend .. |
    .whlCntClr .. | .timeRequestSend .. | .parentUnusable .. | .timePpsInEdge .. | .ppsLoss .. | .timePpsOutPulse .. |
    .capt .. | .ftmLoad .. | .ftmCntClr .. | .hstClaim .. | .hstRelease .. | .hstSeize .. | .hstViolrecRead .. |
    .hstPortthaw .. | .dbl .. | .postwaitExpiry .. | .mbxCons .. | .hstFwatchArm .. | .dmaProd .. | .dmaCfgEn .. |
    .dmaDescriptorComplete .. | .quePostrecRead .. | .lpcMirunmirRead .. | .hstPostrecRead .. | .mgtRepdropRead .. |
    .watchdogReset .. | .telemetrySample .. | .replyRetry .. | .getVersion .. | .getCapabilities .. |
    .negotiateAlgorithms .. | .getDigests .. | .getCertificate .. | .challenge .. | .getMeasurements .. |
    .respondIfReady .. | .spdmUnsupportedRequest .. | .setEndpointId .. | .gettid .. | .settid .. | .getpldmversion .. |
    .getpldmtypes .. | .getpldmcommands .. | .getsensorreading .. | .getstatesensorreadings .. | .seteventreceiver .. |
    .pdrRepository .. | .pldmFruData .. | .pldmInvalidType .. | .requestupdate .. | .activatefirmware .. |
    .recoveryUpdateTimeout .. | .secSvncommit .. | .svnFuseDone .. | .firmwareStart .. | .deviceReady .. | .tokenRefill .. |
    .evrFaultClear .. | .evrCntClr .. | .supplyDip .. | .junctionThrottle .. | .prochotNAssert .. | .prochotNRelease .. |
    .currentCap .. | .throttleStep .. | .pwrForce .. | .pwrCntClr .. | .avsCurrentRead .. | .memoryOvertemp .. | .bypass .. |
    .idcode .. | .samplePreload .. | .extest .. | .extestPulse .. | .extestTrain .. | .supplyValid .. | .resetNRise .. |
    .perstDeassertion .. | .hostPortLinkUp .. | .duplicateKeyExpiry .. | .doubledRefresh .. => true
  | _ => false

end Sys2Proof
end

