-- ==== Sys2Proof/Certificates/Slice0/Obligations.lean ====
section
/-! DEFINITION. The statements about the RU4100's model, for the provers. -/

open Sys2Proof Sys2Proof.Machine

/-- A step of the block takes the command at the front of the queue and runs its meaning with the queue's rest (the block's
own convention, log entry 2). -/
def Obligations.StepRunsFrontCommand : Prop :=
  ∀ (c : Instr) (rest : List Instr) (s : State), s.pending = c :: rest → step s = exec c { s with pending := rest }

/-- An empty queue lets one tick of fabric time pass (the model's choice, log entry 2).  While the counter runs it goes on by one
(R342), at a microsecond's end the throttle counter of each stretched domain counts, a waiting queue counts its cycles (how
stretch divides them: log entry 41), a link's FLAPS counts the failures of the last 60 s (R274), and deep idle shows in
FTM_STAT.HOLD (R344); a collective may then find its port without a link for too long (`wheelsDark`, R328).  Before the counter
runs the always-on start becomes the boot ROM phase. -/
def Obligations.EmptyQueueTicks : Prop :=
  ∀ s : State, s.pending = [] → ∃ t, (s.counting = false → step s = .next t) ∧ (s.counting = true → step s = .next (wheelsDark t)) ∧
    (s.counting = true → (∀ a < 4, (s.wheel a).coll = none) → s.Quiet → step s = .next t) ∧ t = { s with regs := t.regs } ∧
    (s.counting = true → t.rd aFTM_NOW = s.rd aFTM_NOW + 1 ∧
      (∀ d < 4, t.get (PWR_THRCNT_CNT d) =
        if s.get (PWR_STRETCH_S d) ≠ 0 ∧ (s.now + 1) % 4000 = 0 then (s.get (PWR_THRCNT_CNT d) + 1) % 2 ^ 64 else s.get (PWR_THRCNT_CNT d)) ∧
      (∀ q < 125, t.get (QUE_WAITCNT_CNT q) =
        if s.qstate q = qWaiting ∧ s.clocked q = true then (s.get (QUE_WAITCNT_CNT q) + s.queueCycles q s.now (s.now + 1)) % 2 ^ 64 else s.get (QUE_WAITCNT_CNT q)) ∧
      (∀ n < 24, t.get (LNK_STAT_FLAPS n) = if (s.link n).failTimes = [] then s.get (LNK_STAT_FLAPS n)
        else min 7 ((s.link n).failTimes.filter fun x => decide (t.since x < 240000000000)).length) ∧
      t.rd aFTM_STAT = (if s.deepIdle then s.set FTM_STAT_HOLD 1 else s).rd aFTM_STAT ∧
      s.RegsBut (fun a => a = aFTM_NOW ∨ a = aFTM_STAT ∨ (∃ d < 4, a = aPWR_THRCNT d) ∨ (∃ q < 125, a = aQUE_WAITCNT q) ∨ ∃ n < 24, a = aLNK_STAT n) t) ∧
    (s.counting = false → s.boot.phase = .rom → t.get GLB_BOOT_STATE = 1 ∧ s.RegsBut (fun a => a = aGLB_BOOT) t) ∧
    (s.counting = false → s.boot.phase ≠ .rom → t = s)

/-- After a cold reset every field holds its Reset column's value (R12), except the registers of the part's own identity.  A field
whose Reset entry is a dash holds 0: the model's choice, log entry 7. -/
def Obligations.ResetValues : Prop :=
  (∀ (a : Nat) (r : RegRow) (f : FieldRow), regRow a = some r → identityReset a = none → f ∈ r.fields →
    State.reset.get ⟨a, f.lo, f.hi + 1 - f.lo⟩ = f.rst) ∧
  (∀ q < 125, State.reset.qstate q = qIdle ∧ State.reset.get (QUE_WAITLIM_LIMIT q) = 100000 ∧ State.reset.get (QUE_PASS_PASS q) = 0) ∧
  (∀ t < 24, State.reset.get (TIL_GATE_STATE t) = 2) ∧ (∀ n < 24, State.reset.get (LNK_RETRY_MAX n) = 8 ∧ State.reset.get (LNK_CFG_PORT n) = 15) ∧
  State.reset.get RTE_STAT_LIGHT = shLive ∧ State.reset.get PRT_PROTO_PVSET = 3 ∧ State.reset.get RTE_XPORT_MAX = 4 ∧
  State.reset.ready = false ∧ State.reset.get HST_OWN_OWNER = 0 ∧ State.reset.pending = []

/-- The stages of R121 before a head command's work, for the rows of `headRow`: a gated tile is woken; a freeze due at this
boundary takes place, RESUME 1 (R129, R145); a park request is honoured (R169); a fetch from an uncorrectable line freezes the
queue with 0x300C (R430); an unmet WAIT makes the queue WAITING; the predicate is read once no earlier SETPRED is unretired, and
a false one skips the command (R120); a command that executes waits for the commands it must follow (R122).
Choices of the model used here: log entries 10, 19 and 26. -/
def Obligations.HeadStages : Prop :=
  ∀ (c : Instr) (q op : Nat) (serial : Bool) (s : State), headRow c = some (q, op, serial) → s.atHead q op = true →
    (s.awake q = false → exec c s = .next (wakeTile (q / 5) s)) ∧
    (∀ code cmd, s.awake q = true → (s.que q).pendingFreeze = some (code, cmd) → s.isSet (QUE_FREEZEREC_VALID q) = false → code < 65536 → cmd < 8192 →
      ∃ t, exec c s = .next t ∧ t.qstate q = qFrozen ∧ t.get (QUE_FREEZEREC_CODE q) = code ∧ t.get (QUE_FREEZEREC_CMD q) = cmd ∧
        t.isSet (QUE_FREEZEREC_RESUME q) = true ∧ t.isSet (QUE_FREEZEREC_VALID q) = true ∧ (t.que q).pendingFreeze = none ∧
        s.RegsBut (fun a => a = aQUE_STAT q ∨ a = aQUE_FREEZEREC q ∨ ∃ tile ∈ (s.que q).lead, ∃ m < 2, a = aMXE_STAT tile m ∨ a = aMXE_DGCNT tile m) t ∧
        (t.que q).lead = [] ∧ s.KeepsStores t) ∧
    (s.awake q = true → (s.que q).pendingFreeze = none → s.parksHere q = true → exec c s = .next s) ∧
    (s.awake q = true → (s.que q).pendingFreeze = none → s.parksHere q = false → s.fetchFails q = true → ∃ t, exec c s = .next t ∧
      s.FreezesAtHead q 0x300C t ∧ s.Logs 0x300C (srcQueue q) 0 t ∧ s.KeepsStores t) ∧
    (s.awake q = true → (s.que q).pendingFreeze = none → s.parksHere q = false → s.fetchFails q = false →
      let w := s.headWord q
      let met : Prop := hdrWaitFlag w = 0 ∨ (s.que q).waited = true ∨ s.waitMet (homeSet q) (hdrWaitFlag w) (hdrWaitValue w) (s.headCmd q).2.1 = true
      let holds (x : QueSt) : Prop := ∃ t, exec c s = .next t ∧ t.que q = x ∧ (∀ q', q' ≠ q → t.que q' = s.que q') ∧ t = { s with ques := t.ques }
      (¬ met → ∃ t, exec c s = .next t ∧ t.Stands q qWaiting 0 ∧ t.get (QUE_STAT_WFLAG q) = hdrWaitFlag w ∧
        s.RegsBut (fun a => a = aQUE_STAT q) t ∧ t = { s with regs := t.regs }) ∧
      (met → (s.que q).chosen = false → s.predReady q = false → holds { s.que q with waited := true }) ∧
      (met → (s.signalsOut q w && !s.armed) = false →
        ((s.que q).chosen = false → s.predReady q = true → s.executes (homeSet q) w = false → s.Fresh q → ∃ t, exec c s = .next t ∧
          s.MovesOn t q { s.newIssued q with skipped := true } ∧
          s.RegsBut (fun a => a = aQUE_STAT q ∨ a = aQUE_PASS q) t ∧ t = { s with regs := t.regs, ques := t.ques, nextUid := s.nextUid + 1 }) ∧
        ((s.que q).chosen = true ∨ (s.predReady q = true ∧ s.executes (homeSet q) w = true) → s.mayBegin q serial = false →
          holds { s.que q with waited := true, chosen := true })))

/-- NOP and PARKPOINT at the head of a queue do no work of their own: the queue issues them and goes on, and nothing but its
position changes (R117, R119, R121, R143). -/
def Obligations.NopAndParkpointMoveOn : Prop :=
  ∀ (q : QId) (s : State), s.Fresh q →
    (s.HeadRuns q 0x00 false → ∃ t, exec (.nop q) s = .next t ∧ s.MovesOn t q (s.newIssued q) ∧
      s.RegsBut (fun a => a = aQUE_STAT q ∨ a = aQUE_PASS q) t ∧
      t = { s with regs := t.regs, ques := t.ques, nextUid := s.nextUid + 1 }) ∧
    (s.HeadRuns q 0x06 false → ∃ t, exec (.parkpoint q) s = .next t ∧ s.MovesOn t q (s.newIssued q) ∧
      s.RegsBut (fun a => a = aQUE_STAT q ∨ a = aQUE_PASS q) t ∧
      t = { s with regs := t.regs, ques := t.ques, nextUid := s.nextUid + 1 })

/-- BASEADD steps each selected base register, by INC or through its MOD starts, or, if a selected result leaves 48 bits,
changes none and freezes the queue; bits [63:48] of a register stay (R132). -/
def Obligations.BaseaddSteps : Prop :=
  ∀ (q : QId) (s : State), s.HeadRuns q 0x02 false → s.Fresh q →
    let index (n : Nat) : Nat := if s.get (QUE_BMOD_MOD q n) = 0 then s.get (QUE_BMOD_IDX q n) else (s.get (QUE_BMOD_IDX q n) + 1) % s.get (QUE_BMOD_MOD q n)
    let low (n : Nat) : Int := if s.get (QUE_BMOD_MOD q n) = 0 then (localOf (s.rd (aQUE_BASE q n)).toNat : Int) + signed48 (s.get (QUE_BINC_INC q n))
      else (localOf (s.rd (aQUE_BSTART q n)).toNat : Int) + (index n : Int) * signed48 (s.get (QUE_BINC_INC q n))
    ((∀ n, s.Selects q n → 0 ≤ low n ∧ low n < 2 ^ 48) → ∃ t, exec (.baseadd q) s = .next t ∧ s.MovesOn t q (s.newIssued q) ∧
      (∀ n, s.Selects q n → (localOf (t.rd (aQUE_BASE q n)).toNat : Int) = low n ∧ t.get (QUE_BMOD_IDX q n) = index n ∧
        t.get (QUE_BMOD_MOD q n) = s.get (QUE_BMOD_MOD q n) ∧
        devOf (t.rd (aQUE_BASE q n)).toNat = devOf (s.rd (aQUE_BASE q n)).toNat) ∧
      s.RegsBut (fun a => a = aQUE_STAT q ∨ a = aQUE_PASS q ∨ ∃ n, s.Selects q n ∧ (a = aQUE_BASE q n ∨ a = aQUE_BMOD q n)) t ∧
      t = { s with regs := t.regs, ques := t.ques, nextUid := s.nextUid + 1 }) ∧
    ((∃ n, s.Selects q n ∧ ¬ (0 ≤ low n ∧ low n < 2 ^ 48)) → ∃ t, exec (.baseadd q) s = .next t ∧ s.FreezesAtHead q 0x3009 t ∧
      s.Logs 0x3009 (srcQueue q) 0 t ∧ (∀ n < 16, t.rd (aQUE_BASE q n) = s.rd (aQUE_BASE q n) ∧ t.rd (aQUE_BMOD q n) = s.rd (aQUE_BMOD q n)) ∧ s.KeepsStores t)

/-- SETPRED combines its source value, inverted by NEG, into predicate DST by OP, for each of its five sources; a poisoned memory
word writes nothing and freezes the queue (R134, R135). -/
def Obligations.SetpredWrites : Prop :=
  ∀ (q : QId) (s : State), s.HeadRuns q 0x03 true → s.Fresh q →
    let w := s.headWord q
    let g := homeSet q
    let p (i : Nat) : Bool := (s.rd (aTIL_PRED g)).getLsbD i
    let combine (v : Bool) : Bool := match cmdGet w 70 2 with
      | 0 => v
      | 1 => p (cmdGet w 64 6) && v
      | 2 => p (cmdGet w 64 6) || v
      | _ => p (cmdGet w 64 6) && !v
    let writes (v : Bool) : Prop := ∃ t, exec (.setpred q) s = .next t ∧ s.MovesOn t q (s.newIssued q) ∧
      (∀ i < 64, (t.rd (aTIL_PRED g)).getLsbD i = if i = cmdGet w 64 6 then combine (v ^^ (cmdGet w 72 1 == 1)) else p i) ∧
      s.RegsBut (fun a => a = aQUE_STAT q ∨ a = aQUE_PASS q ∨ a = aTIL_PRED g) t ∧ t = { s with regs := t.regs, ques := t.ques, nextUid := s.nextUid + 1 }
    (cmdGet w 73 3 = 0 → writes (cmdGet w 128 1 == 1)) ∧
    (cmdGet w 73 3 = 1 → writes (s.waitMet g (cmdGet w 128 9) (cmdGet w 137 16) (s.headCmd q).2.1)) ∧
    (cmdGet w 73 3 = 2 → q.val < 120 → writes ((List.range 64).any fun i => (cmdGet w 128 64).testBit i && s.isSet (TIL_OVF_W7_NF (tileOvfBase (q / 5) i)))) ∧
    (cmdGet w 73 3 = 2 → 120 ≤ q.val → q.val < 124 → writes ((List.range 16).any fun i => (cmdGet w 128 64).testBit i && s.isSet (TIL_OVF_W7_NF (wheelOvfBase (q - 120) i)))) ∧
    (cmdGet w 73 3 = 4 → writes (p (cmdGet w 128 6))) ∧
    (∀ a, cmdGet w 73 3 = 3 → s.cmdOperand q w 128 20 8 = some a → devOf a = s.devId →
      (q.val < 120 → padBase (q / 5) ≤ localOf a ∧ localOf a + 8 ≤ padBase (q / 5) + padSize) → (120 ≤ q.val → rangePopulated (localOf a / 8 * 8) 8 = true) →
      (s.Plain (localOf a / 8 * 8) 8 → writes ((s.byte (localOf a / 8 * 8 + cmdGet w 152 6 / 8)).getLsbD (cmdGet w 152 6 % 8))) ∧
      (s.lineErrs (localOf a / 64) = [] → s.poisoned (localOf a / 64) = true → ∃ t, exec (.setpred q) s = .next t ∧ s.FreezesAtHead q 0x3008 t ∧
        s.Logs 0x3008 (srcQueue q) 0 t ∧ t.rd (aTIL_PRED g) = s.rd (aTIL_PRED g) ∧ s.KeepsStores t))

/-- LAUNCH at its sluice: an arrival at or past the stamp opens it at once with grey event 0x3003; a stamp beyond the wait limit
freezes the queue with 0x3002; any other arrival waits (R136, R137).  A held sluice opens at its stamp and the queue goes on, and
the pre-wake moment starts the ballast of the engines of its tiles towards level 1,023, at the slope of R83 from the moment the tile
runs; the opening of the last sluice that holds a tile leaves it at the level reached (R138, R359).  That the row itself carries the counter to its moment is the
model's choice (log entry 3). -/
def Obligations.LaunchSluiceAndPrewake : Prop :=
  (∀ (q : QId) (s : State), s.HeadRuns q 0x01 false → s.Fresh q →
    let w := s.headWord q
    let stampS := (cmdGet w 64 64 + (s.headCmd q).2.1 * cmdGet w 128 32) % 2 ^ 64
    (stampS ≤ s.now → cmdGet w 160 24 = 0 → cmdGet w 50 8 = 0 → ∃ t, exec (.launch q) s = .next t ∧
      s.MovesOn t q { s.newIssued q with signalled := true } ∧ s.Logs 0x3003 (srcQueue q) (s.now - stampS) t ∧
      s.RegsBut (fun a => a = aQUE_STAT q ∨ a = aQUE_PASS q ∨ (0x200000 ≤ a ∧ a < 0x300000) ∨ 0x8000000 ≤ a) t ∧ s.KeepsStores t) ∧
    (s.now < stampS → s.get (QUE_WAITLIM_LIMIT q) ≠ 0 → s.get (QUE_WAITLIM_LIMIT q) * 4000 < stampS - s.now → ∃ t, exec (.launch q) s = .next t ∧
      s.FreezesAtHead q 0x3002 t ∧ s.Logs 0x3002 (srcQueue q) 0 t ∧ s.KeepsStores t) ∧
    (s.now < stampS → (s.get (QUE_WAITLIM_LIMIT q) = 0 ∨ stampS - s.now ≤ s.get (QUE_WAITLIM_LIMIT q) * 4000) → ∃ t, exec (.launch q) s = .next t ∧
      t.Stands q qWaiting 1 ∧ (t.que q).sluice = some stampS ∧ (t.que q).issued = (s.que q).issued ∧ t.get (QUE_STAT_PC q) = s.get (QUE_STAT_PC q) ∧ s.KeepsStores t)) ∧
  (∀ (q : QId) (s : State) (st : Nat), (s.que q).sluice = some st → s.Stands q qWaiting 1 → s.Fresh q → st < 2 ^ 64 →
    let w := s.headWord q
    (cmdGet w 50 8 = 0 → ∃ t, exec (.sluiceOpen q) s = .next t ∧ s.MovesOn t q { s.newIssued q with signalled := true } ∧
      t.qstate q = qRunning ∧ (t.que q).sluice = none ∧ t.now = max s.now st ∧
      (cmdGet w 160 24 ≠ 0 → ∀ tile : Nat, tile < 24 → (if q.val < 120 then tile = q.val / 5 else (cmdGet w 192 24).testBit tile = true) → ∀ m < 2,
        let e := s.mxe (tile * 2 + m)
        ((∃ k < 125, k ≠ q.val ∧ tile ∈ (s.que k).lead) → t.mxe (tile * 2 + m) = e ∧ t.get (MXE_STAT_LEVEL tile m) = s.get (MXE_STAT_LEVEL tile m)) ∧
        ((∀ k < 125, k ≠ q.val → tile ∉ (s.que k).lead) → e.prewake = true → (t.mxe (tile * 2 + m)).prewake = false ∧ t.get (MXE_STAT_ARRAY tile m) = 2 ∧
          ∀ t0, e.riseAt = some t0 → t0 ≤ t.now → t.get (MXE_STAT_LEVEL tile m) = min 1023 (s.get (MXE_STAT_LEVEL tile m) +
            ((t.now - t0) * (16 - s.get (PWR_STRETCH_S (tile / 6))) / 16) * 1023 / (e.ramp * 1024)))) ∧ s.KeepsStores t) ∧
    (cmdGet w 160 24 ≠ 0 → ∃ t, exec (.preWake q) s = .next t ∧ t.now = max s.now (st - cmdGet w 160 24) ∧
      (∀ tile : Nat, tile < 24 → (if q.val < 120 then tile = q.val / 5 else (cmdGet w 192 24).testBit tile = true) → ∀ m < 2,
        (t.mxe (tile * 2 + m)).prewake = true ∧ t.get (MXE_STAT_LEVEL tile m) = s.get (MXE_STAT_LEVEL tile m) ∧
        ((s.mxe (tile * 2 + m)).prewake = false →
          t.get (MXE_STAT_ARRAY tile m) = (if s.get (MXE_STAT_LEVEL tile m) < 1023 then 3 else 2) ∧
          (t.mxe (tile * 2 + m)).riseAt = if (s.gate tile).phase = .running then some t.now else none)) ∧
      (∀ tile : Nat, tile < 24 → (if q.val < 120 then tile = q.val / 5 else (cmdGet w 192 24).testBit tile = true) → tile ∈ (t.que q).lead) ∧
      t.qstate q = qWaiting ∧ s.KeepsStores t))

/-- STEPEND waits at its set's barrier; the barrier opens once every participant stands at it with its earlier commands retired:
STEP counts, the AUTOCLR records clear, and every participant goes on (R58, R139, R140).
Choices of the model used here: log entry 27. -/
def Obligations.StepBarrier : Prop :=
  (∀ (q : QId) (s : State), s.HeadRuns q 0x04 false → ∃ t, exec (.stepend q) s = .next t ∧ t.Stands q qWaiting 2 ∧
    (t.que q).issued = (s.que q).issued ∧ s.RegsBut (fun a => a = aQUE_STAT q) t ∧
    t = { s with regs := t.regs, ques := t.ques, nextUid := s.nextUid + 1 }) ∧
  (∀ (g : SetId) (s : State) (mask : Nat),
    let takesPart (q : Nat) : Prop := q ∈ setQueues g ∧ mask.testBit (q - g * 5) = true
    (∃ q, takesPart q) → (∀ q ∈ setQueues g, s.Stands q qWaiting 2 → cmdGet (s.headWord q) 64 5 = mask % 32) →
    (∀ q, takesPart q → s.Stands q qWaiting 2 ∧ (s.que q).issued = []) →
    ∃ t, exec (.stepAdvance g) s = .next t ∧ t.get (TIL_STEP_STEP g) = (s.get (TIL_STEP_STEP g) + 1) % 2 ^ 40 ∧
      (∀ b ∈ setRecords g, s.isSet (TIL_OVF_W7_AUTOCLR b) = true → t.isSet (TIL_OVF_W7_NF b) = false ∧ t.isSet (TIL_OVF_W7_AUTOCLR b) = true) ∧
      (∀ b ∈ setRecords g, s.isSet (TIL_OVF_W7_AUTOCLR b) = false → ∀ k < 8, t.rd (b + 4 * k) = s.rd (b + 4 * k)) ∧
      (∀ q, takesPart q → t.qstate q = qRunning ∧ (∃ e, (t.que q).issued = [e] ∧ e.word = s.headWord q ∧ e.status = .done) ∧
        t.get (QUE_STAT_PC q) = if s.get (QUE_STAT_PC q) + 1 < s.get (QUE_PROG_LEN q) then (s.get (QUE_STAT_PC q) + 1) % 8192 else 0) ∧
      (∀ q < 125, ¬ takesPart q → t.que q = s.que q ∧ t.rd (aQUE_STAT q) = s.rd (aQUE_STAT q)) ∧ s.KeepsStores t)

/-- POST (R141, R142, R278, R376, R379): a notice to a local mailbox is stored or turned away at once; one to another device leaves
the queue waiting for its outcome, or freezes it while the device may not originate. -/
def Obligations.PostOutcomes : Prop :=
  ∀ (q : QId) (s : State) (addr : Nat), s.HeadRuns q 0x05 true → s.Fresh q → s.cmdOperand q (s.headWord q) 64 20 32 = some addr →
    let w := s.headWord q
    let m := cmdGet w 168 8
    let slot := s.get (MBX_PROD_PROD m) % 16 * 4
    (cmdGet w 152 16 = s.devId → m < 48 →
      (cmdGet w 136 16 = s.mailRole m → s.mailHeld m < 16 → cmdGet w 176 1 = 0 → ∃ t, exec (.post q) s = .next t ∧
        t.rd (aMBX_ENT m slot) = BitVec.ofNat 64 addr ∧
        (t.rd (aMBX_ENT m (slot + 1))).toNat = cmdGet w 88 32 + cmdGet w 120 16 * 2 ^ 32 + cmdGet w 136 16 * 2 ^ 48 ∧
        t.rd (aMBX_ENT m (slot + 3)) = s.rd aFTM_NOW ∧ t.get (MBX_PROD_PROD m) = (s.get (MBX_PROD_PROD m) + 1) % 65536 ∧
        t.get (QUE_POSTREC_LAST q) = 0 ∧ t.qstate q = qRunning ∧
        (t.que q).issued = [{ s.newIssued q with status := .done }] ∧ s.KeepsStores t) ∧
      (cmdGet w 136 16 ≠ s.mailRole m → cmdGet w 176 1 = 0 → ∃ t, exec (.post q) s = .next t ∧ t.get (QUE_POSTREC_LAST q) = 2 ∧
        t.qstate q = qFrozen ∧ s.Logs 0x3005 (srcQueue q) 0 t ∧ t.rd (aMBX_PROD m) = s.rd (aMBX_PROD m) ∧ s.KeepsStores t) ∧
      (cmdGet w 136 16 = s.mailRole m → 16 ≤ s.mailHeld m → cmdGet w 176 1 = 0 → ∃ t, exec (.post q) s = .next t ∧ t.get (QUE_POSTREC_LAST q) = 1 ∧
        t.qstate q = qFrozen ∧ s.Logs 0x3004 (srcQueue q) 0 t ∧ t.rd (aMBX_PROD m) = s.rd (aMBX_PROD m) ∧ s.KeepsStores t)) ∧
    (cmdGet w 152 16 ≠ s.devId → s.armed = false → ∃ t, exec (.post q) s = .next t ∧ s.FreezesAtHead q 0x600E t ∧ s.Logs 0x600E (srcQueue q) 0 t ∧ s.KeepsStores t)

/-- CALL enters a resident routine, and the routines of R416 do their work for the queue that called them and return (R144, R416).
Choices of the model used here: log entries 27 and 28. -/
def Obligations.RoutinesRunForTheirCaller : Prop :=
  (∀ (q : QId) (s : State), s.HeadRuns q 0x07 true → s.Fresh q → ∃ t, exec (.call q) s = .next t ∧
    (t.que q).lib = some (cmdGet (s.headWord q) 64 16) ∧ (t.que q).issued = [{ s.newIssued q with status := .busy }] ∧
    (t.que q).ret = (if s.get (QUE_STAT_PC q) + 1 < s.get (QUE_PROG_LEN q) then (s.get (QUE_STAT_PC q) + 1) % 8192 else 0) ∧
    t.isSet (QUE_STAT_INLIB q) = true ∧ t.get (QUE_STAT_PC q) = 0 ∧ s.RegsBut (fun a => a = aQUE_STAT q ∨ a = aQUE_PASS q) t ∧
    t = { s with regs := t.regs, ques := t.ques, nextUid := s.nextUid + 1 }) ∧
  (∀ (q i : Nat) (s : State), s.routineQueue i = some q →
    let br12 := (s.rd (aQUE_BASE q 12)).toNat
    let br13 := (s.rd (aQUE_BASE q 13)).toNat
    let returns (t : State) : Prop := (t.que q).lib = none ∧ t.isSet (QUE_STAT_INLIB q) = false ∧ t.get (QUE_STAT_PC q) = (s.que q).ret % 8192 ∧ t.qstate q = qRunning ∧
      ∀ e ∈ (t.que q).issued, opcode e.word = 7 → e.status ≠ .busy
    (i = 2 → ∃ t, exec .eventMark s = .next t ∧ returns t ∧ s.Logs 0xB005 (srcQueue q) br12 t ∧ s.KeepsStores t) ∧
    (i = 3 → s.wheelHeld (br12 % 4) = false → ∃ t, exec .whlseqSet s = .next t ∧ returns t ∧ t.get (WHL_SEQ_SEQ (br12 % 4)) = br13 % 65536 ∧
      s.RegsBut (fun a => a = aQUE_STAT q ∨ a = aWHL_SEQ (br12 % 4)) t ∧ t = { s with regs := t.regs, ques := t.ques }) ∧
    (i = 3 → s.wheelHeld (br12 % 4) = true → ∃ t, exec .whlseqSet s = .next t ∧ returns t ∧ t.rd (aWHL_SEQ (br12 % 4)) = s.rd (aWHL_SEQ (br12 % 4)) ∧
      s.Logs 0x8009 (srcWheel (br12 % 4)) ((((s.wheel (br12 % 4)).coll.map (·.idx)).getD (s.get (QUE_STAT_PC (120 + br12 % 4)))) * 2 ^ 16) t ∧ s.KeepsStores t) ∧
    (i = 5 → ∃ t, exec .gateSet s = .next t ∧ returns t ∧
      (∀ x < 24, t.get (TIL_GATE_PG_EN x) = if br12.testBit x then br13 % 2 else s.get (TIL_GATE_PG_EN x)) ∧
      s.RegsBut (fun a => a = aQUE_STAT q ∨ ∃ x < 24, a = aTIL_GATE x) t ∧ t = { s with regs := t.regs, ques := t.ques }) ∧
    (i = 6 → ∃ t, exec .ovfClr s = .next t ∧ returns t ∧ t = { s with regs := t.regs, ques := t.ques } ∧
      ∀ x < 24, ∀ k < 64, if br12.testBit x && br13.testBit k then
          t.isSet (TIL_OVF_W7_NF (tileOvfBase x k)) = false ∧ t.get (TIL_OVF_W0_SAT_COUNT (tileOvfBase x k)) = 0 ∧
            t.get (TIL_OVF_W7_AUTOCLR (tileOvfBase x k)) = s.get (TIL_OVF_W7_AUTOCLR (tileOvfBase x k))
        else ∀ j < 8, t.rd (tileOvfBase x k + 4 * j) = s.rd (tileOvfBase x k + 4 * j)) ∧
    (i = 4 → devOf br12 = s.devId → rangePopulated (localOf br12) 16 = true → s.Plain (localOf br12) 16 →
      (∀ k < 16, (s.byte (localOf br12 + k)).toNat ≤ 63) → ∃ t, exec .shareSet s = .next t ∧ returns t ∧
        (∀ k < 8, t.get (HBC_SHARE_WEIGHT k) = (s.byte (localOf br12 + k)).toNat ∧ t.get (LPC_SHARE_WEIGHT k) = (s.byte (localOf br12 + 8 + k)).toNat) ∧ s.KeepsStores t) ∧
    (i = 1 → devOf br12 = s.devId → rangePopulated (localOf br12) 1024 = true → s.locked (localOf br12) 1024 = false → localOf br12 % 64 = 0 →
      s.badBridges = 0 → ∃ t, exec .telemSnap s = .next t ∧ returns t ∧
      (∀ k < 1024, s.sampleBytes[k]? = some (t.byte (localOf br12 + k))) ∧
      (∀ l ∈ linesOf (localOf br12) 1024, t.poisoned l = false) ∧ (∀ a, a < localOf br12 ∨ localOf br12 + 1024 ≤ a → t.byte a = s.byte a)) ∧
    (i = 1 ∨ i = 4 → devOf br12 ≠ s.devId ∨ (i = 1 ∧ s.locked (localOf br12) 1024 = true) → ∃ t, (if i = 1 then exec .telemSnap s else exec .shareSet s) = .next t ∧ t.qstate q = qFrozen ∧
      s.Logs 0x5001 (srcQueue q) 0 t ∧ (t.que q).lib = none ∧ (∀ e ∈ (t.que q).issued, opcode e.word = 7 → e.status ≠ .busy) ∧ s.KeepsStores t))

/-- A WAIT that is met lets its queue run again, and a wait that outlasts QUE_WAITLIM, unmet, freezes its queue: 0x3001 with the
flag and its target, 0x300B at a barrier (R125, R145, R146).  A wait that is met when the limit passes is met: the expiry then does
nothing (R146).  The freeze is the expiry's own effect. -/
def Obligations.WaitsEnd : Prop :=
  ∀ (q : QId) (s : State),
    let g := homeSet q
    let f := hdrWaitFlag (s.headWord q)
    let target := (hdrWaitValue (s.headWord q) + (s.headCmd q).2.1 * s.get (TIL_FPER_PER g f)) % 65536
    (s.Stands q qWaiting 0 → (s.flag g f + 65536 - target) % 65536 < 32768 → ∃ t, exec (.waitMet q) s = .next t ∧ t.Stands q qRunning 0 ∧
      (t.que q).waited = true ∧ (t.que q).issued = (s.que q).issued ∧ t.get (QUE_STAT_PC q) = s.get (QUE_STAT_PC q) ∧
      s.RegsBut (fun a => a = aQUE_STAT q) t ∧ t = { s with regs := t.regs, ques := t.ques }) ∧
    (s.Stands q qWaiting 0 → s.get (QUE_WAITLIM_LIMIT q) ≠ 0 → 32768 ≤ (s.flag g f + 65536 - target) % 65536 → ∃ t, exec (.waitLimitExpiry q) s = .next t ∧
      s.FreezesAtHead q 0x3001 t ∧ s.Logs 0x3001 (srcQueue q) (g * 2 ^ 59 + f * 2 ^ 48 + target * 2 ^ 16 + s.flag g f) t ∧ s.KeepsStores t) ∧
    (s.Stands q qWaiting 2 → s.get (QUE_WAITLIM_LIMIT q) ≠ 0 → s.barrierMet g = false → ∃ t, exec (.waitLimitExpiry q) s = .next t ∧
      s.FreezesAtHead q 0x300B t ∧ s.Logs 0x300B (srcQueue q) 0 t ∧ s.KeepsStores t) ∧
    (s.Stands q qWaiting 0 → (s.flag g f + 65536 - target) % 65536 < 32768 → exec (.waitLimitExpiry q) s = .next s) ∧
    (s.Stands q qWaiting 2 → s.barrierMet g = true → exec (.waitLimitExpiry q) s = .next s) ∧
    (s.get (QUE_WAITLIM_LIMIT q) = 0 ∨ s.qstate q ≠ qWaiting ∨ s.Stands q qWaiting 1 ∨ s.Stands q qWaiting 3 → exec (.waitLimitExpiry q) s = .next s)

/-- The oldest issued command of a queue retires when its work is complete, and signals (R122); a queue parks at its boundary
(R143, R169, R171).
Choices of the model used here: log entry 10. -/
def Obligations.RetireAndPark : Prop :=
  (∀ (q : QId) (s : State) (e : Issued) (rest : List Issued), (s.que q).issued = e :: rest → e.status = .done → e.freeze = none → e.record = none →
    (e.signalled = true ∨ cmdGet e.word 41 9 < 496) →
    (∃ t, exec (.commandRetire q) s = .next t ∧ (t.que q).issued = rest ∧
      t.get (QUE_CMDCNT_CNT q) = (s.get (QUE_CMDCNT_CNT q) + 1) % 2 ^ 64 ∧
      (e.signalled = false → cmdGet e.word 50 8 ≠ 0 → 0 < cmdGet e.word 41 9 → cmdGet e.word 41 9 < 496 →
        t.flag (homeSet q) (cmdGet e.word 41 9) = (s.flag (homeSet q) (cmdGet e.word 41 9) + cmdGet e.word 50 8) % 65536) ∧
      (rest = [] → (s.que q).passEnd = true → s.qstate q = qRunning → t.qstate q = qIdle))) ∧
  (∀ (q : QId) (s : State) (e : Issued) (rest : List Issued), (s.que q).issued = e :: rest → e.status ≠ .done → exec (.commandRetire q) s = .next s) ∧
  (∀ (q : QId) (s : State), (s.qstate q = qRunning ∨ (s.qstate q = qWaiting ∧ s.get (QUE_STAT_WHY q) ≠ 3)) → s.isSet (QUE_CTRL_PARKREQ q) = true → ((s.que q).parkDue = true ∨ s.isSet (QUE_PARK_ANY q) = true) →
    (s.que q).issued = [] → (s.que q).lib = none → (s.que q).passEnd = false → (s.que q).pendingFreeze = none → ∃ t, exec (.queuePark q) s = .next t ∧
      t.qstate q = qParked ∧ t.isSet (QUE_CTRL_PARKREQ q) = false ∧ t.get (QUE_STAT_PC q) = s.get (QUE_STAT_PC q) ∧
      s.RegsBut (fun a => a = aQUE_STAT q ∨ a = aQUE_CTRL q) t ∧ (∀ k, (t.gate k).phase = (s.gate k).phase) ∧
      t = { s with regs := t.regs, ques := t.ques, gates := t.gates })

/-- The bits of QUE_CTRL (R145, R148, R151, R432): START, RESUME, THAW, THAWNEXT, PARKREQ and QRESET, each in the states that have
it, by a port that may write.
Choices of the model used here: log entry 26. -/
def Obligations.QueueControlWrites : Prop :=
  ∀ (p : PortId) (q : QId) (s : State), s.mayWrite p true = true →
    (s.qstate q = qArmed → ∃ t, exec (.start p q) s = .next t ∧ t.Stands q qRunning 0 ∧ t.get (QUE_STAT_PC q) = s.get (QUE_STAT_PC q) ∧ s.KeepsStores t) ∧
    (s.qstate q ≠ qArmed → ∃ t, exec (.start p q) s = .next t ∧ t.qstate q = s.qstate q ∧ s.KeepsStores t) ∧
    (s.qstate q = qParked → ∃ t, exec (.resume p q) s = .next t ∧ t.Stands q qRunning 0 ∧ (t.que q).waited = false ∧ s.KeepsStores t) ∧
    (s.qstate q ≠ qParked → ∃ t, exec (.resume p q) s = .next t ∧ t.qstate q = s.qstate q ∧ s.KeepsStores t) ∧
    (s.qstate q = qFrozen → (s.que q).dead = false → (s.que q).passEnd = false → (∃ t, exec (.thaw p q) s = .next t ∧ t.Stands q qRunning 0 ∧
        t.isSet (QUE_FREEZEREC_VALID q) = false ∧ (t.que q).issued = (s.que q).issued ∧ t.get (QUE_STAT_PC q) = s.get (QUE_STAT_PC q) ∧ s.KeepsStores t) ∧
      (s.isSet (QUE_FREEZEREC_RESUME q) = true → ∃ t, exec (.thawnext p q) s = .next t ∧ t.Stands q qRunning 0 ∧ t.isSet (QUE_FREEZEREC_VALID q) = false ∧
        t.get (QUE_STAT_PC q) = s.get (QUE_STAT_PC q) ∧ s.KeepsStores t) ∧
      (s.isSet (QUE_FREEZEREC_RESUME q) = false → s.Fresh q → s.get (QUE_STAT_PC q) = s.get (QUE_FREEZEREC_CMD q) →
        s.get (QUE_STAT_PC q) + 1 < s.get (QUE_PROG_LEN q) → ∃ t, exec (.thawnext p q) s = .next t ∧ t.Stands q qRunning 0 ∧ t.isSet (QUE_FREEZEREC_VALID q) = false ∧
        t.get (QUE_STAT_PC q) = (s.get (QUE_STAT_PC q) + 1) % 8192 ∧ s.KeepsStores t)) ∧
    (s.qstate q ≠ qFrozen → (∃ t, exec (.thaw p q) s = .next t ∧ t.qstate q = s.qstate q ∧ t.rd (aQUE_FREEZEREC q) = s.rd (aQUE_FREEZEREC q) ∧ s.KeepsStores t) ∧
      ∃ t, exec (.thawnext p q) s = .next t ∧ t.qstate q = s.qstate q ∧ t.rd (aQUE_FREEZEREC q) = s.rd (aQUE_FREEZEREC q) ∧ s.KeepsStores t) ∧
    (∀ on, s.qstate q ≠ qIdle → ∃ t, exec (.parkreq p q on) s = .next t ∧ t.isSet (QUE_CTRL_PARKREQ q) = on ∧ t.qstate q = s.qstate q ∧ s.KeepsStores t) ∧
    (∃ t, exec (.qreset p q) s = .next t ∧ t.qstate q = qIdle ∧ t.get (QUE_STAT_PC q) = 0 ∧ t.get (QUE_PASS_PASS q) = 0 ∧
      t.isSet (QUE_FREEZEREC_VALID q) = false ∧ (∀ n < 16, t.rd (aQUE_BASE q n) = 0) ∧ s.KeepsStores t)

/-- MMF, MMBI and MMBW run every repetition when what they access lies in the tile's scratchpad (of W nothing without LOADW,
and no rows of a tile that the mask leaves unfed, R67, R79) and a stationary tile is there or is loaded; otherwise the queue
freezes with the code R68, R39 or R84 gives (R64 to R69, R84).
Choices of the model used here: log entries 19 and 57. -/
def Obligations.MatrixCommandsRun : Prop :=
  ∀ (t : TileId) (m : Fin 2) (cyc fill op : Nat) (i : Instr) (s : State) (wG xG auxG : Nat),
    (i = .mmf t m cyc fill ∧ op = 0x10 ∨ i = .mmbi t m cyc fill ∧ op = 0x11 ∨ i = .mmbw t m cyc fill ∧ op = 0x12) →
    let q := t.val * 5 + m.val
    let w := s.headWord q
    let c := MxCmd.ofWord w
    let rep (n : Nat) : MxRep := mxRep t c (localOf wG) (localOf xG) (s.auxWord (localOf auxG)) n
    s.HeadRuns q op false → s.Fresh q →
    s.cmdOperand q w 128 20 32 = some wG → s.cmdOperand q w 152 20 32 = some xG → s.cmdOperand q w 192 20 32 = some auxG →
    (c.loadw = true → devOf wG = s.devId) → devOf xG = s.devId → devOf auxG = s.devId → inPad t (localOf auxG) 128 = true → localOf auxG % 128 = 0 →
    s.Plain (localOf auxG) 128 →
    let maskA := padBase t + getBits (s.auxWord (localOf auxG) 4) 0 20 * 32
    let mask := if c.masken then s.readNat maskA 16 else 0
    (c.masken = true → s.Plain maskA 16) →
    let within : Prop := (∀ n < c.reps, ∀ r ∈ (rep n).ranges c mask, inPad t r.1 r.2 = true) ∧ (c.masken = true → inPad t maskA 16 = true)
    let aligned : Prop := ∀ n < c.reps, (rep n).aligned c mask = true
    let loaded : Prop := c.loadw = true ∨ (s.isSet (MXE_STAT_STV t m) = true ∧ (s.mxe (t.val * 2 + m.val)).mode = c.mode ∧ c.mode ≠ 5)
    (within → aligned → loaded → ∃ x, exec i s = .next x ∧ (∃ e, (x.que q).issued = (s.que q).issued ++ [e] ∧ e.word = w ∧ e.status = .done) ∧
      x.get (MXE_STAT_LEVEL t m) = 1023 ∧ x.get (MXE_STAT_ARRAY t m) = 1 ∧ (x.mxe (t.val * 2 + m.val)).prewake = s.preWoken t ∧
      (c.hen = false → s.errs = [] → x.mem = s.mem ∧ x.poison = s.poison)) ∧
    (within → aligned → ¬ loaded → ∃ x, exec i s = .next x ∧ s.FreezesAtHead q 0x1003 x ∧ s.Logs 0x1003 (srcTile t m 0) 0 x ∧ s.KeepsStores x) ∧
    (within → ¬ aligned → ∃ x, exec i s = .next x ∧ s.FreezesAtHead q 0x1004 x ∧ s.Logs 0x1004 (srcTile t m 0) 0 x ∧ s.KeepsStores x) ∧
    (¬ within → ∃ x, exec i s = .next x ∧ s.FreezesAtHead q 0x5001 x ∧ s.Logs 0x5001 (srcTile t m 0) 0 x ∧ s.KeepsStores x)

/-- The value one row of an MMF leaves in the bank (R43, R44, R62, R75): the array's sum of products in FP32. -/
def Obligations.MatrixRowResult : Prop :=
  ∀ (t : TileId) (m : Fin 2) (cyc fill : Nat) (s : State) (wG xG auxG : Nat),
    let q := t.val * 5 + m.val
    let w := s.headWord q
    let c := MxCmd.ofWord w
    let p : MxRep := mxRep t c (localOf wG) (localOf xG) (s.auxWord (localOf auxG)) 0
    let rk := bankRow t m p.bank c.row0
    s.HeadRuns q 0x10 false → s.Fresh q →
    s.cmdOperand q w 128 20 32 = some wG → s.cmdOperand q w 152 20 32 = some xG → s.cmdOperand q w 192 20 32 = some auxG →
    devOf wG = s.devId → devOf xG = s.devId → devOf auxG = s.devId → inPad t (localOf auxG) 128 = true → localOf auxG % 128 = 0 →
    s.errs = [] → s.poison = [] → c.rep = [1, 1, 1] → c.rows = 1 → c.masken = false → c.hen = false → c.csc = false → c.epi = 0 → c.acc = false →
    c.loadw = true → c.op = 0x10 → modeBlocks c.mode = false → c.mode ≠ 3 → c.mode ≠ 5 → c.cvt.rnd ≠ 2 →
    (∀ r ∈ p.ranges c 0, inPad t r.1 r.2 = true) → fmtIsBlock c.wfmt = false → fmtIsBlock c.xfmt = false →
    tabGet (fun _ => ({} : RowWrites)) s.landings rk = {} →
    ∃ x, exec (.mmf t m cyc fill) s = .next x ∧ ∀ col < 128, x.entry rk col = BitVec.ofNat 32
      ((floatFmt fFP32).convert (c.cvt.mode 0) c.cvt.sat (columnOut c.mode
        ((List.range c.depth).map fun k => decodeElem c.wfmt (s.elemBits (p.w + k * p.wpitch) c.wfmt col))
        ((List.range c.depth).map fun k => decodeElem c.xfmt (s.elemBits p.x c.xfmt k)))).bits

/-- ERUN issues when its checks pass and freezes its queue with the failing check's code otherwise (R88 to R96, R115); ESTAMP
advances or copies a version word (R110).
Choices of the model used here: log entry 25. -/
def Obligations.ElementCommandsRun : Prop :=
  (∀ (t : TileId) (cyc : Nat) (s : State) (dG : Nat) (ops : List Nat),
    let q := t.val * 5 + 2
    let w := s.headWord q
    let d := localOf dG
    let wd (i : Nat) : Nat := s.readNat (d + 4 * i) 4
    let masked := getBits (wd 49) 20 1 == 1
    let maskA := padBase t + getBits (wd 49) 0 20 * 32
    let c := ERun.ofWords t cyc w wd (ops.map localOf) (if masked then s.readNat maskA 16 else 0) (s.program t (cmdGet w 64 4)) s
    s.HeadRuns q 0x40 true → s.Fresh q → s.cmdOperand q w 128 20 32 = some dG → devOf dG = s.devId → inPad t d 256 = true → d % 256 = 0 →
    s.errs = [] → s.poison = [] →
    (elementStreams t wd).map (fun x => if x.kind = 1 then s.operand q x.reg (x.off * 32) else some (s.devId * 2 ^ 48)) = ops.map some →
    (∀ a ∈ ops, devOf a = s.devId) → (masked = true → inPad t maskA 16 = true) →
    (c.check = none → ∃ x, exec (.erun t cyc) s = .next x ∧ (∃ e, (x.que q).issued = (s.que q).issued ++ [e] ∧ e.word = w ∧ e.status = .done) ∧
      x.get (ELE_STAT_SLOT t) = cmdGet w 64 4 ∧ x.get (ELE_ELEMCNT_CNT t) = (s.get (ELE_ELEMCNT_CNT t) + c.live.length * c.cols * c.reps) % 2 ^ 64) ∧
    (∀ code, c.check = some code → ∃ x, exec (.erun t cyc) s = .next x ∧ s.FreezesAtHead q code x ∧ s.Logs code (srcTile t 2 0) 0 x ∧ s.KeepsStores x)) ∧
  (∀ (t : TileId) (s : State) (dG : Nat),
    let q := t.val * 5 + 2
    let w := s.headWord q
    let d := localOf dG / 8 * 8
    let sourceIs (src : Nat) : Prop := (cmdGet w 64 2 = 1 ∧ ∃ cG, s.cmdOperand q w 152 20 8 = some cG ∧ devOf cG = s.devId ∧ src = localOf cG / 8 * 8) ∨
      (cmdGet w 64 2 ≠ 1 ∧ src = d)
    s.HeadRuns q 0x41 true → s.Fresh q → s.cmdOperand q w 128 20 8 = some dG → devOf dG = s.devId → inPad t d 8 = true →
    ∀ src, sourceIs src → inPad t src 8 = true →
      (s.errs = [] → s.poisoned (src / 64) = false → ∃ x, exec (.estamp t) s = .next x ∧ (∃ e, (x.que q).issued = (s.que q).issued ++ [e] ∧ e.word = w) ∧
        x.readNat d 8 = (if cmdGet w 64 2 = 1 then s.readNat src 8 else (s.readNat d 8 / 2 ^ 40 + 1) % 2 ^ 24 * 2 ^ 40 + s.get (TIL_STEP_STEP t)) ∧
        (∀ a, a < d ∨ d + 8 ≤ a → x.byte a = s.byte a) ∧ x.poison = s.poison) ∧
      (s.errs = [] → s.poisoned (src / 64) = true → ∃ x, exec (.estamp t) s = .next x ∧ s.FreezesAtHead q 0x2004 x ∧
        s.Logs 0x2004 (srcTile t 2 0) 0 x ∧ s.KeepsStores x))

/-- FCOPY and FMOVE between places of this device's memory copy every byte of every row and no other (R194 to R199, R214); a failing
check freezes the queue (R29, R195, R201). -/
def Obligations.LocalCopies : Prop :=
  ∀ (t : TileId) (f : Fin 2) (op : Nat) (i : Instr) (s : State) (a b : Nat),
    (i = .fcopy t f ∧ op = 0x70 ∨ i = .fmove t f ∧ op = 0x71) →
    let q := flumeQ t f
    let w := s.headWord q
    let e : Issued := { s.newIssued q with job := [a, b, 0, 0, 0, 0] ++ List.replicate 14 0 }
    let j := FlmJob.of q e
    let len := flmRowBytes j.sfmt j.cols
    s.HeadRuns q op false → s.Fresh q → s.flumeRoom q = true →
    s.cmdOperand q w (if op = 0x71 then 72 else 96) 20 32 = some a → s.cmdOperand q w (if op = 0x71 then 96 else 120) 20 32 = some b →
    (op = 0x70 → cmdGet w 248 1 = 0) → fmtIsBlock j.sfmt = false → fmtIsBlock j.dfmt = false →
    (∀ code, j.check s = some code → ∃ x, exec i s = .next x ∧ s.FreezesAtHead q code x ∧ s.Logs code (srcTile t (3 + f.val) 0) 0 x ∧ s.KeepsStores x) ∧
    (j.check s = none → j.sfmt = j.dfmt → j.add = false → j.ten = false → j.ssp = 0 → j.dsp = 0 → devOf a = s.devId → devOf b = s.devId →
      s.get LPC_MIRSTAT_ACTIVE = 0 → s.errs = [] → s.poison = [] → s.badBridges = 0 →
      (∀ x < j.rows, ∀ y < j.rows, localOf a + x * j.spitch + len ≤ localOf b + y * j.dpitch ∨ localOf b + y * j.dpitch + len ≤ localOf a + x * j.spitch) →
      (∀ x < j.rows, ∀ y < j.rows, x ≠ y → localOf b + x * j.dpitch + len ≤ localOf b + y * j.dpitch ∨ localOf b + y * j.dpitch + len ≤ localOf b + x * j.dpitch) →
      j.rep0 = 1 → j.rep1 = 1 → localOf a + j.rows * j.spitch + len < 2 ^ 48 → localOf b + j.rows * j.dpitch + len < 2 ^ 48 →
      ∃ x, exec i s = .next x ∧ (∃ e', (x.que q).issued = (s.que q).issued ++ [e'] ∧ e'.word = w ∧ e'.status = .done) ∧
        (∀ r < j.rows, ∀ k < len, x.byte (localOf b + r * j.dpitch + k) = s.byte (localOf a + r * j.spitch + k)) ∧
        (∀ y, (∀ r < j.rows, y < localOf b + r * j.dpitch ∨ localOf b + r * j.dpitch + len ≤ y) → x.byte y = s.byte y) ∧
        x.get (FLM_BYTECNT_CNT t f) = (s.get (FLM_BYTECNT_CNT t f) + j.rows * len) % 2 ^ 64)

/-- FTINT (R203) and FMIRSYNC (R210, R211).
Choices of the model used here: log entry 17. -/
def Obligations.TintAndMirrorSync : Prop :=
  ∀ (t : TileId) (f : Fin 2) (s : State), let q := flumeQ t f
    let w := s.headWord q
    s.Fresh q →
    (s.HeadRuns q 0x72 true → let r := cmdGet w 64 3
      (cmdGet w 67 1 = 0 → ∃ x, exec (.ftint t f) s = .next x ∧ x.get (FLM_TINT_TINT t f r) = (if cmdGet w 68 1 = 1 then 0 else s.get (FLM_TINT_TINT t f r)) ∧
        (x.que q).issued = (s.que q).issued ++ [s.newIssued q] ∧
        s.RegsBut (fun a => a = aQUE_STAT q ∨ a = aQUE_PASS q ∨ a = aFLM_TINT t f r ∨ a = aFLM_STAT t f) x ∧ s.KeepsStores x) ∧
      (∀ g, cmdGet w 67 1 = 1 → s.cmdOperand q w 72 20 8 = some g → devOf g = s.devId → s.granted q (localOf g) 8 true = true →
        s.get LPC_MIRSTAT_ACTIVE = 0 → s.errs = [] → s.badBridges = 0 → ∃ x, exec (.ftint t f) s = .next x ∧
          (∀ k < 8, (x.byte (localOf g + k)).toNat = s.get (FLM_TINT_TINT t f r) / 256 ^ k % 256) ∧
          x.get (FLM_TINT_TINT t f r) = (if cmdGet w 68 1 = 1 then 0 else s.get (FLM_TINT_TINT t f r)) ∧
          (∀ a, a < localOf g ∨ localOf g + 8 ≤ a → x.byte a = s.byte a))) ∧
    (s.HeadRuns q 0x73 true → let r := cmdGet w 64 4
      (s.isSet (LPC_MIRBASE_EN r) = false → ∃ x, exec (.fmirsync t f) s = .next x ∧ (x.que q).issued = (s.que q).issued ++ [s.newIssued q] ∧
        s.RegsBut (fun a => a = aQUE_STAT q ∨ a = aQUE_PASS q ∨ a = aFLM_STAT t f) x ∧ s.KeepsStores x) ∧
      (s.isSet (LPC_MIRBASE_EN r) = true → s.mirStopped = false → (∀ m ∈ s.fab.sends, m.origin ≠ .mirror r) → ∃ x, exec (.fmirsync t f) s = .next x ∧
        x.isSet (LPC_MIRDONE_VALID r) = true ∧ x.get (LPC_MIRDONE_STEP r) = s.get (TIL_STEP_STEP t) ∧
        (cmdGet w 68 1 = 1 → cmdGet w 69 9 ≠ 0 → x.flag t (cmdGet w 69 9) = (s.flag t (cmdGet w 69 9) + 1) % 65536) ∧ s.KeepsStores x) ∧
      (s.isSet (LPC_MIRBASE_EN r) = true → s.mirStopped = true → cmdGet w 68 1 = 0 → ∃ x, exec (.fmirsync t f) s = .next x ∧
        s.FreezesAtHead q 0x3006 x ∧ s.Logs 0x3006 (srcQueue q) 0 x ∧ s.KeepsStores x))

/-- Datapath parity faults (R85, R112, R147, R204): the command or commands are to run again, and of what they write, what they had
begun is invalid or poisoned; and the ballast's ramp-down, whose gap and fall count as dry grind (R83, R87).
Choices of the model used here: log entries 18 and 23. -/
def Obligations.ParityFaultsAbort : Prop :=
  (∀ (i : Instr) (q code src begun : Nat) (s : State) (earlier : List Issued) (e : Issued),
    (∃ (t : TileId) (m : Fin 2), i = .matrixParityFault t m begun ∧ q = t.val * 5 + m.val ∧ code = 0x1002 ∧ src = srcTile t m 0) ∨
      (∃ t : TileId, i = .elementParityFault t begun ∧ q = t.val * 5 + 2 ∧ code = 0x2001 ∧ src = srcTile t 2 0) →
    (s.que q).issued = earlier ++ [e] → e.isEngine = true → e.status ≠ .rerun → (∀ g ∈ e.groups, g.1 < 12288) → (∀ x ∈ earlier, x.uid ≠ e.uid) →
    ∃ x, exec i s = .next x ∧ x.qstate q = qFrozen ∧ s.Logs code src 0 x ∧
      (s.isSet (QUE_FREEZEREC_VALID q) = false → x.get (QUE_FREEZEREC_CODE q) = code ∧ x.isSet (QUE_FREEZEREC_RESUME q) = false ∧ x.get (QUE_FREEZEREC_CMD q) = e.idx % 8192) ∧
      (x.que q).issued = earlier ++ [{ e with status := .rerun, groups := [], lines := [], marks := [], freeze := none }] ∧
      (∀ g ∈ e.groups.take (e.begunOf begun).1, x.groupValid g.1 = false) ∧ (∀ l ∈ e.lines.take (e.begunOf begun).2, x.poisoned l.1 = true) ∧
      (q % 5 < 2 → x.isSet (MXE_STAT_ABORT (q / 5) (q % 5)) = true) ∧ (q % 5 = 2 → x.isSet (ELE_STAT_ABORT (q / 5)) = true)) ∧
  (∀ (t : TileId) (f : Fin 2) (begun : Nat) (s : State), let q := flumeQ t f
    let mine := (s.que q).issued.filter fun e => e.isEngine && decide (e.status ≠ .rerun)
    (mine = [] → exec (.flumeParityFault t f begun) s = .next s) ∧
    (mine ≠ [] → ∃ x, exec (.flumeParityFault t f begun) s = .next x ∧ x.qstate q = qFrozen ∧
      (s.get LPC_MIRSTAT_ACTIVE = 0 → (∀ e ∈ mine, e.far = []) → s.Logs 0x500A (srcTile t (3 + f.val) 0) 0 x) ∧
      (∀ e ∈ (x.que q).issued, e.isEngine = true → e.status = .rerun) ∧ (x.que q).issued.length = (s.que q).issued.length ∧
      x.isSet (FLM_STAT_ABORT t f) = true ∧
      (∀ before e after, mine = before ++ e :: after →
        ∀ l ∈ e.lines.take (begun - (before.map fun d => d.lines.length + d.far.length).sum), x.poisoned l.1 = true))) ∧
  (∀ (t : TileId) (m : Fin 2) (s : State),
    ((s.mxe (t.val * 2 + m.val)).prewake = true → exec (.ballastRampDown t m) s = .next s) ∧
    ((s.mxe (t.val * 2 + m.val)).prewake = false → ∃ x, exec (.ballastRampDown t m) s = .next x ∧ x.get (MXE_STAT_LEVEL t m) = 0 ∧
      x.get (MXE_STAT_ARRAY t m) = 0 ∧
      x.get (MXE_DGCNT_CNT t m) = (if s.get (MXE_STAT_LEVEL t m) = 0 ∨ (s.mxe (t.val * 2 + m.val)).warm = true then s.get (MXE_DGCNT_CNT t m) else
        (s.get (MXE_DGCNT_CNT t m) + (s.mxe (t.val * 2 + m.val)).hold * 16 +
          rampCycles (s.mxe (t.val * 2 + m.val)).ramp (s.get (MXE_STAT_LEVEL t m))) % 2 ^ 64) ∧
      s.RegsBut (fun a => a = aMXE_STAT t m ∨ a = aMXE_DGCNT t m) x ∧ x = { s with regs := x.regs, mxes := x.mxes }))

/-- Tile gating (R24 to R27, R359): each phase change under its condition, PG_EN as it stood when the timer started, what power gating
loses, and wake events; an access to one of the tile's blocks finds the tile running.
Choices of the model used here: log entry 19. -/
def Obligations.TileGating : Prop :=
  ∀ (t : TileId) (s : State),
    let becomes (i : Instr) (ph : GatePhase) (code : Nat) : Prop := ∃ x, exec i s = .next x ∧ (x.gate t).phase = ph ∧ x.get (TIL_GATE_STATE t) = code ∧
      s.RegsBut (fun a => a = aTIL_GATE t) x ∧ (∀ k, k ≠ t.val → x.gate k = s.gate k) ∧ x = { s with regs := x.regs, gates := x.gates }
    ((s.gate t).phase = .running → (∀ q ∈ setQueues t, s.qstate q = qIdle ∨ s.qstate q = qWaiting ∨ s.qstate q = qParked ∨ s.qstate q = qFrozen) →
      s.enginesIdle t = true → s.padBusy t = false → s.preWoken t = false → becomes (.tileClockGate t) .clockGated 1 ∧
        ((∀ q ∈ setQueues t, s.qstate q ≠ qWaiting) → ∀ x, exec (.tileClockGate t) s = .next x → (x.gate t).pgEn = some (s.isSet (TIL_GATE_PG_EN t)))) ∧
    (s.enginesIdle t = false ∨ s.padBusy t = true ∨ s.preWoken t = true → exec (.tileClockGate t) s = .next s) ∧
    ((∃ q ∈ setQueues t, s.qstate q = qRunning) → exec (.tileClockGate t) s = .next s) ∧
    ((s.gate t).phase = .clockGated → (∀ q ∈ setQueues t, s.qstate q = qIdle ∨ s.qstate q = qParked ∨ s.qstate q = qFrozen) → (s.gate t).pgEn = some true →
      becomes (.tilePowerGateEntry t) .entering 1) ∧
    ((s.gate t).pgEn ≠ some true ∨ (∃ q ∈ setQueues t, s.qstate q = qWaiting) → exec (.tilePowerGateEntry t) s = .next s) ∧
    ((s.gate t).phase = .entering → becomes (.tileIsolation t) .isolated 1) ∧
    ((s.gate t).phase = .isolated → ∃ x, exec (.tilePowerGateComplete t) s = .next x ∧
      (x.gate t).phase = (if (s.gate t).wakeAfter then .waking else .powerGated) ∧ x.get (TIL_GATE_STATE t) = (if (s.gate t).wakeAfter then 3 else 2) ∧
      (x.gate t).wakeAfter = false ∧
      (∀ m < 2, x.isSet (MXE_STAT_STV t m) = false ∧ x.get (MXE_STAT_LEVEL t m) = 0 ∧ (x.mxe (t.val * 2 + m)).tile = []) ∧ s.KeepsStores x) ∧
    ((s.gate t).phase = .clockGated ∨ (s.gate t).phase = .entering ∨ (s.gate t).phase = .powerGated → becomes (.tileWake t) .waking 3) ∧
    ((s.gate t).phase = .isolated → ∃ x, exec (.tileWake t) s = .next x ∧ (x.gate t).phase = .isolated ∧ (x.gate t).wakeAfter = true ∧ x.regs = s.regs) ∧
    ((s.gate t).phase = .running ∨ (s.gate t).phase = .waking → exec (.tileWake t) s = .next s) ∧
    ((s.gate t).phase = .waking → ∃ x, exec (.tileWakeComplete t) s = .next x ∧ (x.gate t).phase = .running ∧ x.get (TIL_GATE_STATE t) = 0 ∧
      s.RegsBut (fun a => a = aTIL_GATE t) x ∧ (∀ k, k ≠ t.val → x.gate k = s.gate k) ∧
      (∀ m < 2, let e := s.mxe (t.val * 2 + m)
        x.mxe (t.val * 2 + m) = if e.prewake = true ∧ e.riseAt = none then { e with riseAt := some s.now } else e) ∧
      x = { s with regs := x.regs, gates := x.gates, mxes := x.mxes }) ∧
    (∀ p : PortId, s.mayWrite p true = true → exec (.tilGateWake p t) s = exec (.tileWake t) s) ∧
    (∀ p : PortId, s.mayWrite p true = true → ∃ x, exec (.eleCntClr p t) s = .next x ∧ (x.gate t).phase = .running ∧
      ((s.gate t).phase ≠ .running → x.get (TIL_GATE_STATE t) = 0) ∧ x.rd (aELE_BUSYCNT t) = 0 ∧ x.rd (aELE_ELEMCNT t) = 0 ∧ s.KeepsStores x)

/-- The counter-clearing bits: each clears the counters its rule names and changes nothing else (R87, R115, R214, R215, R252,
R313, R339, R361, R444, R474).
Choices of the model used here: log entry 10. -/
def Obligations.CountersClear : Prop :=
  ∀ (p : PortId) (s : State), s.mayWrite p true = true →
    (∀ (t : TileId), (s.gate t).phase = .running →
      (∀ m : Fin 2, ∃ x, exec (.mxeCntClr p t m) s = .next x ∧ s.Clears [aMXE_DGCNT t m, aMXE_STRMCNT t m, aMXE_LOADCNT t m] x) ∧
      (∃ x, exec (.eleCntClr p t) s = .next x ∧ s.Clears [aELE_BUSYCNT t, aELE_ELEMCNT t] x) ∧
      (∀ f : Fin 2, ∃ x, exec (.flmCntClr p t f) s = .next x ∧ s.Clears [aFLM_BYTECNT t f, aFLM_MIRCNT t f] x)) ∧
    (∃ x, exec (.hbcCntClr p false) s = .next x ∧ s.Clears ((List.range 16).flatMap fun k => [aHBC_CECNT k, aHBC_UECNT k]) x) ∧
    (∃ x, exec (.hbcCntClr p true) s = .next x ∧ s.Clears ((List.range 4).flatMap fun k => [aLPC_CECNT k, aLPC_UECNT k]) x) ∧
    (∃ x, exec (.pwrCntClr p) s = .next x ∧ s.Clears [aPWR_THRCNT 0, aPWR_THRCNT 1, aPWR_THRCNT 2, aPWR_THRCNT 3, aPWR_AVSERR] x) ∧
    (∀ a : Fin 4, ∃ x, exec (.whlCntClr p a) s = .next x ∧ s.Clears [aWHL_TXBYTES a, aWHL_RXBYTES a, aWHL_COLLCNT a, aWHL_RESEND a] x) ∧
    (∃ x, exec (.ftmCntClr p) s = .next x ∧ s.Clears [aFTM_XCNT, aFTM_PPSIGN] x) ∧
    (∃ x, exec (.evrCntClr p) s = .next x ∧ x.rd aEVR_DROPCNT = 0 ∧ s.RegsBut (fun a => a = aEVR_DROPCNT ∨ a = aEVR_CTRL) x ∧
      x = { s with regs := x.regs }) ∧
    (s.Quiet → (∃ x, exec (.rteCntClr p) s = .next x ∧ s.Clears [aRTE_NOROUTE, aRTE_EXPREF, aRTE_XRETRY, aRTE_XGIVEUP, aRTE_DEDUPFULL, aRTE_CEMARK, aRTE_ETHDROP,
        aRTE_SHINJ 0, aRTE_SHEJ 0, aRTE_SHDROP 0, aRTE_SHINJ 1, aRTE_SHEJ 1, aRTE_SHDROP 1] x) ∧
      ∀ n : LinkId, s.Calm n → ∃ x, exec (.lnkCntClr p n) s = .next x ∧
        (∀ a ∈ [aLNK_TXCELLS n, aLNK_RXCELLS n, aLNK_REPLAY n, aLNK_CRCERR n, aLNK_FECCW n, aLNK_FECSYM n, aLNK_FECUCW n, aLNK_OVRCNT n, aLNK_DROPCNT n, aLNK_TESTERR n], x.rd a = 0) ∧
        s.KeepsStores x)

/-- The job seed takes effect as a whole with its word 3 (R50); CLR clears a tile's overflow record but for AUTOCLR (R57). -/
def Obligations.SeedAndRecordWrites : Prop :=
  ∀ (p : PortId) (s : State), s.mayWrite p true = true →
    (∀ v : BitVec 32, ∃ x, exec (.glbJobseedCommit p v) s = .next x ∧
      (∀ k < 3, x.rd (aGLB_JOBSEED k) = (s.seedPend.extractLsb' (32 * k) 32).setWidth 64) ∧ x.rd (aGLB_JOBSEED 3) = v.setWidth 64 ∧
      s.RegsBut (fun a => ∃ k < 4, a = aGLB_JOBSEED k) x ∧ x = { s with regs := x.regs }) ∧
    (∀ (t : TileId) (i : Fin 64), (s.gate t).phase = .running → ∃ x, exec (.tilOvfClr p t i) s = .next x ∧
      (∀ k < 7, x.rd (tileOvfBase t i + 4 * k) = 0) ∧ x.isSet (TIL_OVF_W7_NF (tileOvfBase t i)) = false ∧ x.isSet (TIL_OVF_W7_FIRSTV (tileOvfBase t i)) = false ∧
      x.get (TIL_OVF_W7_AUTOCLR (tileOvfBase t i)) = s.get (TIL_OVF_W7_AUTOCLR (tileOvfBase t i)) ∧
      s.RegsBut (fun a => tileOvfBase t i ≤ a ∧ a < tileOvfBase t i + 0x20) x ∧ x = { s with regs := x.regs })

/-- Host writes to flags: set (R127, R159), add (R126) and doorbells (R377); flag 0 discards them (R124).
Choices of the model used here: log entry 52. -/
def Obligations.FlagWrites : Prop :=
  ∀ (p : PortId) (g : SetId) (f : Fin 512) (s : State), s.mayWrite p true = true →
    let only (i : Instr) (v : Nat) : Prop := ∃ x, exec i s = .next x ∧ x.flag g f = (if f.val = 0 then 0 else v % 65536) ∧
      (∀ g' < 25, ∀ f' < 512, (g' ≠ g.val ∨ f' ≠ f.val) → x.flag g' f' = s.flag g' f') ∧ s.KeepsStores x
    (∀ v : BitVec 16, s.ldBusy g = false → only (.tilFlagWrite p g f v) v.toNat) ∧
    (∀ v : BitVec 16, s.ldBusy g = true → ∃ x, exec (.tilFlagWrite p g f v) s = .next x ∧ x.flag g f = s.flag g f ∧ s.Logs 0x300A (srcReg (aTIL_FLAG g f)) 0 x ∧ s.KeepsStores x) ∧
    (∀ v : BitVec 8, only (.tilFlagadd p g f v) (s.flag g f + v.toNat)) ∧
    (∀ v : BitVec 32, only (.dbl p g f v) (s.flag g f + v.toNat % 65536))

/-- GO and SAVE (R158, R159, R172, R173), the end of a load (R160, R167) and of a save (R173), and PARKALL (R169).
Choices of the model used here: log entries 29 and 59. -/
def Obligations.LoaderCommands : Prop :=
  (∀ (p : PortId) (g : SetId) (v : BitVec 32) (s : State), s.mayWrite p true = true →
    let src := s.get (TIL_LDSRC_SRC g)
    let len := s.get (TIL_LDLEN_LEN g)
    (v.getLsbD 6 = false → v.getLsbD 7 = false → s.ldBusy g = false →
      ((∀ q ∈ setQueues g, s.qstate q = qIdle) → src % 32 = 0 → inTier src len = true → 0 < len → len ≤ 0x200000 → ∃ x, exec (.go p g v) s = .next x ∧
        x.ldState g = ldLoading ∧ x.get (TIL_LDSTAT_REFUSE g) = 0 ∧ x.isSet (TIL_LDSTAT_MV g) = false ∧
        x.load g = { src := src, len := len, resume := x.get (TIL_LDCTRL_MODE g) == 1, rsm := s.get (TIL_LDRSM_RSM g) } ∧ s.KeepsStores x) ∧
      ((∃ q ∈ setQueues g, s.qstate q ≠ qIdle) → ∃ x, exec (.go p g v) s = .next x ∧ x.ldState g = ldRefused ∧ x.get (TIL_LDSTAT_REFUSE g) = 1 ∧ s.KeepsStores x)) ∧
    (v.getLsbD 6 = true → ∃ x, exec (.go p g v) s = .next x ∧ x.get (TIL_LDSTAT_REFUSE g) = 5 ∧ x.load g = s.load g ∧ x.ldState g = s.ldState g ∧ s.KeepsStores x) ∧
    (v.getLsbD 6 = false → v.getLsbD 7 = false → s.ldBusy g = true → ∃ x, exec (.go p g v) s = .next x ∧ x.get (TIL_LDSTAT_REFUSE g) = 6 ∧ x.ldState g = s.ldState g ∧
      x.load g = s.load g ∧ s.KeepsStores x) ∧
    (v.getLsbD 5 = false → v.getLsbD 7 = false → s.ldBusy g = false → (∀ q ∈ setQueues g, s.qstate q = qIdle ∨ s.qstate q = qParked) → s.get (TIL_LDRSM_RSM g) % 64 = 0 →
      inTier (s.get (TIL_LDRSM_RSM g)) recordSize = true →
      (s.locked (s.get (TIL_LDRSM_RSM g)) recordSize = false → s.isSet (TIL_LDSTAT_MV g) = true → ∃ x, exec (.save p g v) s = .next x ∧ x.ldState g = ldSaving ∧
        x.get (TIL_LDSTAT_REFUSE g) = 0 ∧ (x.load g).rsm = s.get (TIL_LDRSM_RSM g) ∧ s.KeepsStores x) ∧
      (s.locked (s.get (TIL_LDRSM_RSM g)) recordSize = true → ∃ x, exec (.save p g v) s = .next x ∧ x.ldState g = ldRefused ∧
        x.get (TIL_LDSTAT_REFUSE g) = 2 ∧ x.load g = s.load g ∧ s.KeepsStores x)) ∧
    (∃ x, exec (.parkall p g) s = .next x ∧
      (∀ q ∈ setQueues g, x.get (QUE_CTRL_PARKREQ q) = if s.qstate q = qIdle then s.get (QUE_CTRL_PARKREQ q) else 1) ∧ (∀ q < 125, x.qstate q = s.qstate q) ∧ s.KeepsStores x)) ∧
  (∀ (g : SetId) (s : State), s.ldState g = ldLoading → (s.load g).resume = false → s.isSet (TIL_LDCTRL_MEAS g) = false → s.errs = [] →
    let m : Image := { s := s.setLoad g {}, base := (s.load g).src, len := (s.load g).len, die := setDie g }
    (m.bolt g none [] = none → s.isSet (TIL_LDCTRL_AUTOSTART g) = false → ∃ x, exec (.loadDone g) s = .next x ∧ x.ldState g = ldPassed ∧
      x.get (TIL_LDSTAT_PASSCNT g) = (s.get (TIL_LDSTAT_PASSCNT g) + 1) % 65536 ∧
      ∀ k < 5, m.carries k = true → let q := g.val * 5 + k
        x.qstate q = qArmed ∧ x.get (QUE_STAT_PC q) = 0 ∧ x.get (QUE_PASS_PASS q) = 0 ∧ x.get (QUE_PROG_LEN q) = m.qlen k ∧
        (∀ n, 1 ≤ n → n < 16 → x.rd (aQUE_BASE q n) = x.rd (aQUE_BSTART q n) ∧ x.get (QUE_BMOD_IDX q n) = 0) ∧
        (m.qlen k ≤ 8192 → ∀ i < m.qlen k, tabGet (fun _ => (0 : CmdBits)) x.imem (q * 8192 + i) = m.command k i)) ∧
    (∀ r, m.bolt g none [] = some r → r.open_ = false → r.code < 65536 → ∃ x, exec (.loadDone g) s = .next x ∧ x.ldState g = ldRejected ∧
      x.get (TIL_LDREJ_CODE g) = r.code ∧ x.get (TIL_LDREJ_QUEUE g) = r.queue % 8 ∧ x.get (TIL_LDREJ_INDEX g) = r.index % 8192 ∧
      x.rd (aTIL_LDDET g) = BitVec.ofNat 64 r.detail ∧ (∀ q < 125, x.qstate q = s.qstate q) ∧ x.mem = s.mem)) ∧
  (∀ (g : SetId) (s : State), s.ldState g ≠ ldLoading → exec (.loadDone g) s = .next s) ∧
  (∀ (g : SetId) (s : State), s.ldState g = ldSaving → (s.load g).rsm % 64 = 0 → ∃ x, exec (.saveDone g) s = .next x ∧ x.ldState g = ldSaved ∧
    (let r := (s.load g).rsm
     (s.errs = [] → s.badBridges = 0 → s.locked r recordSize = false → x.readNat (r + 8) 8 = s.get (TIL_STEP_STEP g) ∧ x.readNat (r + 0x10) 8 = (s.rd (aTIL_PRED g)).toNat ∧
      (∀ k < 5, x.readNat (r + 0x40 + 0x100 * k + 2) 2 = s.get (QUE_STAT_PC (g.val * 5 + k)) ∧ x.readNat (r + 0x40 + 0x100 * k + 4) 4 = s.get (QUE_PASS_PASS (g.val * 5 + k))) ∧
      (∀ f < 512, x.readNat (r + 0x600 + 2 * f) 2 = s.flag g f)) ∧
     (∀ a, a < r ∨ r + 4608 ≤ a → x.byte a = s.byte a))) ∧
  (∀ (g : SetId) (s : State), s.ldState g ≠ ldSaving → exec (.saveDone g) s = .next s)

/-- Patrol scrubbing of one symbol (R187, R190, R191), and mirror enables (R207, R211, R216).
Choices of the model used here: log entry 53. -/
def Obligations.ScrubAndMirrorEnable : Prop :=
  (∀ (addr : BitVec 48) (pos : Fin 68) (d : BitVec 8) (k : Nat) (s : State), s.ready = true → homeOf addr.toNat = .stack k → d ≠ 0 →
    s.lineErrs (addr.toNat / 64) = [] → s.poisoned (addr.toNat / 64) = false →
    (s.isSet HBC_CTRL_SCRUB_EN = true → ∃ x, exec (.patrolScrub addr [(pos, d)]) s = .next x ∧ x.get (HBC_CECNT_CNT k) = (s.get (HBC_CECNT_CNT k) + 1) % 2 ^ 64 ∧
      x.get (HBC_LASTERR_KIND k) = 1 ∧ x.get (HBC_LASTERR_ADDR k) = addr.toNat / 64 * 64 ∧ x.lineErrs (addr.toNat / 64) = [] ∧ x.mem = s.mem ∧ x.poison = s.poison) ∧
    (s.isSet HBC_CTRL_SCRUB_EN = false → ∃ x, exec (.patrolScrub addr [(pos, d)]) s = .next x ∧ x.regs = s.regs ∧ x.mem = s.mem ∧
      x.lineErrs (addr.toNat / 64) = [(pos.val, d.toNat)])) ∧
  (∀ (p : PortId) (r : Fin 16) (s : State), s.mayWrite p true = true → s.isSet (LPC_MIRBASE_EN r) = false →
    (s.mirMayEnable r = true → ∃ x, exec (.mirRegionEnable p r) s = .next x ∧ x.isSet (LPC_MIRBASE_EN r) = true ∧ x.get (LPC_MIRBASE_BASE r) = s.get (LPC_MIRBASE_BASE r) ∧
      x.mirActive r = (s.isSet LPC_MIRCTL_EN && !s.mirStopped) ∧ s.RegsBut (fun a => a = aLPC_MIRBASE r ∨ a = aLPC_MIRSTAT) x ∧ x = { s with regs := x.regs }) ∧
    (s.mirMayEnable r = false → ∃ x, exec (.mirRegionEnable p r) s = .next x ∧ x.isSet (LPC_MIRBASE_EN r) = false ∧ s.Logs 0x500B srcMirror 0 x ∧ s.KeepsStores x)) ∧
  (∀ (p : PortId) (s : State), s.mayWrite p true = true →
    (s.isSet LPC_MIRCTL_EN = false → ∃ x, exec (.mirctlEn p true) s = .next x ∧ x.isSet LPC_MIRCTL_EN = true ∧ x.isSet LPC_MIRSTAT_LOST = false ∧
      x.get LPC_MIRCTL_LOCK = s.get LPC_MIRCTL_LOCK ∧ (∀ r < 16, x.mirActive r = s.isSet (LPC_MIRBASE_EN r)) ∧ s.KeepsStores x) ∧
    (∃ x, exec (.mirctlEn p false) s = .next x ∧ x.isSet LPC_MIRCTL_EN = false ∧ x.get LPC_MIRSTAT_ACTIVE = 0 ∧ s.KeepsStores x))

/-- LNK_CTRL's bits, LNK_PLAN and LNK_TEST (R252, R256, R273, R275, R276, R279, R281).
Choices of the model used here: log entries 15 and 53. -/
def Obligations.LinkControl : Prop :=
  ∀ (p : PortId) (n : LinkId) (s : State), s.mayWrite p true = true → s.Calm n →
    let ctrl (a : Nat) : Prop := a = aLNK_CTRL n
    (s.lstate n = lDown → ∃ t, exec (.linkEn p n true) s = .next t ∧ s.Trains t n ctrl ∧ t.isSet (LNK_CTRL_EN n) = true) ∧
    (s.lstate n ≠ lDown → s.Evaluable n → ∃ t, exec (.linkEn p n true) s = .next t ∧ t.isSet (LNK_CTRL_EN n) = true ∧ t.PlanHolds n ∧ s.LinkFrame t n ctrl) ∧
    (∃ t, exec (.linkEn p n false) s = .next t ∧ t.isSet (LNK_CTRL_EN n) = false ∧ t.lstate n = lDown ∧ t.get (LNK_STAT_REASON n) = 0 ∧ t.get (LNK_STAT_FCAUSE n) = 0 ∧
      t.get (LNK_STAT_LOCK n) = 0 ∧ t.get (LNK_STAT_LP n) = s.get (LNK_CTRL_LPM n) ∧ s.LinkFrame t n ctrl) ∧
    (s.isSet (LNK_CTRL_EN n) = true → (s.lstate n = lParked ∨ s.lstate n = lActive ∨ s.lstate n = lAbsent ∨ s.lstate n = lFailed) →
      ∃ t, exec (.retrain p n) s = .next t ∧ s.Trains t n ctrl) ∧
    (s.isSet (LNK_CTRL_EN n) = true → s.lstate n = lTraining → ∃ t, exec (.retrain p n) s = .next t ∧ t.lstate n = lTraining ∧ s.LinkFrame t n ctrl) ∧
    (s.isSet (LNK_CTRL_EN n) = true → s.Evaluable n →
      (∃ t, exec (.park p n true) s = .next t ∧ t.isSet (LNK_CTRL_PARK n) = true ∧ t.lstate n = lParked ∧ t.get (LNK_STAT_REASON n) = 10 ∧ s.LinkFrame t n ctrl) ∧
      (∃ t, exec (.park p n false) s = .next t ∧ t.isSet (LNK_CTRL_PARK n) = false ∧ t.PlanHolds n ∧ s.LinkFrame t n ctrl) ∧
      (s.isSet (LNK_CTRL_PARK n) = false → ∃ t, exec (.lpm p n true) s = .next t ∧ t.isSet (LNK_CTRL_LPM n) = true ∧ t.lstate n = lParked ∧ t.get (LNK_STAT_REASON n) = 11 ∧
        ((s.get (LNK_NBR_FLAGS n)).testBit 2 = true → t.get (LNK_STAT_LP n) = 1) ∧ s.LinkFrame t n ctrl)) ∧
    (s.isSet (LNK_CTRL_EN n) = true → s.isSet (LNK_CTRL_LPM n) = true → s.lstate n = lParked →
      ∃ t, exec (.lpm p n false) s = .next t ∧ t.isSet (LNK_CTRL_LPM n) = false ∧ s.Trains t n ctrl) ∧
    (∀ v : BitVec 64, s.Evaluable n → ∃ t, exec (.lnkPlanWrite p n v) s = .next t ∧ t.get (LNK_PLAN_STATE n) = getBits v.toNat 62 2 ∧
      t.get (LNK_PLAN_EXPLINK n) = (if getBits v.toNat 51 5 < 24 then getBits v.toNat 51 5 else s.get (LNK_PLAN_EXPLINK n)) ∧
      t.get (LNK_PLAN_EXPLPORT n) = getBits v.toNat 48 3 ∧ t.get (LNK_PLAN_EXPCOORD n) = getBits v.toNat 24 24 ∧ t.PlanHolds n ∧ s.LinkFrame t n (fun a => a = aLNK_PLAN n)) ∧
    (∀ (v : BitVec 32) (errs : Nat),
      (s.lstate n = lDown → ∃ t, exec (.lnkTest p n v errs) s = .next t ∧ t.get (LNK_TEST_PATTERN n) = v.toNat % 4 ∧ t.isSet (LNK_TEST_CHK n) = v.getLsbD 2 ∧
        t.get (LNK_TESTERR_CNT n) = (if v.getLsbD 2 = true ∧ v.toNat % 4 ≠ 0 ∧ v.getLsbD 3 = false then (s.get (LNK_TESTERR_CNT n) + errs) % 2 ^ 64 else s.get (LNK_TESTERR_CNT n)) ∧
        t.isSet (LNK_TEST_LOOP n) = v.getLsbD 3 ∧ t.out = .test n (v.toNat % 4) (v.getLsbD 3) :: s.out ∧ s.RegsBut (fun a => a = aLNK_TEST n ∨ a = aLNK_TESTERR n) t ∧ s.KeepsStores t) ∧
      (s.lstate n ≠ lDown → ∃ t, exec (.lnkTest p n v errs) s = .next t ∧ s.Logs 0x600C (srcLink n) 0 t ∧ s.RegsBut eventReg t ∧ s.KeepsStores t))

/-- Link states and timers (R250, R256, R261, R264, R271, R273, R274, R306).
Choices of the model used here: log entry 15. -/
def Obligations.LinkTimers : Prop :=
  ∀ (n : LinkId) (s : State), s.Quiet → (s.link n).queue = [] → (s.link n).frames = [] →
    let none_ (_ : Nat) : Prop := False
    let recent := ((s.link n).failTimes.filter fun u => decide (s.since u < 240000000000)).length
    let fails (t : State) (cause : Nat) : Prop := t.lstate n = lFailed ∧ t.get (LNK_STAT_FCAUSE n) = (if 3 ≤ recent then 4 else cause) ∧
      t.get (LNK_STAT_FLAPS n) = min 7 (recent + 1) ∧ t.get (LNK_STAT_LOCK n) = 0 ∧ (t.link n).copies = []
    ((s.link n).copies = [] →
      (s.lstate n = lTraining → s.isEth n = false → (s.link n).shaken = false → ∃ t, exec (.linkTrained n) s = .next t ∧ t.lstate n = lHello ∧
        t.get (LNK_STAT_LOCK n) = 1 ∧ s.LinkFrame t n none_) ∧
      (s.lstate n = lTraining → s.isEth n = true → ∃ t, exec (.linkTrained n) s = .next t ∧ t.PlanHolds n ∧ t.get (LNK_STAT_LOCK n) = 1 ∧ s.LinkFrame t n none_) ∧
      (s.lstate n = lTraining → s.isEth n = false → ∃ t, exec (.trainingTimeout n) s = .next t ∧ t.lstate n = lAbsent ∧ t.get (LNK_STAT_LOCK n) = 0 ∧ s.LinkFrame t n none_) ∧
      (s.lstate n = lHello → (s.link n).shaken = false → ∃ t, exec (.helloTimeout n) s = .next t ∧ t.lstate n = lAbsent ∧ t.get (LNK_STAT_LOCK n) = 0 ∧
        s.LinkFrame t n none_) ∧
      (s.lstate n = lAbsent → ∃ t, exec (.absentRetry n) s = .next t ∧ s.Trains t n none_) ∧
      (s.lstate n = lParked ∨ s.lstate n = lHello → ∃ t, exec (.lockLost n) s = .next t ∧ s.Trains t n none_) ∧
      (s.lstate n = lActive → ∃ t, exec (.lockLost n) s = .next t ∧ fails t 1 ∧ s.LinkFrame t n none_) ∧
      (s.lstate n = lFailed → s.isSet (LNK_CTRL_AUTORETRAIN n) = true → s.get (LNK_STAT_FCAUSE n) ≠ 4 → ∃ t, exec (.failedHoldExpiry n) s = .next t ∧ s.Trains t n none_)) ∧
    (s.lstate n ≠ lTraining → exec (.linkTrained n) s = .next s ∧ exec (.trainingTimeout n) s = .next s) ∧
    (s.isEth n = true → exec (.trainingTimeout n) s = .next s) ∧
    (s.lstate n ≠ lHello ∨ (s.link n).shaken = true → exec (.helloTimeout n) s = .next s) ∧ (s.lstate n ≠ lAbsent → exec (.absentRetry n) s = .next s) ∧
    (s.lstate n ≠ lFailed ∨ s.isSet (LNK_CTRL_AUTORETRAIN n) = false ∨ s.get (LNK_STAT_FCAUSE n) = 4 → exec (.failedHoldExpiry n) s = .next s) ∧
    (s.lanesUp n = true → s.isEth n = false → (s.link n).copies ≠ [] →
      ((s.link n).sameReplays < s.get (LNK_RETRY_MAX n) → ∃ t, exec (.replayTimeout n) s = .next t ∧
        t.get (LNK_REPLAY_CNT n) = (s.get (LNK_REPLAY_CNT n) + 1) % 2 ^ 64 ∧ (t.link n).sameReplays = (s.link n).sameReplays + 1 ∧
        t.out = ((s.link n).copies.map fun c => Out.cell n (s.enveloped n (cLseq c) c)).reverse ++ s.out ∧ (t.link n).copies = (s.link n).copies ∧
        s.Logs 0x6007 (srcLink n) 0 t ∧ s.RegsBut (fun a => a = aLNK_REPLAY n ∨ eventReg a) t ∧ s.KeepsStores t) ∧
      (s.get (LNK_RETRY_MAX n) ≤ (s.link n).sameReplays → ∃ t, exec (.replayTimeout n) s = .next t ∧ fails t 2 ∧ s.KeepsStores t))

/-- Sending and receiving link-local cells; only an ACTIVE link takes cells from its queue, any other slot is an IDLE (R250, R256, R257, R258, R260 to R263, R270, R271, R276, R286).
Choices of the model used here: log entries 6, 14 and 15. -/
def Obligations.LinkCells : Prop :=
  ∀ (n : LinkId) (s : State), s.Quiet → s.lanesUp n = true → s.isEth n = false →
    let l := s.link n
    let localCell (ctype pay : Nat) : Out := .cell n (s.enveloped n (l.txSeq + 1) (mkCell ctype 0xFFFF s.devId 0 0 pay))
    (∃ t, exec (.helloSend n) s = .next t ∧ t.out = localCell ctHello (s.helloPayload n) :: s.out ∧ t.link n = { l with hseq := (l.hseq + 1) % 65536 } ∧ t.regs = s.regs ∧
      s.KeepsStores t) ∧
    (l.queue = [] ∨ s.lstate n ≠ lActive ∨ 4095 ≤ l.copies.length → ∃ t, exec (.cellSend n) s = .next t ∧
      t.out = localCell ctIdle (idleBits 512 l.lfsr).1 :: s.out ∧
      t.link n = { l with lfsr := (idleBits 512 l.lfsr).2, ctlGap := min 15 (l.ctlGap + 1) } ∧ t.regs = s.regs ∧ s.KeepsStores t) ∧
    (∀ c : CellBits, s.lstate n = lActive → l.queue = [{ cell := c }] → cVc c < 12 → l.txOn.testBit (cVc c) = true → l.copies.length < 4095 →
      let e := s.enveloped n ((l.txSeq + 1) % 4096) (if s.get (LNK_STAT_NPV n) = 1 then cellSet c 127 1 0 else c)
      ∃ t, exec (.cellSend n) s = .next t ∧ t.out = .cell n e :: s.out ∧ (t.link n).queue = [] ∧ (t.link n).copies = l.copies ++ [e] ∧
        (t.link n).txSeq = (l.txSeq + 1) % 4096 ∧ t.get (LNK_TXCELLS_CNT n) = (s.get (LNK_TXCELLS_CNT n) + 1) % 2 ^ 64 ∧
        s.RegsBut (fun a => a = aLNK_TXCELLS n) t ∧ s.KeepsStores t) ∧
    (∀ (f : Fec) (c : BitVec 640), s.Takes n c → cType c = ctIdle → f.ucw = 0 → ∃ t, exec (.idle n f c) s = .next t ∧
      t.get (LNK_FECCW_CNT n) = (s.get (LNK_FECCW_CNT n) + f.cw) % 2 ^ 64 ∧ t.get (LNK_FECSYM_CNT n) = (s.get (LNK_FECSYM_CNT n) + f.sym) % 2 ^ 64 ∧
      (t.link n).txOn = cOnoff c ∧ t.lstate n = s.lstate n ∧
      ((cAckseq c + 4096 - l.ackd) % 4096 ≤ (l.txSeq + 4096 - l.ackd) % 4096 → (t.link n).copies = l.copies.drop ((cAckseq c + 4096 - l.ackd) % 4096)) ∧
      s.RegsBut (fun a => a = aLNK_FECCW n ∨ a = aLNK_FECSYM n ∨ a = aLNK_FECUCW n ∨ eventReg a) t ∧ s.KeepsStores t) ∧
    (∀ c : BitVec 640, s.Takes n c → cType c = ctHello → s.Calm n → ∃ t, exec (.hello n c) s = .next t ∧
      t.get (LNK_NBR_DEVID n) = payNat c 8 2 ∧ t.get (LNK_NBR_COORD n) = payNat c 12 3 ∧ t.get (LNK_NBR_LINK n) = payNat c 10 1 % 32 ∧
      t.get (LNK_NBR_LPORT n) = payNat c 11 1 % 16 ∧ t.get (LNK_NBR_NPV n) = payNat c 22 1 % 16 ∧ t.get (LNK_NBR_FLAGS n) = payNat c 15 1 % 16 ∧
      t.get (LNK_NBRSER_SERIAL n) = payNat c 0 8 ∧ t.get (LNK_NBRVER_RGEN n) = payNat c 24 2 ∧ t.get (LNK_NBRVER_PVSET n) = payNat c 20 2 ∧
      t.get (LNK_NBRVER_FWVER n) = payNat c 16 4 ∧ (t.link n).heard = true ∧
      (t.link n).shaken = (l.shaken || (payNat c 28 8 == (s.rd aGLB_SERIAL).toNat && payNat c 36 1 == n.val)) ∧
      (if (t.link n).shaken = true ∨ s.lstate n ≠ lHello then t.PlanHolds n else t.lstate n = lHello) ∧
      s.LinkFrame t n (fun a => a = aLNK_NBR n ∨ a = aLNK_NBRSER n ∨ a = aLNK_NBRVER n)) ∧
    (∀ c : BitVec 640, s.Takes n c → cType c = ctLink → payNat c 0 2 < 4096 → cAckseq c = l.ackd → l.sameReplays < s.get (LNK_RETRY_MAX n) →
      let d := (payNat c 0 2 + 8191 - l.ackd) % 4096
      d ≤ (l.txSeq + 4096 - l.ackd) % 4096 → d < l.copies.length → ∃ t, exec (.link n c) s = .next t ∧ (t.link n).copies = l.copies.drop d ∧
        t.out = ((l.copies.drop d).map fun c => Out.cell n (s.enveloped n (cLseq c) c)).reverse ++ s.out ∧
        t.get (LNK_REPLAY_CNT n) = (s.get (LNK_REPLAY_CNT n) + 1) % 2 ^ 64 ∧ s.Logs 0x6007 (srcLink n) 0 t ∧ s.KeepsStores t) ∧
    (∀ (c : BitVec 640) (u : Bool), (u = true ∨ crcOk c = false) → ∃ t, exec (.discardedCell n c u) s = .next t ∧
      t.get (LNK_CRCERR_CNT n) = (s.get (LNK_CRCERR_CNT n) + 1) % 2 ^ 64 ∧ s.RegsBut (fun a => a = aLNK_CRCERR n) t ∧ s.KeepsStores t ∧
      (l.lastNak = none → t.out = localCell ctLink l.expect :: s.out ∧ t.link n = { l with lastNak := some (l.expect, s.now) }) ∧
      (∀ u, l.lastNak = some (l.expect, u) → s.since u < 2000 → t.out = s.out ∧ t.link n = l)) ∧
    (∀ c : BitVec 640, crcOk c = true → 11 ≤ cType c → cLseq c = l.expect → ∃ t, exec (.discardedCell n c false) s = .next t ∧
      t.get (LNK_DROPCNT_CNT n) = (s.get (LNK_DROPCNT_CNT n) + 1) % 2 ^ 64 ∧ t.get (LNK_RXCELLS_CNT n) = (s.get (LNK_RXCELLS_CNT n) + 1) % 2 ^ 64 ∧
      (t.link n).expect = (l.expect + 1) % 4096 ∧ s.Logs 0x600C (srcLink n) 0 t ∧ s.KeepsStores t)

/-- PRT_PLANCTL, PRT_PROTO, GLB_COORD and the routing tables (R272, R276 to R279, R283, R284, R287).
Choices of the model used here: log entries 15 and 53. -/
def Obligations.PlanAndTables : Prop :=
  ∀ (p : PortId) (s : State), s.mayWrite p true = true → (∀ n < 24, s.Calm n) →
    let pass (t : State) : Prop := t.get PRT_PLANSTAT_RESULT = 1 ∧ t.get PRT_PLANSTAT_LINK = 0 ∧ t.get PRT_PLANSTAT_REASON = 0
    let fails (t : State) (n : Nat) : Prop := t.get PRT_PLANSTAT_RESULT = 2 ∧ t.get PRT_PLANSTAT_LINK = n ∧ t.get PRT_PLANSTAT_REASON = s.linkCheck n
    let only (t : State) : Prop := s.RegsBut (fun a => a = aPRT_PLANCTL ∨ a = aPRT_PLANSTAT ∨ eventReg a) t ∧ t.get PRT_PLANCTL_PLANV = s.get PRT_PLANCTL_PLANV ∧ s.KeepsStores t
    ((∀ n < 24, s.linkCheck n = 0) → (∃ t, exec (.check p) s = .next t ∧ pass t ∧ t.armed = s.armed ∧ only t) ∧
      (∃ t, exec (.arm p) s = .next t ∧ pass t ∧ t.armed = true ∧ only t)) ∧
    (∀ n < 24, s.linkCheck n ≠ 0 → (∀ m < n, s.linkCheck m = 0) → (∃ t, exec (.check p) s = .next t ∧ fails t n ∧ t.armed = s.armed ∧ only t) ∧
      (∃ t, exec (.arm p) s = .next t ∧ fails t n ∧ t.armed = s.armed ∧ s.Logs 0x600D (srcPort 15) 0 t ∧ only t)) ∧
    (∃ t, exec (.disarm p) s = .next t ∧ t.armed = false ∧ t.get PRT_PLANSTAT_RESULT = s.get PRT_PLANSTAT_RESULT ∧ only t) ∧
    (∀ v : BitVec 32, ∃ t, exec (.prtProtoWrite p v) s = .next t ∧
      t.get PRT_PROTO_PVSET = (if 1 ≤ v.toNat % 65536 ∧ v.toNat % 65536 ≤ 3 then v.toNat % 65536 else s.get PRT_PROTO_PVSET) ∧
      (∀ n < 24, s.Evaluable n → t.PlanHolds n) ∧ (∀ n < 24, ¬ s.Evaluable n → t.lstate n = s.lstate n) ∧ s.KeepsStores t) ∧
    (∀ v : BitVec 32,
      (s.armed = true → ∃ t, exec (.glbCoordWrite p v) s = .next t ∧ s.Logs 0x7007 srcRouter 0 t ∧ s.RegsBut eventReg t ∧ s.KeepsStores t) ∧
      (s.armed = false → ∃ t, exec (.glbCoordWrite p v) s = .next t ∧ t.get GLB_COORD_COORD = v.toNat % 2 ^ 24 ∧
        t.isSet GLB_COORD_COORDV = (v.getLsbD 31 && (List.range 4).all fun a => decide (getBits v.toNat (6 * a) 6 ≤ s.get (RTE_AXIS_SIZE a))) ∧
        (∀ n < 24, s.Evaluable n → t.PlanHolds n) ∧ s.KeepsStores t)) ∧
    (∀ (dark : Bool) (d : Fin 65536) (v : BitVec 32),
      let e (x : State) : Nat := x.entryOf dark.toNat d
      (s.shade dark.toNat = shRetired → ∃ t, exec (.routingTableWrite p dark d v) s = .next t ∧ entValid (e t) = v.getLsbD 31 ∧ entPort (e t) = getBits v.toNat 24 3 ∧
        entMask (e t) = getBits v.toNat 16 8 ∧ entWin (e t) = v.getLsbD 15 ∧ entGw (e t) = getBits v.toNat 0 8 ∧
        s.RegsBut (fun a => a = if dark then aRTE_DTAB d else aRTE_LTAB d) t ∧ t = { s with regs := t.regs }) ∧
      (s.shade dark.toNat ≠ shRetired → ∃ t, exec (.routingTableWrite p dark d v) s = .next t ∧ s.Logs 0x7007 srcRouter 0 t ∧ s.RegsBut eventReg t ∧ s.KeepsStores t))

/-- Delivery of SEGF, SEG, SIGNAL, NOTICE, GRANT, REFUSE and FLUSH (R129, R142, R288, R293 to R297, R304, R376, R379, R383, R385).
Choices of the model used here: log entries 12 and 15. -/
def Obligations.CellsForThisDevice : Prop :=
  ∀ (n : LinkId) (c : BitVec 640) (s : State), s.Takes n c → 4 ≤ cType c → cDst c = s.devId → vcClass (cVc c) ≠ kCol → s.fab.adapt = [] → s.fab.inbox = [] →
    let src := cSrc c
    let c1 := if s.get (LNK_STAT_NPV n) = 1 then cellSet c 127 1 0 else c
    let took (t : State) : Prop := t.get (LNK_RXCELLS_CNT n) = (s.get (LNK_RXCELLS_CNT n) + 1) % 2 ^ 64 ∧ (t.link n).expect = ((s.link n).expect + 1) % 4096
    let fresh : Prop := s.isDup src kReq (cMsg c) = false ∧ s.dedupFull kReq = false
    let kept (t : State) : Prop := (src, kReq, cMsg c) ∈ t.fab.dedup
    (s.fab.sends = [] →
      (∀ f : Fec, cType c = ctSegf → f.ucw = 0 → 1 ≤ payNat c 0 1 → payNat c 0 1 ≤ 5 → ∃ t, exec (.segf n f c) s = .next t ∧ took t ∧ s.KeepsStores t ∧
        t.fab.reasm.find? (·.is src (vcClass (cVc c)) (cMsg c)) = some { src := src, cls := vcClass (cVc c), msg := cMsg c, cells := [c1], ce := cCe c1 == 1, via := n }) ∧
      (∀ (f : Fec) (r : Reasm), cType c = ctSeg → f.ucw = 0 → s.fab.reasm = [r] → r.is src (vcClass (cVc c)) (cMsg c) = true → r.cells ≠ [] → 1 ≤ payNat r.desc 0 1 →
        payNat r.desc 0 1 ≤ 5 → ∃ t, exec (.seg n f c) s = .next t ∧ took t ∧ s.KeepsStores t ∧
          ∃ r', t.fab.reasm = [r'] ∧ r'.cells = if r.cells.length = cIdx c then r.cells ++ [c1] else r.cells) ∧
      (cType c = ctSignal →
        let g := payNat c 2 1
        let f := payNat c 4 2
        (fresh → payNat c 0 2 = s.get GLB_ROLEGEN_RGEN → g < 25 → f < 512 → ∃ t, exec (.signal n c) s = .next t ∧ took t ∧ kept t ∧
          t.flag g f = (if f = 0 then 0 else (s.flag g f + payNat c 3 1) % 65536) ∧ s.KeepsStores t) ∧
        (s.isDup src kReq (cMsg c) = true ∨ payNat c 0 2 ≠ s.get GLB_ROLEGEN_RGEN → ∃ t, exec (.signal n c) s = .next t ∧ took t ∧ (∀ g < 25, ∀ f < 512, t.flag g f = s.flag g f) ∧
          s.KeepsStores t)) ∧
      (cType c = ctNotice → payNat c 16 1 = 1 → src ≠ s.devId → fresh →
        let m := payNat c 17 1
        let slot := s.get (MBX_PROD_PROD m) % 16 * 4
        m < 48 →
        (payNat c 14 2 = s.mailRole m → s.mailHeld m < 16 → ∃ t, exec (.notice n c) s = .next t ∧ took t ∧ kept t ∧
          (t.rd (aMBX_ENT m slot)).toNat = payNat c 0 8 ∧ (t.rd (aMBX_ENT m (slot + 1))).toNat = payNat c 8 8 ∧
          (t.rd (aMBX_ENT m (slot + 2))).toNat = src + payNat c 18 1 * 2 ^ 16 + payNat c 19 1 * 2 ^ 24 ∧ t.rd (aMBX_ENT m (slot + 3)) = s.rd aFTM_NOW ∧
          t.get (MBX_PROD_PROD m) = (s.get (MBX_PROD_PROD m) + 1) % 65536 ∧ s.KeepsStores t) ∧
        (payNat c 14 2 = s.mailRole m → 16 ≤ s.mailHeld m → ∃ t, exec (.notice n c) s = .next t ∧ took t ∧ t.rd (aMBX_PROD m) = s.rd (aMBX_PROD m) ∧
          (∃ x ∈ t.fab.sends, x.dst = src ∧ x.cls = kReq ∧ x.cells = [noticeCell src s.devId (payNat c 0 16) 2 m (payNat c 18 1) (payNat c 19 1)]) ∧ s.KeepsStores t) ∧
        (payNat c 14 2 ≠ s.mailRole m → ∃ t, exec (.notice n c) s = .next t ∧ took t ∧ t.rd (aMBX_PROD m) = s.rd (aMBX_PROD m) ∧ s.KeepsStores t)) ∧
      (cType c = ctNotice → payNat c 16 1 = 3 → fresh →
        let kind := payNat c 18 1
        (kind < 2 → ∃ t, exec (.noticeAborted n c) s = .next t ∧ took t ∧ kept t ∧
          t.get (HST_POSTREC_ABORTCNT kind) = min (s.get (HST_POSTREC_ABORTCNT kind) + 1) 65535 ∧ s.KeepsStores t) ∧
        (∀ q, 2 ≤ kind → unitQueue kind (payNat c 19 1) = some q → ∃ t, exec (.noticeAborted n c) s = .next t ∧ took t ∧ kept t ∧
          t.get (QUE_POSTREC_ABORTCNT q) = min (s.get (QUE_POSTREC_ABORTCNT q) + 1) 65535 ∧ s.KeepsStores t)) ∧
      (cType c = ctFlush → ∃ t, exec (.flush n c) s = .next t ∧ took t ∧ s.KeepsStores t ∧
        t.get RTE_FLSTAT_REPORTED = (if (payNat c 3 1).testBit 0 then (s.get RTE_FLSTAT_REPORTED + 1) % 65536 else s.get RTE_FLSTAT_REPORTED) ∧
        t.get RTE_FLINJ_SUM = (s.get RTE_FLINJ_SUM + payNat c 8 8) % 2 ^ 64 ∧ t.get RTE_FLEJ_SUM = (s.get RTE_FLEJ_SUM + payNat c 16 8) % 2 ^ 64 ∧
        t.get RTE_FLDROP_SUM = (s.get RTE_FLDROP_SUM + payNat c 24 8) % 2 ^ 64 ∧
        (s.isSet RTE_FLSTAT_DONE = false → s.fab.flushGuard = false →
          let whole : Prop := t.get RTE_FLSTAT_REPORTED = s.get RTE_FLCFG_NDEV ∧ t.get RTE_FLINJ_SUM ≤ t.get RTE_FLEJ_SUM + t.get RTE_FLDROP_SUM
          (whole → t.get RTE_FLDROP_SUM = 0 → t.isSet RTE_FLSTAT_DONE = true) ∧ (whole → t.get RTE_FLDROP_SUM ≠ 0 → t.fab.flushGuard = true ∧ t.isSet RTE_FLSTAT_DONE = false) ∧
          (¬ whole → t.isSet RTE_FLSTAT_DONE = false)))) ∧
    (∀ m : Send, s.fab.sends = [m] → m.dst = src →
      (cType c = ctGrant → m.cls = payNat c 2 1 → m.msg = some (payNat c 0 2 % 1024) → (payNat c 3 1).testBit 0 = true →
        ∃ t, exec (.grant n c) s = .next t ∧ took t ∧ t.fab.sends = [] ∧ (∃ u, (m.dst * 8 + m.cls, payNat c 0 2 % 1024, u) ∈ t.fab.msgUsed)) ∧
      (cType c = ctGrant → m.cls = payNat c 2 1 → m.msg = some (payNat c 0 2 % 1024) → (payNat c 3 1).testBit 0 = false → (∀ x ∈ m.cells, cDst x ≠ s.devId) →
        ∃ t, exec (.grant n c) s = .next t ∧ took t ∧ (∃ x ∈ t.fab.sends, x.uid = m.uid ∧ x.cells = m.cells) ∧ s.KeepsStores t) ∧
      (∀ (q : Nat) (e : Issued), q < 125 → m.origin = .post q → ((s.que q).issued.find? fun e => opcode e.word == 5 && decide (e.status = .busy)) = some e → s.qstate q = qWaiting →
        let try_ := cmdGet e.word 176 1
        let ends (t : State) (k : Nat) : Prop := took t ∧ t.fab.sends = [] ∧ t.get (QUE_POSTREC_LAST q) = k ∧ s.KeepsStores t ∧
          t.qstate q = if try_ = 0 ∧ k ≠ 0 then qFrozen else qRunning
        (cType c = ctGrant → m.cls = payNat c 2 1 → m.msg = some (payNat c 0 2 % 1024) → (payNat c 3 1).testBit 0 = true → ∃ t, exec (.grant n c) s = .next t ∧ ends t 0) ∧
        (cType c = ctRefuse → m.cls = payNat c 2 1 → m.msg = some (payNat c 0 2 % 1024) → ∃ t, exec (.refuse n c) s = .next t ∧ ends t (if payNat c 3 1 = 1 then 2 else 3)) ∧
        (cType c = ctNotice → payNat c 16 1 = 2 → fresh → queueKind q = payNat c 18 1 → queueUnit q = payNat c 19 1 → ∃ t, exec (.noticeFull n c) s = .next t ∧ ends t 1)))

/-- Inbound segments (R199, R209, R293 to R297).
Choices of the model used here: log entries 13 and 17. -/
def Obligations.SegmentsAppliedOnce : Prop :=
  (∀ (src : BitVec 16) (cls : Nat) (msg : BitVec 10) (r : Reasm) (s : State), s.Quiet → s.fab.reasm.find? (·.is src.toNat cls msg.toNat) = some r → r.whole = true →
    s.badBridges = 0 → src.toNat ≠ s.devId → s.Plain r.addr r.len →
    let fresh : Prop := s.isDup src.toNat cls msg.toNat = false ∧ s.dedupFull cls = false
    let role : Prop := (payNat r.desc 1 1).testBit 0 = false ∨ payNat r.desc 2 2 = s.get GLB_ROLEGEN_RGEN
    let kept (t : State) : Prop := (src.toNat, cls, msg.toNat) ∈ t.fab.dedup
    let gone (t : State) : Prop := t.fab.reasm.find? (·.is src.toNat cls msg.toNat) = none
    let holds (t : State) (bs : List (Byte × Bool)) : Prop := (∀ i < r.len, some (t.byte (r.addr + i)) = bs[i]?.map (·.1)) ∧
      (∀ a, a < r.addr ∨ r.addr + r.len ≤ a → t.byte a = s.byte a)
    let same (t : State) : Prop := gone t ∧ s.KeepsStores t
    let op := payNat r.desc 0 1
    (op = 1 → fresh → role → s.exposed src.toNat 1 r.addr r.len = true → ∃ t, exec (.segWrite src cls msg) s = .next t ∧ holds t r.data ∧ kept t ∧ gone t) ∧
    (op = 4 → fresh → role → r.addr % 4 = 0 → r.len % 4 = 0 → s.exposed src.toNat 4 r.addr r.len = true →
      let flags := payNat r.desc 1 1
      let cvt : Cvt := { ori := 0, fmt := fFP32, scm := false, ovfNf := false, sat := flags.testBit 3, rnd := getBits flags 1 2 }
      ∃ t, exec (.segAdd src cls msg) s = .next t ∧ kept t ∧ gone t ∧
        holds t (addRow cvt (fun i => (Config.freeValue 16 (s.freeCtr + i)).toNat) 0 r.addr r.data s {}).1) ∧
    (op = 2 → fresh → role → s.exposed src.toNat 2 r.addr r.len = true → ∃ t, exec (.segRead src cls msg) s = .next t ∧ kept t ∧ same t ∧
      ∃ m ∈ t.fab.sends, m.dst = src.toNat ∧ m.cls = kRsp ∧ m.origin = .reply ∧ m.cells = segment src.toNat s.devId 3 0 0 r.len 0 r.msg (s.bytes r.addr r.len) fun _ => false) ∧
    (∀ i, (i = .segWrite src cls msg ∧ op = 1) ∨ (i = .segAdd src cls msg ∧ op = 4 ∧ r.addr % 4 = 0 ∧ r.len % 4 = 0) ∨ (i = .segRead src cls msg ∧ op = 2) → fresh →
      (¬ role → ∃ t, exec i s = .next t ∧ same t) ∧
      (role → s.exposed src.toNat op r.addr r.len = false → ∃ t, exec i s = .next t ∧ same t ∧ t.get RTE_EXPREF_CNT = (s.get RTE_EXPREF_CNT + 1) % 2 ^ 64)) ∧
    (∀ i, (i = .segWrite src cls msg ∧ op = 1) ∨ (i = .segAdd src cls msg ∧ op = 4) ∨ (i = .segMirror src cls msg ∧ op = 5) → s.isDup src.toNat cls msg.toNat = true →
      ∃ t, exec i s = .next t ∧ same t) ∧
    (op = 5 → fresh →
      (r.src = s.get LPC_MIRPART_INSRC → payNat r.desc 2 2 = s.get GLB_ROLEGEN_RGEN → mirrorBase ≤ r.addr → r.addr + r.len ≤ tier2End →
        ∃ t, exec (.segMirror src cls msg) s = .next t ∧ holds t r.data ∧ kept t ∧ gone t) ∧
      (r.src ≠ s.get LPC_MIRPART_INSRC ∨ payNat r.desc 2 2 ≠ s.get GLB_ROLEGEN_RGEN ∨ r.addr < mirrorBase ∨ tier2End < r.addr + r.len →
        ∃ t, exec (.segMirror src cls msg) s = .next t ∧ t.isSet LPC_MIRSTAT_REFUSED = true ∧ same t))) ∧
  (∀ (src : BitVec 16) (cls : Nat) (msg : BitVec 10) (r : Reasm) (m : Send) (q uid no : Nat) (e : Issued) (s : State), s.fab.adapt = [] → s.fab.inbox = [] → s.fab.sends = [m] →
    s.fab.reasm.find? (·.is src.toNat cls msg.toNat) = some r → r.whole = true → payNat r.desc 0 1 = 3 → src.toNat ≠ s.devId →
    s.isDup r.src r.cls r.msg = false → s.dedupFull r.cls = false → m.dst = r.src → m.cls = kReq → m.msg = some (payNat r.desc 16 2 % 1024) → m.origin = .remote q uid no →
    s.findIssued q uid = some e → no ≠ 0 → (∀ x ∈ (s.que q).issued, x.asking = false) → (∃ p ∈ (FlmJob.of q e).pieces s, p.1 ≠ no ∧ ∀ x ∈ e.parts, x.1 ≠ p.1) →
    ∃ t, exec (.segRdata src cls msg) s = .next t ∧ t.fab.sends = [] ∧ (∃ e', t.findIssued q uid = some e' ∧ (no, r.data) ∈ e'.parts) ∧ s.KeepsStores t) ∧
  (∀ (src : BitVec 16) (cls : Nat) (msg : BitVec 10) (s : State), ∃ t, exec (.duplicateKeyExpiry src cls msg) s = .next t ∧ t = { s with fab := t.fab } ∧
    t.fab = { s.fab with dedup := t.fab.dedup } ∧ ∀ k, k ∈ t.fab.dedup ↔ k ∈ s.fab.dedup ∧ k ≠ (src.toNat, cls, msg.toNat))

/-- Adaptive fallback, resend and give-up (R129, R142, R291, R295).
Choices of the model used here: log entry 14. -/
def Obligations.TransportTimers : Prop :=
  (∀ s : State, s.Quiet → exec .adaptiveFallback s = .next s) ∧
  (∀ (s : State) (x : QCell) (p v n : Nat), s.fab.adapt = [x] → s.fab.inbox = [] → s.fab.sends = [] →
    s.escapeStep (s.entryOf (cShade x.cell) (cDst x.cell)) (vcClass (cVc x.cell)) none = .inr (p, v) → s.memberLink p x.cell = some n → s.isEth n = false →
    (x.inp = none ∨ s.vcQueued p v ≤ s.get RTE_CFG_CETHR * 1024) →
    ∃ t, exec .adaptiveFallback s = .next t ∧ (t.link n).queue = (s.link n).queue ++
        [{ x with cell := cellSet x.cell 68 4 v, gw := entGw (s.entryOf (cShade x.cell) (cDst x.cell)) }] ∧ t.fab.adapt = [] ∧ t.regs = s.regs ∧ s.KeepsStores t) ∧
  (∀ (dst : BitVec 16) (cls : Nat) (msg : BitVec 10) (m : Send) (s : State), s.fab.adapt = [] → s.fab.inbox = [] → s.fab.sends = [m] → m.dst = dst.toNat → m.cls = cls →
    m.msg = some msg.toNat → (∀ x ∈ m.cells, cDst x ≠ s.devId) →
    (m.tries < s.get RTE_XPORT_MAX → ∃ t, exec (.transportResend dst cls msg) s = .next t ∧ t.get RTE_XRETRY_CNT = (s.get RTE_XRETRY_CNT + 1) % 2 ^ 64 ∧
      (∃ m', t.fab.sends = [m'] ∧ m'.uid = m.uid ∧ m'.msg = m.msg ∧ m'.cells = m.cells ∧ m'.tries = m.tries + 1 ∧ m'.shade = s.stamp) ∧ s.KeepsStores t) ∧
    (s.get RTE_XPORT_MAX ≤ m.tries →
      (m.origin = .none ∨ m.origin = .reply → ∃ t, exec (.transportGiveUp dst cls msg) s = .next t ∧ t.get RTE_XGIVEUP_CNT = (s.get RTE_XGIVEUP_CNT + 1) % 2 ^ 64 ∧
        t.fab.sends = [] ∧ s.Logs 0x7003 srcRouter (dst.toNat * 2 ^ 16 + cls) t ∧ s.KeepsStores t) ∧
      (∀ q k cmd, q < 125 → k < 8 → m.origin = .signal q k cmd → ∃ t, exec (.transportGiveUp dst cls msg) s = .next t ∧ t.get RTE_XGIVEUP_CNT = (s.get RTE_XGIVEUP_CNT + 1) % 2 ^ 64 ∧
        t.fab.sends = [] ∧ t.isSet (TIL_FLAGLINK_UNREACH (homeSet q) k) = true ∧ s.KeepsStores t ∧
        if s.qstate q = qWaiting ∧ s.get (QUE_STAT_WHY q) ≠ 3 then t.qstate q = qFrozen ∧
          (s.isSet (QUE_FREEZEREC_VALID q) = false → t.get (QUE_FREEZEREC_CODE q) = 0x3006 ∧ t.isSet (QUE_FREEZEREC_RESUME q) = true ∧ t.get (QUE_FREEZEREC_CMD q) = cmd % 8192)
        else (t.que q).pendingFreeze = some (0x3006, cmd)) ∧
      (∀ q e, q < 125 → m.origin = .post q → ((s.que q).issued.find? fun e => opcode e.word == 5 && decide (e.status = .busy)) = some e → s.qstate q = qWaiting →
        ∃ t, exec (.transportGiveUp dst cls msg) s = .next t ∧ t.fab.sends = [] ∧ t.get (QUE_POSTREC_LAST q) = 3 ∧
          t.qstate q = (if cmdGet e.word 176 1 = 0 then qFrozen else qRunning) ∧ s.KeepsStores t)))

/-- RTE_CTRL's shade and flush bits, FLUSH reports and the guard time (R302 to R305, R314). -/
def Obligations.ShadesAndFlush : Prop :=
  (∀ (p : PortId) (s : State), s.mayWrite p true = true → s.Quiet →
    let grey (i : Instr) : Prop := ∃ t, exec i s = .next t ∧ s.Logs 0x7007 srcRouter 0 t ∧ s.RegsBut eventReg t ∧ s.KeepsStores t
    (∀ sh < 2, s.shade sh = shRetired → (sh = 1 → s.shade 0 ≠ shRetired) → ∃ t, exec (.open_ p) s = .next t ∧ t.shade sh = shOpen ∧ t.shade (1 - sh) = s.shade (1 - sh) ∧
      t.get (RTE_SHINJ_CNT sh) = 0 ∧ t.get (RTE_SHEJ_CNT sh) = 0 ∧ t.get (RTE_SHDROP_CNT sh) = 0 ∧
      s.RegsBut (fun a => a = aRTE_STAT ∨ a = aRTE_SHINJ sh ∨ a = aRTE_SHEJ sh ∨ a = aRTE_SHDROP sh) t ∧ t = { s with regs := t.regs }) ∧
    (s.shade 0 ≠ shRetired → s.shade 1 ≠ shRetired → grey (.open_ p)) ∧
    (∀ dark : Bool, (s.stamp = dark.toNat → exec (.stamp p dark) s = .next s) ∧
      (s.stamp ≠ dark.toNat → s.shade dark.toNat = shOpen → ∃ t, exec (.stamp p dark) s = .next t ∧ t.shade dark.toNat = shLive ∧ t.stamp = dark.toNat ∧
        t.shade (1 - dark.toNat) = (if s.shade (1 - dark.toNat) = shLive then shDraining else s.shade (1 - dark.toNat)) ∧
        s.RegsBut (fun a => a = aRTE_STAT ∨ a = aRTE_CTRL) t ∧ t = { s with regs := t.regs }) ∧
      (s.stamp ≠ dark.toNat → s.shade dark.toNat ≠ shOpen → grey (.stamp p dark))) ∧
    (∀ sh < 2, s.shade sh = shDraining → s.shade (1 - sh) ≠ shDraining → ∃ t, exec (.retire p) s = .next t ∧ t.shade sh = shRetired ∧ t.shade (1 - sh) = s.shade (1 - sh) ∧
      s.RegsBut (fun a => a = aRTE_STAT) t ∧ t = { s with regs := t.regs }) ∧
    (s.shade 0 ≠ shDraining → s.shade 1 ≠ shDraining → grey (.retire p)) ∧
    (∃ t, exec (.flrep p false) s = .next t ∧ t.isSet RTE_CTRL_FLREP = false ∧ t.fab.flushSent = none ∧ s.RegsBut (fun a => a = aRTE_CTRL) t ∧ s.KeepsStores t) ∧
    (∃ t, exec (.flclr p) s = .next t ∧ t.isSet RTE_FLSTAT_DONE = false ∧ t.get RTE_FLSTAT_REPORTED = 0 ∧ t.get RTE_FLINJ_SUM = 0 ∧ t.get RTE_FLEJ_SUM = 0 ∧
      t.get RTE_FLDROP_SUM = 0 ∧ t.fab.flushGuard = false ∧ s.RegsBut (fun a => a = aRTE_FLSTAT ∨ a = aRTE_FLINJ ∨ a = aRTE_FLEJ ∨ a = aRTE_FLDROP) t ∧ s.KeepsStores t) ∧
    (∀ sh < 2, s.shade sh = shDraining → (sh = 1 → s.shade 0 ≠ shDraining) → s.fab.flushSent = none → ∃ t, exec (.flrep p true) s = .next t ∧ t.isSet RTE_CTRL_FLREP = true ∧
      t.fab.flushSent = some (sh, s.get (RTE_SHEJ_CNT sh), s.get (RTE_SHDROP_CNT sh)) ∧ s.KeepsStores t ∧
      (s.get RTE_FLCFG_COORD = s.devId → t.get RTE_FLSTAT_REPORTED = (s.get RTE_FLSTAT_REPORTED + 1) % 65536 ∧
        t.get RTE_FLINJ_SUM = (s.get RTE_FLINJ_SUM + s.get (RTE_SHINJ_CNT sh)) % 2 ^ 64 ∧ t.get RTE_FLEJ_SUM = (s.get RTE_FLEJ_SUM + s.get (RTE_SHEJ_CNT sh)) % 2 ^ 64 ∧
        t.get RTE_FLDROP_SUM = (s.get RTE_FLDROP_SUM + s.get (RTE_SHDROP_CNT sh)) % 2 ^ 64))) ∧
  (∀ s : State, s.Quiet →
    (∀ sh ej drop, sh < 2 → s.shade sh = shDraining → (sh = 1 → s.shade 0 ≠ shDraining) → s.isSet RTE_CTRL_FLREP = true → s.fab.flushSent = some (sh, ej, drop) →
      let ej' := s.get (RTE_SHEJ_CNT sh)
      let drop' := s.get (RTE_SHDROP_CNT sh)
      (ej' = ej → drop' = drop → exec .flushReportSend s = .next s) ∧
      (ej' ≠ ej ∨ drop' ≠ drop → ∃ t, exec .flushReportSend s = .next t ∧ t.fab.flushSent = some (sh, ej', drop') ∧ s.KeepsStores t ∧
        (s.get RTE_FLCFG_COORD = s.devId → t.get RTE_FLSTAT_REPORTED = s.get RTE_FLSTAT_REPORTED ∧ t.get RTE_FLINJ_SUM = s.get RTE_FLINJ_SUM ∧
          (ej ≤ ej' → t.get RTE_FLEJ_SUM = (s.get RTE_FLEJ_SUM + (ej' - ej)) % 2 ^ 64) ∧ (drop ≤ drop' → t.get RTE_FLDROP_SUM = (s.get RTE_FLDROP_SUM + (drop' - drop)) % 2 ^ 64)))) ∧
    (s.isSet RTE_CTRL_FLREP = false → exec .flushReportSend s = .next s)) ∧
  (∀ s : State,
    let whole : Prop := s.get RTE_FLSTAT_REPORTED = s.get RTE_FLCFG_NDEV ∧ s.get RTE_FLINJ_SUM ≤ s.get RTE_FLEJ_SUM + s.get RTE_FLDROP_SUM
    (s.fab.flushGuard = false → exec .flushGuardExpiry s = .next s) ∧
    (s.fab.flushGuard = true → ∃ t, exec .flushGuardExpiry s = .next t ∧ t.fab = { s.fab with flushGuard := false } ∧ s.KeepsStores t ∧
      (whole → t.isSet RTE_FLSTAT_DONE = true ∧ s.Logs 0x7001 srcRouter 0 t ∧ s.RegsBut (fun a => a = aRTE_FLSTAT ∨ eventReg a) t) ∧ (¬ whole → t.regs = s.regs)))

/-- Frames, priority flow control and LLDP (R306 to R310).
Choices of the model used here: log entries 15 and 16. -/
def Obligations.EthernetRows : Prop :=
  ∀ (n : LinkId) (s : State), s.Quiet → s.isEth n = true →
    let l := s.link n
    let off : Prop := s.isSet RTE_ETHCFG_PFC = false
    (∀ (cls : Nat) (gw : BitVec 8) (f : FrameAsm), off → s.lstate n = lActive → l.pfcStopped.testBit (s.classPcp cls) = false → l.frames = [f] → f.cls = cls → f.gw = gw.toNat →
      (∀ x ∈ f.cells, x.inp = none) →
      let most := if s.get RTE_ETHCFG_HOLD = 0 then 1 else s.get RTE_ETHCFG_CPD
      ∃ t b, exec (.ethFrameSend n cls gw) s = .next t ∧ t.out = .frame n b :: s.out ∧ t.regs = s.regs ∧ s.KeepsStores t ∧
        t.link n = fillFrames { l with frames := if f.cells.length ≤ most then [] else [{ f with cells := f.cells.drop most }] } ∧
        (s.isSet RTE_ETHCFG_TAG = false → b.length = 74 + 72 * (f.cells.take most).length ∧
          ∀ i x, (f.cells.take most)[i]? = some x → ∀ k < 72, b[70 + 72 * i + k]? = some (BitVec.ofNat 8 (cellGet x.cell (64 + 8 * k) 8)))) ∧
    (∀ (cls : Nat) (gw : BitVec 8), l.frames = [] → exec (.ethFrameSend n cls gw) s = .next s) ∧
    (∀ frame : List (BitVec 8), off → s.lanesUp n = true →
      let bs := frame.map (·.toNat)
      let good : Prop := 64 ≤ bs.length ∧ bs.length ≤ 9216 ∧ leNat (bs.drop (bs.length - 4)) = crc32 (bs.take (bs.length - 4))
      (¬ good → exec (.ethFrameReceive n frame) s = .next s) ∧
      (good → beAt bs 12 2 = 0x86DD → beAt bs 56 2 ≠ s.get RTE_ETHCFG_UDPPORT → ∃ t, exec (.ethFrameReceive n frame) s = .next t ∧
        t.get RTE_ETHDROP_CNT = (s.get RTE_ETHDROP_CNT + 1) % 2 ^ 64 ∧ s.Logs 0x7008 (srcLink n) 0 t ∧ s.RegsBut (fun a => a = aRTE_ETHDROP ∨ eventReg a) t ∧ s.KeepsStores t) ∧
      (good → bs.length = 146 → beAt bs 12 2 = 0x86DD → beAt bs 20 1 = 17 → beAt bs 56 2 = s.get RTE_ETHCFG_UDPPORT → 1 ≤ beAt bs 62 1 → beAt bs 62 1 ≤ 16 →
        (s.get PRT_PROTO_PVSET).testBit (beAt bs 62 1 - 1) = true → beAt bs 63 1 = 1 → beAt bs 58 2 = 88 →
        let c := (frameCells bs 1 70).headD 0
        let g := payNat c 2 1
        let f := payNat c 4 2
        cVc c < 12 → vcClass (cVc c) ≠ kCol → cType c = ctSignal → cDst c = s.devId →
        (80 ≤ s.get (LNK_VCFREE_FREE n (escVc (vcClass (cVc c)))) → s.isDup (cSrc c) kReq (cMsg c) = false → s.dedupFull kReq = false → payNat c 0 2 = s.get GLB_ROLEGEN_RGEN →
          g < 25 → f < 512 → ∃ t, exec (.ethFrameReceive n frame) s = .next t ∧ t.flag g f = (if f = 0 then 0 else (s.flag g f + payNat c 3 1) % 65536) ∧
            (cSrc c, kReq, cMsg c) ∈ t.fab.dedup ∧ s.KeepsStores t) ∧
        (s.get (LNK_VCFREE_FREE n (escVc (vcClass (cVc c)))) < 80 → ∃ t, exec (.ethFrameReceive n frame) s = .next t ∧
          t.get RTE_ETHDROP_CNT = (s.get RTE_ETHDROP_CNT + 1) % 2 ^ 64 ∧ (∀ g < 25, ∀ f < 512, t.flag g f = s.flag g f) ∧ s.KeepsStores t))) ∧
    (∀ (prio : Fin 8) (quanta : BitVec 16), s.lanesUp n = true →
      (off → ∃ t, exec (.pfcFrameReceive n prio quanta) s = .next t ∧ t.get RTE_ETHDROP_CNT = (s.get RTE_ETHDROP_CNT + 1) % 2 ^ 64 ∧ s.RegsBut (fun a => a = aRTE_ETHDROP) t ∧
        t = { s with regs := t.regs }) ∧
      (¬ off → ∃ t, exec (.pfcFrameReceive n prio quanta) s = .next t ∧ t.regs = s.regs ∧ (t.link n).pfcStopped.testBit prio.val = decide (quanta ≠ 0) ∧
        (∀ i, i ≠ prio.val → (t.link n).pfcStopped.testBit i = l.pfcStopped.testBit i) ∧ s.KeepsStores t)) ∧
    (∀ cls : Nat,
      (¬ off → l.pfcSent.testBit cls = true → s.classHeld n cls = true → ∃ t, exec (.pfcRepeat n cls) s = .next t ∧
        t = { s with out := .frame n (s.pfcFrame n (s.classPcp cls) 0xFFFF) :: s.out }) ∧
      (off ∨ l.pfcSent.testBit cls = false ∨ s.classHeld n cls = false → exec (.pfcRepeat n cls) s = .next s)) ∧
    (s.lstate n = lActive ∨ s.lstate n = lParked →
      (s.get RTE_LLDP_INTERVAL ≠ 0 → ∃ t, exec (.lldpSend n) s = .next t ∧ t.out = .frame n (s.lldpFrame n) :: s.out ∧
        (s.lldpFrame n).take 14 = ([0x01, 0x80, 0xC2, 0x00, 0x00, 0x0E] ++ s.ownMac n ++ [0x88, 0xCC]).map (BitVec.ofNat 8) ∧
        t.link n = { l with hseq := (l.hseq + 1) % 65536 } ∧ t.regs = s.regs ∧ s.KeepsStores t) ∧
      (s.get RTE_LLDP_INTERVAL = 0 → exec (.lldpSend n) s = .next s)) ∧
    (∀ pdu : List (BitVec 8), off → s.lanesUp n = true → s.Calm n →
      let ts := tlvs pdu.length (pdu.map (·.toNat))
      let ours (x : Nat × List Nat) : Bool := x.1 == 127 && x.2.length == 32 && beAt x.2 0 3 == s.get RTE_LLDP_OUI && beAt x.2 3 1 == 1
      let own (t : State) : Prop := t.PlanHolds n ∧ s.LinkFrame t n (fun a => a = aLNK_NBR n ∨ a = aLNK_NBRSER n ∨ a = aLNK_NBRVER n)
      ∀ ttl : List Nat, (ts.find? (·.1 == 3)) = some (3, ttl) →
        (beAt ttl 0 2 = 0 → ∃ t, exec (.lldpReceive n pdu) s = .next t ∧ t.rd (aLNK_NBR n) = 0 ∧ t.rd (aLNK_NBRSER n) = 0 ∧ t.rd (aLNK_NBRVER n) = 0 ∧
          (t.link n).switch = false ∧ own t) ∧
        (beAt ttl 0 2 ≠ 0 → ts.find? ours = none → ∃ t, exec (.lldpReceive n pdu) s = .next t ∧ t.rd (aLNK_NBR n) = 0 ∧ (t.link n).switch = true ∧ own t) ∧
        (∀ x, beAt ttl 0 2 ≠ 0 → ts.find? ours = some x →
          let f (i k : Nat) : Nat := leNat (((x.2.drop 4).drop i).take k)
          (∀ b ∈ x.2, b < 256) → ∃ t, exec (.lldpReceive n pdu) s = .next t ∧ (t.link n).switch = false ∧ (t.link n).heard = true ∧ t.get (LNK_NBR_DEVID n) = f 8 2 ∧
            t.get (LNK_NBR_COORD n) = f 12 3 ∧ t.get (LNK_NBRSER_SERIAL n) = f 0 8 ∧ t.get (LNK_NBRVER_PVSET n) = f 20 2 ∧ own t))

/-- The exchange of R349 and R350 over a link that runs TIME cells, and the loss of a parent (R346 to R348, R351, R355).
Choices of the model used here: log entries 3, 47 and 62. -/
def Obligations.TimeExchange : Prop :=
  (∀ (n : LinkId) (s : State), s.Settled → s.Quiet →
    (s.timeLink n = false → exec (.timeRequestSend n) s = .next s) ∧
    (s.timeLink n = true →
      (let x := tabGet (fun _ => 0) s.ftm.xseq n
       ∃ t c t1, exec (.timeRequestSend n) s = .next t ∧ t.out = .cell n c :: s.out ∧ cType c = ctTime ∧ payNat c 0 1 = 1 ∧ payNat c 3 1 = x % 256 ∧
        timeRead c 4 12 = t1 ∧ t1 / 16 = s.now ∧ tabGet (fun _ => none) t.ftm.asked n = some (x, t1) ∧ tabGet (fun _ => 0) t.ftm.xseq n = (x + 1) % 256 ∧
        t.regs = s.regs ∧ s.KeepsStores t) ∧
      (∀ (c : BitVec 640) (u : Nat), s.Takes n c → cType c = ctTime → payNat c 0 1 = 1 → u / 16 ≤ s.now → ∃ t c', exec (.timeRequest n c u) s = .next t ∧
        t.out = .cell n c' :: s.out ∧ cType c' = ctTime ∧ payNat c' 0 1 = 2 ∧ payNat c' 3 1 = payNat c 3 1 ∧ timeRead c' 4 12 = timeRead c 4 12 ∧ timeRead c' 16 24 = u ∧
        timeRead c' 28 36 / 16 = s.now ∧ payNat c' 2 1 = s.get FTM_STAT_DEPTH ∧ t.regs = s.regs ∧ s.KeepsStores t) ∧
      (∀ (c : BitVec 640) (u t1 : Nat), s.Takes n c → cType c = ctTime → payNat c 0 1 = 2 → u / 16 ≤ s.now → tabGet (fun _ => none) s.ftm.asked n = some (payNat c 3 1, t1) →
        let back : Int := timeRead c 16 24 - t1
        let forth : Int := u - timeRead c 28 36
        let d := (back + forth) / 2
        let theta := (forth - back) / 2 + s.asym n
        (back + forth) % 2 = 0 → 0 ≤ d → d < 2 ^ 32 → -2 ^ 31 ≤ theta → theta < 2 ^ 31 → ∃ t, exec (.timeReply n c u) s = .next t ∧
          t.get (FTM_LNK_D n) = d.toNat ∧ (BitVec.ofNat 32 (t.get (FTM_LNK_THETA n))).toInt = theta ∧ tabGet (fun _ => none) t.ftm.asked n = none ∧
          (t.timeHeard n).map (·.depth) = some (payNat c 2 1) ∧ s.KeepsStores t ∧
          (s.get FTM_CFG_MODE ≠ 2 → s.RegsBut (fun a => a = aFTM_LNK n) t) ∧
          (s.get FTM_CFG_MODE = 2 → s.get FTM_STAT_ACTPARENT = n.val → payNat c 2 1 + 1 ≤ 127 → ((payNat c 1 1).testBit 0 = true ∨ payNat c 2 1 = 0) →
            t.get FTM_STAT_DEPTH = payNat c 2 1 + 1 ∧ t.isSet FTM_STAT_UPHOLD = (payNat c 1 1).testBit 1 ∧ t.get FTM_XCNT_CNT = (s.get FTM_XCNT_CNT + 1) % 2 ^ 64 ∧
            (s.get FTM_THR_STEPTHR * 16 < theta.natAbs → theta % 16 = 0 → (t.now : Int) = ((s.now : Int) - theta / 16) % 2 ^ 64) ∧
            (theta.natAbs ≤ s.get FTM_THR_STEPTHR * 16 → t.now = s.now)))))  ∧
  (∀ s : State, s.Settled →
    (s.get FTM_CFG_MODE ≠ 2 → exec .parentUnusable s = .next s) ∧
    (s.get FTM_CFG_MODE = 2 → s.get FTM_STAT_ACTPARENT ≠ 31 →
      let act := s.get FTM_STAT_ACTPARENT
      let alt := s.get FTM_CFG_ALTPARENT
      let new := if s.isSet FTM_CFG_ALTEN = true ∧ act ≠ alt ∧ s.usable alt = true then alt else 31
      ∃ t, exec .parentUnusable s = .next t ∧ t.get FTM_STAT_ACTPARENT = new ∧ (new = 31 → t.isSet FTM_STAT_HOLD = true) ∧ t.timeHeard act = none ∧
        s.Logs 0x9002 srcTime (act + new * 256) t ∧ s.RegsBut (fun a => a = aFTM_STAT ∨ eventReg a) t ∧ s.KeepsStores t))

/-- TIME_PPS, CAPT and LOAD (R351 to R353, R361).
Choices of the model used here: log entries 3 and 47. -/
def Obligations.PulseCaptureAndLoad : Prop :=
  (∀ (u : Nat) (s : State), s.Settled →
    (s.get FTM_CFG_MODE ≠ 1 → u / 16 ≤ s.now → exec (.timePpsInEdge u) s = .next s) ∧ (s.get FTM_CFG_MODE ≠ 1 → exec .ppsLoss s = .next s) ∧
    (s.get FTM_CFG_MODE = 1 → u / 16 ≤ s.now →
      let theta := s.ppsOffset u
      let captured (t : State) : Prop := t.get FTM_PPSCAPT_TICKS = u / 16 % 2 ^ 60 ∧ t.get FTM_PPSCAPT_FRAC = u % 16
      (64000000 < theta.natAbs → ∃ t, exec (.timePpsInEdge u) s = .next t ∧ captured t ∧ t.get FTM_PPSIGN_CNT = (s.get FTM_PPSIGN_CNT + 1) % 2 ^ 64 ∧
        t.ftm.ppsIgnored = s.ftm.ppsIgnored + 1 ∧ t.now = s.now ∧ s.KeepsStores t ∧
        (s.ftm.ppsIgnored = 3 → t.isSet FTM_STAT_PPSLOCK = false ∧ t.isSet FTM_STAT_HOLD = true ∧ s.Logs 0x9005 srcTime 0 t) ∧
        (s.ftm.ppsIgnored ≠ 3 → t.rd aFTM_STAT = s.rd aFTM_STAT)) ∧
      (theta.natAbs ≤ 64000000 → s.ftm.loadDue = true → ∃ t, exec (.timePpsInEdge u) s = .next t ∧ captured t ∧ t.rd aFTM_NOW = s.rd aFTM_LOADVAL ∧ t.ftm.loadDue = false ∧
        s.KeepsStores t) ∧
      (theta.natAbs ≤ 64000000 → s.ftm.loadDue = false → ∃ t, exec (.timePpsInEdge u) s = .next t ∧ captured t ∧ t.ftm.ppsIgnored = 0 ∧
        t.ftm.ppsGood = (if theta.natAbs ≤ s.get FTM_THR_ALARM * 16 then min 4 (s.ftm.ppsGood + 1) else 0) ∧
        (t.ftm.ppsGood = 4 → t.isSet FTM_STAT_PPSLOCK = true) ∧ (t.ftm.ppsGood ≠ 4 → t.isSet FTM_STAT_PPSLOCK = s.isSet FTM_STAT_PPSLOCK) ∧ s.KeepsStores t)) ∧
    (s.get FTM_CFG_MODE = 1 → s.isSet FTM_STAT_PPSLOCK = true → ∃ t, exec .ppsLoss s = .next t ∧ t.isSet FTM_STAT_PPSLOCK = false ∧ t.isSet FTM_STAT_HOLD = true ∧
      t.ftm.ppsGood = 0 ∧ s.Logs 0x9005 srcTime 0 t ∧ s.RegsBut (fun a => a = aFTM_STAT ∨ eventReg a) t ∧ s.KeepsStores t)) ∧
  (∀ s : State, (s.isSet FTM_PPSCFG_OUTEN = false → exec .timePpsOutPulse s = .next s) ∧
    (s.isSet FTM_PPSCFG_OUTEN = true → s.now + 5000000000 < 2 ^ 64 → ∃ t start, exec .timePpsOutPulse s = .next t ∧ s.now ≤ start ∧ start < s.now + secondTicks ∧
      (start + secondTicks - s.get FTM_PPSOFF_OFF % secondTicks) % secondTicks = 0 ∧ t.out = .pin .timePpsOut false :: .pin .timePpsOut true :: s.out ∧ t.now = start + 400000 ∧
      s.RegsBut (fun a => a = aFTM_NOW ∨ (s.deepIdle = true ∧ a = aFTM_STAT) ∨ (∃ d < 4, a = aPWR_THRCNT d) ∨ (∃ q < 125, a = aQUE_WAITCNT q) ∨
        ∃ n < 24, a = aLNK_STAT n) t ∧ s.KeepsStores t)) ∧
  (∀ (p : PortId) (s : State), s.mayWrite p true = true →
    (∃ t, exec (.capt p) s = .next t ∧ t.rd aFTM_CAPT = s.rd aFTM_NOW ∧ s.RegsBut (fun a => a = aFTM_CAPT) t ∧ t = { s with regs := t.regs }) ∧
    (s.get FTM_CFG_MODE = 0 → ∃ t, exec (.ftmLoad p) s = .next t ∧ t.rd aFTM_NOW = s.rd aFTM_LOADVAL ∧ s.RegsBut (fun a => a = aFTM_NOW ∨ eventReg a) t ∧ s.KeepsStores t) ∧
    (s.get FTM_CFG_MODE = 1 → ∃ t, exec (.ftmLoad p) s = .next t ∧ t.ftm.loadDue = true ∧ t = { s with ftm := t.ftm }) ∧
    (2 ≤ s.get FTM_CFG_MODE → ∃ t, exec (.ftmLoad p) s = .next t ∧ s.Logs 0x9006 srcTime 0 t ∧ s.RegsBut eventReg t ∧ s.KeepsStores t))

/-- The wheel commands' issue (R317 to R324, R327, R331), and their results on a ring of one device.
Choices of the model used here: log entries 22 and 51. -/
def Obligations.CollectivesIssue : Prop :=
  ∀ (a : Fin 4) (i : Instr) (op : Nat) (s : State),
    (i, op) ∈ [(.allreduce a, 0x90), (.redscat a, 0x91), (.allgather a, 0x92), (.bcast a, 0x93), (.alltoall a, 0x94), (.shift a, 0x95), (.permute a, 0x96)] →
    let q := 120 + a.val
    let w := s.headWord q
    let many : Prop := s.ringSize a ≠ 1 ∨ (wAxis2 w ≠ 7 ∧ s.ringSize (wAxis2 w) ≠ 1)
    s.HeadRuns q op true → s.Fresh q → s.Quiet → ∀ src dst res aux : Nat,
    s.cmdOperand q w 96 20 32 = some src → s.cmdOperand q w 120 20 32 = some dst → s.cmdOperand q w 144 20 32 = some res → s.cmdOperand q w 168 20 32 = some aux →
    let r := wheelPlan a (s.newIssued q) (s.localAddr src) (s.localAddr dst) (s.localAddr res) (s.localAddr aux) (bumpUid s)
    let p := r.2
    let status := p.status a (r.1.set (WHL_SEQ_SEQ a) (p.c.seq + 1))
    (many → s.armed = false → ∃ t, exec i s = .next t ∧ s.FreezesAtHead q 0x600E t ∧ s.Logs 0x600E (srcQueue q) 0 t ∧ s.KeepsStores t) ∧
    ((many → s.armed = true) → s.errs = [] → p.carry = true → ∃ t, exec i s = .next t ∧ s.FreezesAtHead q 0x3009 t ∧ s.Logs 0x3009 (srcQueue q) 0 t ∧
      t.get (WHL_SEQ_SEQ a) = s.get (WHL_SEQ_SEQ a) ∧ s.KeepsStores t) ∧
    ((many → s.armed = true) → s.errs = [] → p.carry = false →
      (status ≠ 0 → ∃ t, exec i s = .next t ∧ t.qstate q = qFrozen ∧ (t.que q).issued = (s.que q).issued ∧ t.get (WHL_STAT_LAST a) = status ∧ (t.wheel a).coll = none) ∧
      (status = 0 → p.c.vmode ≠ 2 → ∃ t c, exec i s = .next t ∧ s.MovesOn t q { s.newIssued q with status := .busy } ∧ s.KeepsStores t ∧
        (t.wheel a).coll = some c ∧ c.word = w ∧ c.uid = (s.newIssued q).uid ∧ c.seq = s.get (WHL_SEQ_SEQ a) ∧ c.step = s.step40 24 ∧
        c.n = (s.ringSize a, if wAxis2 w ≠ 7 then s.ringSize (wAxis2 w) else 1) ∧ c.digest = p.c.digest ∧ c.dst = s.localAddr dst ∧ c.res = s.localAddr res ∧
        c.own.map (·.bits) = (List.range p.srcLen).map (s.elemBits (s.localAddr src) (wFmt w)) ∧
        t.get (WHL_SEQ_SEQ a) = (s.get (WHL_SEQ_SEQ a) + 1) % 65536 ∧ t.get (WHL_STAT_STATE a) ≠ 0 ∧
        (s.ringSize a = 1 → wAxis2 w = 7 → (s.wheel a).early = [] → (op = 0x92 ∨ wDirect w = false) → c.stages = [] ∧ c.queue = [] ∧ c.sent = [] ∧ ∀ k < c.dstLen,
          (listGet c.result k).bits = if op ≤ 0x91 then
              (cvtElem (wCvt w) (fun x => rngDraw s.seed (streamId (24 + a) 0 (c.auxWord 0 % 65536)) (s.step40 24) x) (c.index k)
                (decodeElem (wFmt w) (s.elemBits (s.localAddr src) (wFmt w) k)) {}).1
            else s.elemBits (s.localAddr src) (wFmt w) k)))

/-- COL cells of a running collective (R325, R328, R330, R334 to R336).
Choices of the model used here: log entries 14 and 51. -/
def Obligations.CollectiveCells : Prop :=
  ∀ (n : LinkId) (x : BitVec 640) (a : Fin 4) (s : State), s.Quiet → s.Takes n x → 4 ≤ cType x → vcClass (cVc x) = kCol → cDst x = s.devId → cMsg x / 256 = a.val →
    let axis := s.lport n / 2
    let plus := s.lport n % 2 == 0
    let seq := payNat x 2 2
    (cType x = ctGrant → payNat x 0 1 = 1 →
      ((s.wheel a).coll = none → (s.wheel a).lastSeq ≠ some seq → ∃ t, exec (.colGrant n x) s = .next t ∧
        (t.wheel a).early = (s.wheel a).early ++
          [{ axis := axis, up := plus, seq := seq, credits := payNat x 4 4, mask := 0, nf := (payNat x 1 1).testBit 0, psn := (payNat x 1 1).testBit 2 }] ∧ s.KeepsStores t) ∧
      (∀ c ring, (s.wheel a).coll = some c → c.seq = seq → c.wayIn a axis = some ring → c.stages = [] → c.queue = [] → ∃ t c', exec (.colGrant n x) s = .next t ∧
        (t.wheel a).coll = some c' ∧ c'.sent = dropAcked n (payNat x 4 4) c.sent ∧
        tabNat c'.credit (wayKey ring plus) = tabNat c.credit (wayKey ring plus) + payNat x 4 4 ∧ s.KeepsStores t)) ∧
    (cType x = ctGrant → payNat x 0 1 = 2 → ∀ c, (s.wheel a).coll = some c → c.seq = seq → axis = a.val → c.stages = [.close 0] → c.started = true → c.queue = [] →
      ∃ t c', exec (.close n x) s = .next t ∧ (t.wheel a).coll = some c' ∧ c'.mask.1 = c.mask.1 ||| payNat x 8 8 ∧ c'.nf = (c.nf || (payNat x 1 1).testBit 0) ∧
        (c'.stages = [] ↔ c.mask.1 ||| payNat x 8 8 = 2 ^ c.n.1 - 1) ∧ s.KeepsStores t) ∧
    (cType x = ctGrant → payNat x 0 1 = 3 → ∀ c ring, (s.wheel a).coll = some c → c.wayIn a axis = some ring → ∃ t, exec (.colAbort n x) s = .next t ∧
      s.CollFails t a c 3 (c.reporter ring (!plus))) ∧
    (∀ (c : Coll) (ring : Nat) (d : CellBits) (rest : List CellBits), cType x = ctSeg → (s.wheel a).coll = some c → c.wayIn a axis = some ring →
      ((s.link n).rxCol.find? (·.1 == a.val)) = some (a.val, d :: rest) → cIdx x = rest.length + 1 → payNat d 10 2 = rest.length + 1 →
      (payNat d 2 2 ≠ c.seq ∨ payNat d 4 4 ≠ c.digest ∨ (payNat d 1 1).testBit 1 = true → ∃ t, exec (.colChunk n [x]) s = .next t ∧
        s.CollFails t a c 1 (c.reporter ring (!plus))) ∧
      (payNat d 2 2 = c.seq → payNat d 4 4 = c.digest → (payNat d 1 1).testBit 1 = false → c.op = opAlltoall → c.stages.head? = some .move → c.started = true →
        payNat d 0 1 = 4 → payNat d 8 1 = c.r.1 → c.got.contains [ring, (!plus).toNat, 4, payNat d 8 1, payNat d 9 1, payNat d 12 4] = false →
        ∃ t c', exec (.colChunk n [x]) s = .next t ∧ (t.wheel a).coll = some c' ∧ s.KeepsStores t ∧
          c'.got.contains [ring, (!plus).toNat, 4, payNat d 8 1, payNat d 9 1, payNat d 12 4] = true ∧
          t.get (WHL_RXBYTES_CNT a) = (s.get (WHL_RXBYTES_CNT a) + elemBytes (c.wireFmt 4) (payNat d 16 4)) % 2 ^ 64 ∧
          ∀ k e, (chunkElems (c.wireFmt 4) (payNat d 16 4) (rest ++ [x]))[k]? = some e → (c.moveIndex (payNat d 9 1) (payNat d 12 4 + k), e) ∈ c'.result))

/-- COLLECTIVE_COMPLETE (R326), the resend and progress timers (R328, R330) and WHL_CTRL.ABORT (R329, R341).
Choices of the model used here: log entry 51. -/
def Obligations.CollectivesEnd : Prop :=
  ∀ (a : Fin 4) (s : State),
    ((s.wheel a).coll = none → exec (.collectiveComplete a) s = .next s ∧ (s.Quiet → exec (.chunkResend a) s = .next s ∧ exec (.progressTimeout a) s = .next s ∧
      ∀ p : PortId, s.mayWrite p true = true → exec (.whlAbort p a) s = .next s)) ∧
    (∀ c, (s.wheel a).coll = some c →
      let q := 120 + a.val
      (c.stages ≠ [] ∨ c.queue ≠ [] ∨ c.sent ≠ [] → exec (.collectiveComplete a) s = .next s) ∧
      (s.Quiet → (∃ t, exec (.progressTimeout a) s = .next t ∧ s.CollFails t a c 2 c.r.1) ∧
        (∀ p : PortId, s.mayWrite p true = true → ∃ t, exec (.whlAbort p a) s = .next t ∧ s.CollFails t a c 3 c.r.1) ∧
        (∀ x rest, c.sent = x :: rest →
          (s.get (WHL_CFG_RMAX a) ≤ x.tries → ∃ t, exec (.chunkResend a) s = .next t ∧ s.CollFails t a c 5 c.r.1) ∧
          (x.tries < s.get (WHL_CFG_RMAX a) →
            let links := s.wheelLinks (c.axisOf a x.chunk.ring) x.chunk.up
            let next := match x.link with
              | some k => (links.find? fun m => decide (k < m)).or links.head?
              | none => links.head?
            ∃ t, exec (.chunkResend a) s = .next t ∧ (t.wheel a).coll = some { c with sent := rest ++ [{ x with link := next, tries := x.tries + 1 }] } ∧ s.KeepsStores t ∧
              (next ≠ none → t.get (WHL_RESEND_CNT a) = (s.get (WHL_RESEND_CNT a) + 1) % 2 ^ 64 ∧ s.Logs 0x8008 (srcWheel a) (c.idx * 2 ^ 16) t) ∧
              (next = none → t.regs = s.regs ∧ t.out = s.out)))) ∧
      (∀ ring < 2, ∀ up n, s.Quiet → s.pending = [] → s.counting = true → c.ringN ring ≠ 1 →
        (s.advanceTo (s.now + 1)).darkFor c (wheelPort (c.axisOf a ring) up) = some n → s.get (WHL_CFG_RMAX a) * s.get (WHL_CFG_RTMO a) * 4000 ≤ n →
        ∃ t, step s = .next t ∧ (t.wheel a).coll = none ∧ t.get (WHL_STAT_LAST a) = 5 ∧ t.get (WHL_STAT_STATE a) = 0 ∧ t.qstate q = qFrozen) ∧
      (∀ e : Issued, c.stages = [] → c.queue = [] → c.sent = [] → c.vmode ≠ 1 → s.errs = [] → s.badBridges = 0 → (s.que q).issued = [e] → e.uid = c.uid → e.record = none →
        (e.signalled = true ∨ cmdGet e.word 41 9 < 496) →
        (c.dst + c.dstLen * c.outBytes ≤ c.res ∨ c.res + 32 ≤ c.dst) →
        let fmt := if wReduces c.word then (wCvt c.word).fmt else wFmt c.word
        let f := c.auxWord 11 % 512
        ∃ t, exec (.collectiveComplete a) s = .next t ∧ (t.wheel a).coll = none ∧ (t.wheel a).lastSeq = some c.seq ∧ t.get (WHL_STAT_LAST a) = 0 ∧ t.get (WHL_STAT_STATE a) = 0 ∧
          t.get (WHL_COLLCNT_CNT a) = (s.get (WHL_COLLCNT_CNT a) + 1) % 2 ^ 64 ∧ (t.que q).issued = [] ∧
          (fmtBits fmt = 8 * c.outBytes → ∀ k < c.dstLen, (listGet c.result k).bits < 256 ^ c.outBytes →
            t.readNat (c.dst + k * c.outBytes) c.outBytes = (listGet c.result k).bits) ∧
          (c.seq < 65536 → c.digest < 2 ^ 32 → c.step < 2 ^ 40 →
            t.readNat c.res 4 = c.nf.toNat + 2 * (decide (∃ k < c.dstLen, (listGet c.result k).psn = true)).toNat + 4 + c.seq * 65536 ∧ t.readNat (c.res + 4) 4 = c.digest ∧
            t.readNat (c.res + 8) 8 = c.step ∧ t.readNat (c.res + 16) 8 = c.dstLen % 2 ^ 32 ∧ t.readNat (c.res + 24) 8 = s.now) ∧
          (∀ x, (x < c.dst ∨ c.dst + c.dstLen * c.outBytes ≤ x) → (x < c.res ∨ c.res + 32 ≤ x) → t.byte x = s.byte x) ∧
          (f ≠ 0 → ∀ g < 24, t.flag g f = if (c.auxWord 12).testBit g then (s.flag g f + 1) % 65536 else s.flag g f)))

/-- Ownership reads and the write freeze's end (R371 to R375).
Choices of the model used here: log entries 10 and 48. -/
def Obligations.OwnershipAndThaw : Prop :=
  ∀ (p : PortId) (s : State),
    let val (r ogen : Nat) : Word := BitVec.ofNat 64 (r * 2 ^ 30 + ogen)
    let answers (i : Instr) (r : Nat) : Prop := ∃ t, exec i s = .next t ∧ t = { s with out := .completion p (val r (s.get HST_OWN_OGEN)) false :: s.out }
    let changes (i : Instr) (new : Nat) : Prop := ∃ t, exec i s = .next t ∧ t.get HST_OWN_OWNER = new ∧ t.get HST_OWN_OGEN = (s.get HST_OWN_OGEN + 1) % 65536 ∧
      t.isSet (HST_STAT_OWNER 0) = decide (new = 1) ∧ t.isSet (HST_STAT_OWNER 1) = decide (new = 2) ∧ t.out.head? = some (.completion p (val 0 (t.get HST_OWN_OGEN)) false) ∧
      s.Logs 0xA003 srcDevice (s.get HST_OWN_OWNER + new * 2 ^ 8 + t.get HST_OWN_OGEN * 2 ^ 16) t ∧
      s.RegsBut (fun a => a = aHST_OWN ∨ a = aHST_STAT 0 ∨ a = aHST_STAT 1 ∨ eventReg a) t ∧ s.KeepsStores t
    (s.owns p = true → answers (.hstClaim p) 1 ∧ changes (.hstRelease p) 0 ∧ answers (.hstSeize p) 2) ∧
    (s.owns p = false → answers (.hstRelease p) 1) ∧
    (s.owns p = false → s.get HST_OWN_OWNER ≠ 0 → answers (.hstClaim p) 2 ∧ (s.mayOwn p = false → answers (.hstSeize p) 3) ∧
      (s.mayOwn p = true → s.get (HST_SEIZEKEY_KEY p) = s.get HST_OWN_OGEN → changes (.hstSeize p) (p.val + 1)) ∧
      (s.mayOwn p = true → s.get (HST_SEIZEKEY_KEY p) ≠ s.get HST_OWN_OGEN → answers (.hstSeize p) 1)) ∧
    (s.get HST_OWN_OWNER = 0 → answers (.hstSeize p) 2 ∧ (s.mayOwn p = true → changes (.hstClaim p) (p.val + 1)) ∧ (s.mayOwn p = false → answers (.hstClaim p) 3)) ∧
    (∀ port : PortId, ∃ t, exec (.hstViolrecRead p port) s = .next t ∧ t.out = .completion p (s.rd (aHST_VIOLREC port)) false :: s.out ∧ t.regs = s.regs ∧
      (t.port port).violRead = ((s.port port).violRead || (decide (p = port) && s.isSet (HST_STAT_FROZEN port))) ∧ s.KeepsStores t) ∧
    (s.isSet (HST_STAT_FROZEN p) = false → ∃ t, exec (.hstPortthaw p) s = .next t ∧ t = { s with out := .completion p (val 1 0) false :: s.out }) ∧
    (s.isSet (HST_STAT_FROZEN p) = true → (s.port p).violRead = false → ∃ t, exec (.hstPortthaw p) s = .next t ∧ t = { s with out := .completion p (val 2 0) false :: s.out }) ∧
    (s.isSet (HST_STAT_FROZEN p) = true → (s.port p).violRead = true → ∃ t, exec (.hstPortthaw p) s = .next t ∧ t.out = .completion p (val 0 0) false :: s.out ∧
      t.isSet (HST_STAT_FROZEN p) = false ∧ t.isSet (HST_VIOLREC_VALID p) = false ∧ t.get (HST_VIOLREC_COUNT p) = 0 ∧
      s.RegsBut (fun a => a = aHST_STAT p ∨ a = aHST_VIOLREC p) t ∧ s.KeepsStores t)

/-- Mailboxes and posts (R379 to R384), flag watches (R370) and RCL registers (R8).
Choices of the model used here: log entries 10 and 48. -/
def Obligations.MailboxesAndWatches : Prop :=
  ∀ (p : PortId) (s : State), s.ready = true → s.Quiet →
    (∀ k : Fin 8,
      let mbox := s.get (MBX_STGDST_MBOX p k)
      let dst := s.get (MBX_STGDST_DSTDEV p k)
      let slot := s.get (MBX_PROD_PROD mbox) % 16 * 4
      let role := s.get (MBX_STGCODE_RGEN p k)
      let ends (t : State) (out : Nat) (abort : Bool) : Prop := t.get (MBX_STGSTAT_LAST p k) = out ∧ t.get (MBX_POST_OUTCOME p k) = out ∧
        t.out.head? = some (.completion p (if abort then 0 else BitVec.ofNat 64 (out * 2 ^ 28)) abort) ∧ s.KeepsStores t
      let free : Prop := (s.port p).posts.any (·.1 == k.val) = false
      (48 ≤ mbox ∨ dst = 0xFFFF ∨ ¬ free → ∃ t, exec (.mbxPost p k) s = .next t ∧ ends t 5 false) ∧
      (mbox < 48 → dst ≠ 0xFFFF → free →
        (dst ≠ s.devId → s.armed = false → ∃ t, exec (.mbxPost p k) s = .next t ∧ ends t 3 false) ∧
        (dst ≠ s.devId → s.armed = true → ∃ t, exec (.mbxPost p k) s = .next t ∧ t.isSet (MBX_STGSTAT_PENDING p k) = true ∧ (k.val, true) ∈ (t.port p).posts ∧
          (∃ m ∈ t.fab.sends, m.dst = dst ∧ m.cls = kReq ∧ m.origin = .hostPost p k) ∧ s.KeepsStores t) ∧
        (dst = s.devId → role ≠ s.mailRole mbox → ∃ t, exec (.mbxPost p k) s = .next t ∧ ends t 2 false ∧ t.rd (aMBX_PROD mbox) = s.rd (aMBX_PROD mbox)) ∧
        (dst = s.devId → role = s.mailRole mbox → 16 ≤ s.mailHeld mbox → ∃ t, exec (.mbxPost p k) s = .next t ∧ ends t 1 true ∧ t.rd (aMBX_PROD mbox) = s.rd (aMBX_PROD mbox)) ∧
        (dst = s.devId → role = s.mailRole mbox → s.mailHeld mbox < 16 → ∃ t, exec (.mbxPost p k) s = .next t ∧ ends t 0 false ∧
          t.get (MBX_PROD_PROD mbox) = (s.get (MBX_PROD_PROD mbox) + 1) % 65536 ∧ t.rd (aMBX_ENT mbox slot) = s.rd (aMBX_STGADDR p k) ∧
          (t.rd (aMBX_ENT mbox (slot + 1))).toNat = s.get (MBX_STGLEN_LEN p k) + s.get (MBX_STGCODE_CODE p k) * 2 ^ 32 + role * 2 ^ 48 ∧
          t.rd (aMBX_ENT mbox (slot + 3)) = s.rd aFTM_NOW)) ∧
      ((k.val, true) ∈ (s.port p).posts → ∃ t, exec (.postwaitExpiry p k) s = .next t ∧ t.isSet (MBX_STGSTAT_PENDING p k) = true ∧ t.get (MBX_POST_OUTCOME p k) = 4 ∧
        t.out = .completion p (BitVec.ofNat 64 (4 * 2 ^ 28)) false :: s.out ∧ (k.val, true) ∉ (t.port p).posts ∧ (k.val, false) ∈ (t.port p).posts ∧
        s.RegsBut (fun a => a = aMBX_STGSTAT p k ∨ a = aMBX_POST p k) t ∧ s.KeepsStores t) ∧
      ((k.val, true) ∉ (s.port p).posts → exec (.postwaitExpiry p k) s = .next s)) ∧
    (s.mayWrite p false = true →
      (∀ (m : Fin 48) (v : BitVec 16),
        (m.val / 16 = p.val → (v.toNat + 65536 - s.get (MBX_CONS_CONS m)) % 65536 ≤ s.mailHeld m → ∃ t, exec (.mbxCons p m v) s = .next t ∧ t.get (MBX_CONS_CONS m) = v.toNat ∧
          s.RegsBut (fun a => a = aMBX_CONS m) t ∧ t = { s with regs := t.regs }) ∧
        (m.val / 16 = p.val → s.mailHeld m < (v.toNat + 65536 - s.get (MBX_CONS_CONS m)) % 65536 → exec (.mbxCons p m v) s = .next s) ∧
        (m.val / 16 ≠ p.val → ∃ t, exec (.mbxCons p m v) s = .next t ∧ t.isSet (HST_STAT_FROZEN p) = true ∧ t.isSet (HST_VIOLREC_VALID p) = true ∧
          s.Logs 0xA002 (srcHost p 0) 0 t ∧ s.RegsBut (fun a => a = aHST_STAT p ∨ a = aHST_VIOLREC p ∨ eventReg a) t ∧ s.KeepsStores t)) ∧
      (∃ t, exec (.mbxclr p) s = .next t ∧ s.KeepsStores t ∧ ∀ k < 16, t.get (MBX_CONS_CONS (16 * p + k)) = s.get (MBX_PROD_PROD (16 * p + k)) ∧
        t.get (MBX_PROD_PROD (16 * p + k)) = s.get (MBX_PROD_PROD (16 * p + k))) ∧
      (∀ (w : Fin 1984) (v : BitVec 64), v.getLsbD 63 = true → getBits v.toNat 57 5 < 25 →
        let g := getBits v.toNat 57 5
        let f := getBits v.toNat 48 9
        ∃ t, exec (.hstFwatchArm p w v) s = .next t ∧ t.get (HST_FWATCH_SET p w) = g ∧ t.get (HST_FWATCH_FLAG p w) = f ∧ t.get (HST_FWATCH_TARGET p w) = v.toNat % 65536 ∧
          t.isSet (HST_FWATCH_ARM p w) = !targetMet (s.flag g f) (v.toNat % 65536) ∧ s.KeepsStores t ∧
          (targetMet (s.flag g f) (v.toNat % 65536) = true → s.get (HST_STAT_DSTATE p) ≠ 3 → (s.port p).msixEn = true → (s.port p).msixMask = false →
            s.isSet (MSIX_CTRL_MASK p (64 + w)) = false → .msix p.val (64 + w.val) ∈ t.out))) ∧
    (∀ q : QId, ∃ t, exec (.quePostrecRead p q) s = .next t ∧ t.out = .completion p (s.rd (aQUE_POSTREC q)) false :: s.out ∧ t.get (QUE_POSTREC_ABORTCNT q) = 0 ∧
      t.get (QUE_POSTREC_LAST q) = s.get (QUE_POSTREC_LAST q) ∧ s.RegsBut (fun a => a = aQUE_POSTREC q ∨ ∃ x < 24, a = aTIL_GATE x ∨ ∃ m < 2, a = aMXE_STAT x m ∨ a = aMXE_DGCNT x m) t ∧ s.KeepsStores t) ∧
    (∀ port : PortId, ∃ t, exec (.hstPostrecRead p port) s = .next t ∧ t.out = .completion p (s.rd (aHST_POSTREC port)) false :: s.out ∧ t.get (HST_POSTREC_ABORTCNT port) = 0 ∧
      s.RegsBut (fun a => a = aHST_POSTREC port) t ∧ s.KeepsStores t) ∧
    (∃ t, exec (.lpcMirunmirRead p) s = .next t ∧ t.out = .completion p (s.rd aLPC_MIRUNMIR) false :: s.out ∧ t.rd aLPC_MIRUNMIR = 0 ∧
      s.RegsBut (fun a => a = aLPC_MIRUNMIR) t ∧ s.KeepsStores t) ∧
    (∃ t, exec (.mgtRepdropRead p) s = .next t ∧ t.out = .completion p (s.rd aMGT_REPDROP) false :: s.out ∧ t.rd aMGT_REPDROP = 0 ∧
      s.RegsBut (fun a => a = aMGT_REPDROP) t ∧ s.KeepsStores t)

/-- DMA channels and host reads (R386 to R389, R393).
Choices of the model used here: log entries 20 and 49. -/
def Obligations.DmaChannels : Prop :=
  (∀ (p port : PortId) (c : Fin 16) (s : State), s.mayWrite p true = true →
    (∀ v : BitVec 16,
      let ahead := (v.toNat + 65536 - s.get (DMA_CONS_CONS port c)) % 65536
      let room := 2 ^ s.get (DMA_CFG_SIZE port c) - 1
      (room < ahead → ∃ t, exec (.dmaProd p port c v) s = .next t ∧ s.Logs 0xA00D (srcHost port c) 0 t ∧ s.RegsBut eventReg t ∧ s.KeepsStores t) ∧
      (ahead ≤ room → ∃ t, exec (.dmaProd p port c v) s = .next t ∧ t.get (DMA_PROD_PROD port c) = v.toNat ∧
        s.RegsBut (fun a => a = aDMA_PROD port c ∨ a = aDMA_STAT port c) t ∧ s.KeepsStores t ∧
        (ahead ≠ 0 → s.isSet (DMA_CFG_EN port c) = true → s.get (DMA_STAT_STATE port c) ≠ 2 → s.dma port c = {} → s.hostOpen port = true →
          t.get (DMA_STAT_STATE port c) = 1 ∧ (t.dma port c).tag = some s.nextUid ∧
          t.out = .hostRead port (s.get (DMA_RING_BASE port c) * 4096 + 32 * (s.get (DMA_CONS_CONS port c) % 2 ^ s.get (DMA_CFG_SIZE port c))) 32 s.nextUid :: s.out))) ∧
    (∀ v : BitVec 32, s.isSet (DMA_CFG_EN port c) = false → v.getLsbD 31 = true → 4 ≤ v.toNat % 32 → v.toNat % 32 ≤ 16 → ∃ t, exec (.dmaCfgEn p port c v) s = .next t ∧
      t.isSet (DMA_CFG_EN port c) = true ∧ t.get (DMA_CFG_SIZE port c) = v.toNat % 32 ∧ t.get (DMA_PROD_PROD port c) = 0 ∧ t.get (DMA_CONS_CONS port c) = 0 ∧
      t.get (DMA_STAT_STATE port c) = 0 ∧ t.dma port c = {} ∧
      s.RegsBut (fun a => a = aDMA_CFG port c ∨ a = aDMA_PROD port c ∨ a = aDMA_CONS port c ∨ a = aDMA_STAT port c) t ∧ s.KeepsStores t)) ∧
  (∀ (port : PortId) (c : Fin 16) (s : State),
    (∀ d, (s.dma port c).desc = some d → (s.dma port c).tag = none → (s.dma port c).got = descLen d → s.dmaHeld port c = 1 → s.isSet (DMA_CFG_EN port c) = true →
      s.get (DMA_STAT_STATE port c) = 1 → ∃ t, exec (.dmaDescriptorComplete port c) s = .next t ∧ t.get (DMA_CONS_CONS port c) = (s.get (DMA_CONS_CONS port c) + 1) % 65536 ∧
        t.get (DMA_STAT_STATE port c) = 0 ∧ t.dma port c = {} ∧ s.KeepsStores t ∧
        (getBits d 169 1 = 1 → getBits d 185 5 < 25 → getBits d 176 9 ≠ 0 →
          t.flag (getBits d 185 5) (getBits d 176 9) = (s.flag (getBits d 185 5) (getBits d 176 9) + getBits d 192 16) % 65536)) ∧
    ((s.dma port c).desc = none → exec (.dmaDescriptorComplete port c) s = .next s)) ∧
  (∀ (port : PortId) (c tag : Nat) (data : List (BitVec 8)) (s : State), s.Quiet → s.fab.hostReads = [] → c < 16 → s.dmaOf port tag = some c →
    let stops (i : Instr) : Prop := (s.dma port c).desc = none → ∃ t, exec i s = .next t ∧ t.get (DMA_STAT_STATE port c) = 2 ∧ t.get (DMA_STAT_ERR port c) = 3 ∧
      t.get (DMA_ERRADDR_ADDR port c) = (s.dma port c).at_ % 2 ^ 64 ∧ t.dma port c = {} ∧ s.KeepsStores t
    stops (.hostReadCompletion port tag false data false) ∧ stops (.completionTimeout port tag) ∧
    ((s.dma port c).want = data.length →
      (∀ d, (s.dma port c).desc = none → d = leNat (data.map (·.toNat)) → descReserved d = false → descOut d = false → rangePopulated (descDev d) (descLen d) = true →
        s.locked (descDev d) (descLen d) = false → ∃ t, exec (.hostReadCompletion port tag true data false) s = .next t ∧ (t.dma port c).desc = some d ∧
          (t.dma port c).tag = some s.nextUid ∧ t.out = .hostRead port (descHost d) (min 4096 (descLen d)) s.nextUid :: s.out ∧ s.KeepsStores t) ∧
      (∀ d, (s.dma port c).desc = some d → s.badBridges = 0 → s.Plain (descDev d + (s.dma port c).got) data.length →
        let at_ := descDev d + (s.dma port c).got
        ∃ t, exec (.hostReadCompletion port tag true data false) s = .next t ∧ (∀ i b, data[i]? = some b → t.byte (at_ + i) = b) ∧
          (∀ x, x < at_ ∨ at_ + data.length ≤ x → t.byte x = s.byte x) ∧ (t.dma port c).got = (s.dma port c).got + data.length ∧ (t.dma port c).desc = some d))) ∧
  (∀ (port : PortId) (tag : Nat) (s : State), s.Quiet → s.reading port tag = false → exec (.completionTimeout port tag) s = .next s)

/-- BAR4 (R366, R367), configuration (R362, R365, R366, R369, R386) and port resets (R363, R391).
Choices of the model used here: log entries 44, 49 and 50. -/
def Obligations.Bar4ConfigAndResets : Prop :=
  (∀ (p : PortId) (off : BitVec 42) (len : Nat) (data : List (BitVec 8)) (s : State), s.badBridges = 0 →
    (∀ a, s.mayWrite p true = true → s.bar4Addr p off.toNat = some a → rangePopulated a data.length = true → s.locked a data.length = false → s.Plain a data.length →
      ∃ t, exec (.bar4Access p off true len data false) s = .next t ∧ (∀ i b, data[i]? = some b → t.byte (a + i) = b) ∧
        (∀ x, x < a ∨ a + data.length ≤ x → t.byte x = s.byte x)) ∧
    (s.mayWrite p true = true → s.bar4Addr p off.toNat = none → ∃ t, exec (.bar4Access p off true len data false) s = .next t ∧ s.Logs 0xA007 (srcHost p 0) 0 t ∧
      s.RegsBut eventReg t ∧ s.KeepsStores t) ∧
    (∀ a, s.ready = true → s.bar4Addr p off.toNat = some a → rangePopulated a len = true → s.Plain a len → ∃ t, exec (.bar4Access p off false len data false) s = .next t ∧
      t.out = .readData p (s.bytes a len) false :: s.out ∧ s.KeepsStores t) ∧
    (s.ready = true → s.bar4Addr p off.toNat = none → ∃ t, exec (.bar4Access p off false len data false) s = .next t ∧
      t.out.head? = some (.readData p (List.replicate len 0) false) ∧ s.Logs 0xA007 (srcHost p 0) 0 t ∧ s.RegsBut eventReg t ∧ s.KeepsStores t)) ∧
  (∀ (p : PortId) (s : State), (s.port p).perst = true → ∀ w, exec (.configurationRequest p w) s = .next s) ∧
  (∀ (p : PortId) (s : State), (s.port p).perst = false →
    (∀ en, ∃ t, exec (.configurationRequest p (.busMaster en)) s = .next t ∧ t.isSet (HST_STAT_BME p) = en ∧
      (en = false → ∀ c < 16, s.get (DMA_STAT_STATE p c) = 1 → t.get (DMA_STAT_STATE p c) = 2 ∧ t.get (DMA_STAT_ERR p c) = 3)) ∧
    (∀ d3, ∃ t, exec (.configurationRequest p (.powerState d3)) s = .next t ∧ t.get (HST_STAT_DSTATE p) = (if d3 then 3 else 0) ∧ s.KeepsStores t) ∧
    (∀ en mask, ∃ t, exec (.configurationRequest p (.msix en mask)) s = .next t ∧ (t.port p).msixEn = en ∧ (t.port p).msixMask = mask ∧ s.RegsBut eventReg t ∧ s.KeepsStores t) ∧
    (∀ code, ∃ t, exec (.configurationRequest p (.bar4Size code)) s = .next t ∧ (t.port p).bar4 = (if (s.port p).memSpace then (s.port p).bar4 else code.val) ∧
      t = { s with ports := t.ports }) ∧
    (∀ en, ∃ t, exec (.configurationRequest p (.memorySpace en)) s = .next t ∧ t.port p = { s.port p with memSpace := en } ∧ t = { s with ports := t.ports }) ∧
    (∀ en, ∃ t, exec (.configurationRequest p (.relaxedOrdering en)) s = .next t ∧ t.port p = { s.port p with relaxed := en } ∧ t = { s with ports := t.ports }) ∧
    (s.Quiet → (∃ t, exec (.perst p) s = .next t ∧ s.PortResets t p ∧ (t.port p).perst = true ∧ t.isSet (HST_STAT_LINKUP p) = false) ∧
      (∃ t, exec (.functionLevelReset p) s = .next t ∧ s.PortResets t p ∧ (t.port p).perst = false ∧ t.isSet (HST_STAT_LINKUP p) = s.isSet (HST_STAT_LINKUP p))) ∧
    (∃ t, exec (.hostPortLinkUp p) s = .next t ∧ t.isSet (HST_STAT_LINKUP p) = true ∧ s.KeepsStores t)) ∧
  (∀ (p : PortId) (s : State),
    (s.Quiet → s.isSet (HST_STAT_LINKUP p) = true → ∃ t, exec (.surpriseRemoval p) s = .next t ∧ s.PortResets t p ∧ t.isSet (HST_STAT_LINKUP p) = false) ∧
    (∃ t, exec (.perstDeassertion p) s = .next t ∧ t.port p = { s.port p with perst := false } ∧ t = { s with ports := t.ports }) ∧
    ((s.port p).perst = true → exec (.perst p) s = .next s ∧ exec (.functionLevelReset p) s = .next s ∧ exec (.hostPortLinkUp p) s = .next s) ∧
    (s.isSet (HST_STAT_LINKUP p) = false → exec (.surpriseRemoval p) s = .next s))

/-- The mailbox services (R380, R407, R410, R417, R418).
Choices of the model used here: log entries 32 and 36. -/
def Obligations.MailboxServices : Prop :=
  (∀ (s : State) (b : Block),
    (s.Asks 32 1040 b → ∃ t, exec .mbxTelemetry s = .next t ∧ s.Answers t 32 b 1 1040 ∧
        t.bytes (b.addr + 16) 1024 = if s.locked (b.addr + 16) 1024 then s.bytes (b.addr + 16) 1024 else s.sampleBytes) ∧
    (s.Asks 33 (32 + Config.chainLength.toNat) b →
      (Config.chainParses = true → ∃ t, exec .mbxCertificates s = .next t ∧ s.Answers t 33 b 1 (32 + Config.chainLength.toNat) ∧
        (s.locked b.addr (32 + Config.chainLength.toNat) = false →
          t.bytes (b.addr + 16) 4 = natBytes 4 Config.chainLength.toNat ∧ t.bytes (b.addr + 32) Config.chainLength.toNat = chain)) ∧
      (Config.chainParses = false → ∃ t, exec .mbxCertificates s = .next t ∧ s.Answers t 33 b 5 4)) ∧
    (s.Asks 34 4128 b →
      (∀ ok, s.byte (b.addr + 16) = 0 → s.tagBytes.length = 4096 → ∃ t, exec (.mbxTagArea ok) s = .next t ∧ s.Answers t 34 b 1 4128 ∧
        t.bytes (b.addr + 32) 4096 = (if s.locked (b.addr + 32) 4096 then s.bytes (b.addr + 32) 4096 else s.tagBytes) ∧ t.mgt.tag = s.mgt.tag) ∧
      (∀ ok, 2 ≤ (s.byte (b.addr + 16)).toNat → ∃ t, exec (.mbxTagArea ok) s = .next t ∧ s.Answers t 34 b 4 4 ∧ s.Logs 0xB003 srcCore 0 t ∧ t.mgt.tag = s.mgt.tag) ∧
      (∀ ok, s.byte (b.addr + 16) = 1 → b.owner = false → ∃ t, exec (.mbxTagArea ok) s = .next t ∧ s.Answers t 34 b 2 4 ∧ t.mgt.tag = s.mgt.tag) ∧
      (∀ ok, s.byte (b.addr + 16) = 1 → b.owner = true → ∃ t, exec (.mbxTagArea ok) s = .next t ∧ s.Answers t 34 b (if ok then 1 else 5) 4 ∧
        t.mgt.tag = (if ok then some (s.bytes (b.addr + 32) 4096) else s.mgt.tag) ∧ t.get SEC_TAGWR_CNT = min (s.get SEC_TAGWR_CNT + 1) (2 ^ 32 - 1) ∧
        s.Logs (if ok then 0xC006 else 0xC007) srcSecurity 0 t)) ∧
    (s.Asks 35 544 b →
      let c := headerCause (s.bytes (b.addr + 32) 512) s
      let n := 896 + imgLength (s.bytes (b.addr + 32) 512)
      (b.owner = false → ∃ t, exec .mbxUpdate s = .next t ∧ s.Answers t 35 b 2 4 ∧ t.mgt.update = s.mgt.update) ∧
      (b.owner = true → s.mgt.update ≠ none → ∃ t, exec .mbxUpdate s = .next t ∧ s.Answers t 35 b 3 4 ∧ t.mgt.update = s.mgt.update) ∧
      (b.owner = true → s.mgt.update = none → c ≠ 0 → ∃ t, exec .mbxUpdate s = .next t ∧ s.Answers t 35 b 5 4 ∧ s.UpdateEnds t c 0xC002 ∧ t.mgt.flash = s.mgt.flash) ∧
      (b.owner = true → s.mgt.update = none → c = 0 → rangePopulated (b.addr + 32) n = true → s.Plain (b.addr + 32) n →
        let img := s.bytes (b.addr + 32) n
        (signatureOk img = false → ∃ t, exec .mbxUpdate s = .next t ∧ s.Answers t 35 b 5 4 ∧ s.UpdateEnds t 3 0xC002 ∧ t.mgt.flash = s.mgt.flash) ∧
        (signatureOk img = true → ∃ t, exec .mbxUpdate s = .next t ∧ t.get (MBX_CONS_CONS 35) = (s.get (MBX_CONS_CONS 35) + 1) % 65536 ∧
          t.mgt.update = some { block := some b.name, size := n, staged := true, got := img, writing := true } ∧ t.get SEC_UPDSTAT_STATE = 3 ∧
          t.get SEC_UPDSTAT_ERR = 0 ∧ t.get SEC_UPDSTAT_PROGRESS = n / 65536 ∧ s.KeepsStores t))) ∧
    (s.Asks 36 64 b →
      let n := s.measurementResponse.length
      (rangePopulated b.addr (64 + n) = true → s.Plain b.addr (64 + n) → ∃ t, exec .mbxMeasurements s = .next t ∧ s.Answers t 36 b 1 (64 + n) ∧
        (s.locked (b.addr + 64) n = false → t.bytes (b.addr + 64) n = s.measurementResponse)) ∧
      (rangePopulated b.addr (64 + n) = false → ∃ t, exec .mbxMeasurements s = .next t ∧ s.Answers t 36 b 4 4 ∧ s.Logs 0xB003 srcCore 0 t)) ∧
    (∀ m : Fin 11, s.Asks (37 + m) 16 b → ∃ t, exec (.mbxReservedService m) s = .next t ∧ s.Answers t (37 + m) b 4 4 ∧ s.Logs 0xB003 srcCore 0 t)) ∧
  (∀ (s : State) (r : Reply) (rest : List Reply), s.coreServes = true → s.mgt.replies = r :: rest → r.mbox < 32 → r.status < 65536 → r.rgen = s.mailRole r.mbox →
    (s.mailHeld r.mbox < 16 → ∃ t, exec .replyRetry s = .next t ∧ s.Noticed t r.mbox r.addr r.status ∧ t.mgt.replies = rest ∧ s.KeepsStores t) ∧
    (16 ≤ s.mailHeld r.mbox → r.tries < 1000 → ∃ t, exec .replyRetry s = .next t ∧ t.mgt.replies = rest ++ [{ r with tries := r.tries + 1 }] ∧ t.regs = s.regs ∧ s.KeepsStores t) ∧
    (16 ≤ s.mailHeld r.mbox → 1000 ≤ r.tries → ∃ t, exec .replyRetry s = .next t ∧ t.mgt.replies = rest ∧ s.Logs 0xB004 srcCore 0 t ∧
      t.get MGT_REPDROP_CNT = min (s.get MGT_REPDROP_CNT + 1) (2 ^ 32 - 1) ∧ s.KeepsStores t)) ∧
  (∀ s : State, s.mgt.replies = [] → exec .replyRetry s = .next s)

/-- The core's duties (R397 to R399, R405, R415).
Choices of the model used here: log entries 33, 34 and 38. -/
def Obligations.ManagementDuties : Prop :=
  (∀ (s : State) (load : Fin 101) (vals : List (BitVec 32)),
    (s.coreServes = false → exec (.telemetrySample load vals) s = .next s) ∧
    (s.coreServes = true → load.val ≤ s.get MGT_CFG_SHEDTHR → vals.length = 31 → ∃ t, exec (.telemetrySample load vals) s = .next t ∧ t.get MGT_STAT_LOAD = load ∧
      t.get MGT_STAT_SHED = 0 ∧ t.mgt.sample = some (vals.map (·.toNat) ++ [s.deviceState] ++ (List.range 24).map fun n => s.get (LNK_STAT_STATE n)) ∧
      (∀ i < 26, t.get (PWR_TEMP_TEMP i) = (vals.getD i 0).toNat % 65536) ∧ s.RegsBut (fun a => a = aMGT_STAT ∨ ∃ i < 26, a = aPWR_TEMP i) t ∧ s.KeepsStores t) ∧
    (s.coreServes = true → s.get MGT_CFG_SHEDTHR < load.val → ∃ t, exec (.telemetrySample load vals) s = .next t ∧ t.get MGT_STAT_LOAD = load ∧ t.get MGT_STAT_SHED = 1 ∧
      t.get MGT_SHEDCNT_CNT = (s.get MGT_SHEDCNT_CNT + 1) % 2 ^ 64 ∧ t.mgt.sample = s.mgt.sample ∧ (s.mgt.shedEvent = none → s.Logs 0xB001 srcCore 0 t) ∧
      s.RegsBut (fun a => a = aMGT_STAT ∨ a = aMGT_SHEDCNT ∨ eventReg a) t ∧ s.KeepsStores t)) ∧
  (∀ s : State,
    (s.coreRuns = false → exec .watchdogReset s = .next s) ∧
    (s.coreRuns = true → ∃ t, exec .watchdogReset s = .next t ∧ t.get MGT_WDRSTCNT_CNT = min (s.get MGT_WDRSTCNT_CNT + 1) (2 ^ 32 - 1) ∧
      (∀ k < 16, t.get (MBX_CONS_CONS (32 + k)) = t.get (MBX_PROD_PROD (32 + k)) ∧ t.get (MBX_PROD_PROD (32 + k)) = s.get (MBX_PROD_PROD (32 + k))) ∧
      t.mgt.late = [] ∧ t.mgt.replies = [] ∧ t.mgt.update = none ∧ t.get GLB_BOOT_MGTRUN = t.get MGT_STAT_RUN ∧ t.get GLB_BOOT_FLASHV = t.get MGT_STAT_RUN ∧
      (s.mgt.update = none → t.mgt.flash = s.mgt.flash ∧ t.coreRuns = decide (flashCause s = 0)) ∧ s.KeepsStores t) ∧
    (∀ (p : PortId) (v : BitVec 8), s.mayWrite p true = true →
      (v.toNat = s.get SEC_SVN_IMAGE → s.get SEC_SVN_FUSED < v.toNat → s.mgt.commit = none → s.mgt.update = none →
        ∃ t, exec (.secSvncommit p v) s = .next t ∧ t = { s with mgt := { s.mgt with commit := some v.toNat } }) ∧
      (v.toNat ≠ s.get SEC_SVN_IMAGE ∨ v.toNat ≤ s.get SEC_SVN_FUSED ∨ s.mgt.commit ≠ none ∨ s.mgt.update ≠ none →
        ∃ t, exec (.secSvncommit p v) s = .next t ∧ s.Logs 0xC008 srcSecurity 0 t ∧ t.mgt = s.mgt ∧ s.RegsBut eventReg t ∧ s.KeepsStores t)) ∧
    (∀ v : BitVec 8, s.mgt.commit = some v.toNat → ∃ t, exec .svnFuseDone s = .next t ∧ t.get SEC_SVN_FUSED = v.toNat ∧ t.mgt = { s.mgt with commit := none } ∧
      s.Logs 0xC005 srcSecurity 0 t ∧ s.RegsBut (fun a => a = aSEC_SVN ∨ eventReg a) t ∧ s.KeepsStores t) ∧
    (s.mgt.commit = none → exec .svnFuseDone s = .next s))

/-- SPDM 1.2 over MCTP (R398, R411, R412). -/
def Obligations.SpdmAnswers : Prop :=
  ∀ (b : Binding) (req : List (BitVec 8)) (s : State),
    let direct (i : Instr) (msg : MctpMsg) : Prop := ∃ t, exec i s = .next t ∧ s.Says t b msg ∧ t.mgt = s.mgt
    let kept (i : Instr) (msg : MctpMsg) : Prop := ∃ t, exec i s = .next t ∧ s.Says t b (.spdmError .responseNotReady) ∧
      tabGet (fun _ => none) t.mgt.late (bindingNum b) = some msg
    let answers (i : Instr) (msg : MctpMsg) : Prop := (s.isSet MGT_STAT_SHED = false → direct i msg) ∧ (s.isSet MGT_STAT_SHED = true → direct i msg ∨ kept i msg)
    let le (i : Nat) : Nat := (req.getD i 0).toNat + 256 * (req.getD (i + 1) 0).toNat
    let slot0 : Prop := (req.getD 2 0).toNat % 16 = 0
    let signed (f : List Byte → Prop) : Prop := ∃ sig, f sig ∧ (((req.getD 2 0).getLsbD 0 = true ∧ sig.length = 384) ∨ ((req.getD 2 0).getLsbD 0 = false ∧ sig = []))
    (s.coreServes = true →
      answers (.getVersion b req) (.version [2]) ∧ answers (.spdmUnsupportedRequest b req) (.spdmError .unsupportedRequest) ∧
      (req.getD 0 0 = 0x12 →
        answers (.getCapabilities b req) (.capabilities true true 2 15) ∧ answers (.negotiateAlgorithms b req) .algorithms ∧
        answers (.getDigests b req) (.digests 1 (digestOf chain)) ∧
        (Config.chainParses = true → slot0 → le 4 < chain.length →
          answers (.getCertificate b req) (.certificate 0 ((chain.drop (le 4)).take (le 6)) (chain.length - le 4 - min (le 6) (chain.length - le 4)))) ∧
        (Config.chainParses = true → (¬ slot0 ∨ chain.length ≤ le 4) → answers (.getCertificate b req) (.spdmError .invalidRequest)) ∧
        (slot0 → ∃ sig : List Byte, sig.length = 384 ∧ answers (.challenge b req) (.challengeAuth 0 (digestOf chain) sig)) ∧
        (¬ slot0 → answers (.challenge b req) (.spdmError .invalidRequest)) ∧
        (req.getD 3 0 = 0 → answers (.getMeasurements b req) (.measurementCount s.measurements.length)) ∧
        (req.getD 3 0 = 0xFF → signed fun sig => answers (.getMeasurements b req) (.measurements s.measurements sig)) ∧
        (∀ m ∈ s.measurements, m.index = (req.getD 3 0).toNat → req.getD 3 0 ≠ 0xFF → signed fun sig => answers (.getMeasurements b req) (.measurements [m] sig)) ∧
        (req.getD 3 0 ≠ 0 → req.getD 3 0 ≠ 0xFF → (∀ m ∈ s.measurements, m.index ≠ (req.getD 3 0).toNat) →
          answers (.getMeasurements b req) (.spdmError .invalidRequest))) ∧
      (req.getD 0 0 ≠ 0x12 → answers (.getCapabilities b req) (.spdmError .versionMismatch) ∧ answers (.negotiateAlgorithms b req) (.spdmError .versionMismatch) ∧
        answers (.getDigests b req) (.spdmError .versionMismatch) ∧ answers (.getCertificate b req) (.spdmError .versionMismatch) ∧
        answers (.challenge b req) (.spdmError .versionMismatch) ∧ answers (.getMeasurements b req) (.spdmError .versionMismatch)) ∧
      (∀ msg, tabGet (fun _ => none) s.mgt.late (bindingNum b) = some msg → ∃ t, exec (.respondIfReady b req) s = .next t ∧ s.Says t b msg ∧
        tabGet (fun _ => none) t.mgt.late (bindingNum b) = none) ∧
      (tabGet (fun _ => none) s.mgt.late (bindingNum b) = none → direct (.respondIfReady b req) (.spdmError .unspecified))) ∧
    (s.coreServes = false → exec (.getVersion b req) s = .next s ∧ exec (.getMeasurements b req) s = .next s ∧ exec (.respondIfReady b req) s = .next s)

/-- MCTP and PLDM (R406, R410, R414, R415). -/
def Obligations.PldmAnswers : Prop :=
  ∀ (b : Binding) (s : State),
    let tells (i : Instr) (code : PldmCode) (data : List Byte) : Prop := ∃ t, exec i s = .next t ∧ s.Says t b (.pldm code data) ∧ t.mgt = s.mgt
    (s.mctpUp = false → exec (.gettid b) s = .next s ∧ (∀ e, exec (.setEndpointId b e) s = .next s) ∧ exec (.getpldmtypes b) s = .next s) ∧
    (s.mctpUp = true →
      (∀ eid : BitVec 8, ∃ t, exec (.setEndpointId b eid) s = .next t ∧ t.get (eidField b) = eid.toNat ∧ t.out = .mctp b (.endpointId eid.toNat) :: s.out ∧
        (∀ b', b' ≠ b → t.get (eidField b') = s.get (eidField b')) ∧ s.RegsBut (fun a => a = aMGT_EID) t ∧ s.KeepsStores t) ∧
      (s.isSet MGT_STAT_SHED = false →
        tells (.gettid b) .success (natBytes 1 s.mgt.tid) ∧
        (∀ tid : BitVec 8, ∃ t, exec (.settid b tid) s = .next t ∧ s.Says t b (.pldm .success []) ∧ t.mgt = { s.mgt with tid := tid.toNat }) ∧
        tells (.getpldmtypes b) .success (if s.coreServes then [0, 2, 4, 5] else [0, 5]) ∧
        (∀ ty : BitVec 8, ty.toNat ∈ s.pldmTypes → (∃ v : List Byte, v.length = 4 ∧ tells (.getpldmversion b ty) .success v) ∧
          tells (.getpldmcommands b ty) .success ((pldmCommands ty.toNat).flatMap (natBytes 1))) ∧
        (∀ ty : BitVec 8, ty.toNat ∉ s.pldmTypes → tells (.getpldmversion b ty) .invalidType [] ∧ tells (.getpldmcommands b ty) .invalidType [] ∧
          tells (.pldmInvalidType b ty) .invalidType []) ∧
        (s.coreServes = false → (∀ n, tells (.getsensorreading b n) .invalidType [] ∧ tells (.getstatesensorreadings b n) .invalidType []) ∧
          (∀ w d ok, tells (.pldmFruData b w d ok) .invalidType [])) ∧
        (s.coreServes = true →
          (∀ (n : BitVec 16) (l : List Nat), s.mgt.sample = some l → (n.toNat < 31 → tells (.getsensorreading b n) .success (natBytes 4 (l.getD n.toNat 0))) ∧
            (31 ≤ n.toNat → n.toNat < 56 → tells (.getstatesensorreadings b n) .success (natBytes 4 (l.getD n.toNat 0)))) ∧
          (∀ n : BitVec 16, s.mgt.sample = none → (n.toNat < 31 → ∃ v : List Byte, v.length = 4 ∧ tells (.getsensorreading b n) .success v) ∧
            (31 ≤ n.toNat → n.toNat < 56 → ∃ v : List Byte, v.length = 4 ∧ tells (.getstatesensorreadings b n) .success v)) ∧
          (∀ n : BitVec 16, (31 ≤ n.toNat → tells (.getsensorreading b n) .invalidSensor []) ∧
            (n.toNat < 31 ∨ 56 ≤ n.toNat → tells (.getstatesensorreadings b n) .invalidSensor [])) ∧
          (∀ eid : BitVec 8, ∃ t, exec (.seteventreceiver b eid) s = .next t ∧ s.Says t b (.pldm .success []) ∧ t.eventReceiver = some eid.toNat ∧ t.mgt = s.mgt) ∧
          (∀ req, ∃ v : List Byte, v.length = 112 ∧ tells (.pdrRepository b req) .success v) ∧
          (∀ d ok, tells (.pldmFruData b false d ok) .success s.fruData) ∧
          (∀ d ok, d.length ≠ 4096 → tells (.pldmFruData b true d ok) .error []) ∧
          (∀ d ok, d.length = 4096 → ∃ t, exec (.pldmFruData b true d ok) s = .next t ∧ t.out.head? = some (.mctp b (.pldm (if ok then .success else .error) [])) ∧
            t.mgt = { s.mgt with tag := if ok then some d else s.mgt.tag } ∧ t.get SEC_TAGWR_CNT = min (s.get SEC_TAGWR_CNT + 1) (2 ^ 32 - 1) ∧
            s.Logs (if ok then 0xC006 else 0xC007) srcSecurity 0 t ∧ s.RegsBut (fun a => a = aSEC_TAGWR ∨ eventReg a) t ∧ s.KeepsStores t))))

/-- RequestUpdate to ActivateFirmware (R406, R407).
Choices of the model used here: log entries 36, 37 and 39. -/
def Obligations.FirmwareUpdates : Prop :=
  (∀ (b : Binding) (size : Nat) (s : State), s.mctpUp = true → s.isSet MGT_STAT_SHED = false →
    let staged := !s.inRecovery && s.isSet SEC_UPDBUF_EN
    (s.mgt.update ≠ none → ∃ t, exec (.requestupdate b size) s = .next t ∧ s.Says t b (.pldm .alreadyInUpdateMode []) ∧ t.mgt = s.mgt) ∧
    let barred := !rangePopulated (s.get SEC_UPDBUF_BASE * 4096) 0x1000000 || s.locked (s.get SEC_UPDBUF_BASE * 4096) size
    (s.mgt.update = none → staged = true → barred = true →
      ∃ t, exec (.requestupdate b size) s = .next t ∧ s.Says t b (.pldm .error []) ∧ t.mgt = s.mgt) ∧
    (s.mgt.update = none → (staged = true → barred = false) →
      ∃ t, exec (.requestupdate b size) s = .next t ∧ t.mgt = { s.mgt with update := some { block := none, size := size, staged := staged } } ∧
        t.get SEC_UPDSTAT_STATE = 1 ∧ t.get SEC_UPDSTAT_ERR = 0 ∧ t.get SEC_UPDSTAT_PROGRESS = 0 ∧ t.out = .mctp b (.pldm .success []) :: s.out ∧
        s.RegsBut (fun a => a = aSEC_UPDSTAT) t ∧ s.KeepsStores t) ∧
    (s.get SEC_UPDSTAT_STATE = 4 → ∃ t, exec (.activatefirmware b) s = .next t ∧ s.Says t b (.activation true) ∧ t.mgt = s.mgt) ∧
    (s.get SEC_UPDSTAT_STATE ≠ 4 → ∃ t, exec (.activatefirmware b) s = .next t ∧ s.Says t b (.pldm .error []) ∧ t.mgt = s.mgt)) ∧
  (∀ (s : State) (j : UpdateJob) (data : List (BitVec 8)), s.mgt.update = some j → j.writing = false → s.mctpUp = true → data ≠ [] →
    let got := (j.got ++ data).take j.size
    let buf := s.get SEC_UPDBUF_BASE * 4096
    let head := min 512 j.size
    let crosses : Prop := s.inRecovery = false ∧ j.got.length < head ∧ head ≤ got.length
    let send := Instr.updateImageData j.got.length data
    (∀ off, off ≠ j.got.length → exec (.updateImageData off data) s = .next s) ∧
    (crosses → headerCause got s ≠ 0 → ∃ t, exec send s = .next t ∧ s.UpdateEnds t (headerCause got s) 0xC002 ∧ t.mgt.flash = s.mgt.flash ∧ s.KeepsStores t) ∧
    ((crosses → headerCause got s = 0) →
      (j.staged = true → s.Plain buf j.size → got.length < j.size → ∃ t, exec send s = .next t ∧ t.mgt = { s.mgt with update := some { j with got := got } } ∧
        t.get SEC_UPDSTAT_PROGRESS = got.length / 65536 % 65536 ∧
        (∀ i x, (got.drop j.got.length)[i]? = some x → t.byte (buf + j.got.length + i) =
          if s.locked (buf + j.got.length) (got.length - j.got.length) then s.byte (buf + j.got.length + i) else x) ∧
        (∀ x, x < buf + j.got.length ∨ buf + got.length ≤ x → t.byte x = s.byte x)) ∧
      (j.staged = true → s.Plain buf j.size → got.length = j.size → ∃ t, exec send s = .next t ∧
        (∀ x, x < buf + j.got.length ∨ buf + got.length ≤ x → t.byte x = s.byte x) ∧
        (signatureOk (t.bytes buf j.size) = true → t.mgt = { s.mgt with update := some { j with got := t.bytes buf j.size, writing := true } } ∧ t.get SEC_UPDSTAT_STATE = 3) ∧
        (signatureOk (t.bytes buf j.size) = false → s.UpdateEnds t 3 0xC002 ∧ t.mgt.flash = s.mgt.flash)) ∧
      (j.staged = false → (s.inRecovery = true ∨ head ≤ got.length) → ∃ t, exec send s = .next t ∧ t.mgt.flash = .holds got ∧
        t.mgt.update = some { j with got := got, writing := decide (got.length = j.size) } ∧
        t.get SEC_UPDSTAT_STATE = (if got.length = j.size then 3 else s.get SEC_UPDSTAT_STATE) ∧ s.KeepsStores t))) ∧
  (∀ (s : State) (j : UpdateJob), s.mgt.update = some j → s.Quiet →
    (j.writing = true → s.inRecovery = false →
      let answered (t : State) (status : Nat) : Prop := ∀ name, j.block = some name → rangePopulated (name % 2 ^ 48) 16 = true → s.Plain (name % 2 ^ 48) 16 →
        t.bytes (name % 2 ^ 48) 4 = if s.locked (name % 2 ^ 48) 4 then s.bytes (name % 2 ^ 48) 4 else natBytes 4 status
      (imageCause j.got s = 0 → ∃ t, exec (.updateFlashDone true) s = .next t ∧ t.get SEC_UPDSTAT_STATE = 4 ∧ t.get SEC_UPDSTAT_ERR = 0 ∧
        (t.rd aSEC_PENDVER).toNat = imgFwver j.got ∧ t.isSet GLB_BOOT_UPDPEND = true ∧ t.isSet GLB_BOOT_FLASHV = true ∧ t.mgt.flash = .holds j.got ∧
        t.mgt.update = none ∧ s.Logs 0xC004 srcSecurity 0 t ∧ answered t 1 ∧ (j.block = none → s.KeepsStores t)) ∧
      (imageCause j.got s ≠ 0 → ∃ t, exec (.updateFlashDone true) s = .next t ∧ s.UpdateEnds t (imageCause j.got s) 0xC003 ∧ t.isSet GLB_BOOT_FLASHV = false ∧
        t.mgt.flash = .holds j.got ∧ answered t 5) ∧
      (∃ t, exec (.updateFlashDone false) s = .next t ∧ s.UpdateEnds t 6 0xC003 ∧ t.isSet GLB_BOOT_FLASHV = false ∧ t.mgt.flash = .torn ∧ answered t 5)) ∧
    (j.writing = true → s.inRecovery = true →
      (imageCause j.got s = 0 → ∃ t, exec (.updateFlashDone true) s = .next t ∧ s.Restarts t ∧ t.mgt.flash = .holds j.got) ∧
      (∃ t, exec (.updateFlashDone false) s = .next t ∧ t.boot.phase = .recovery ∧ t.get GLB_BOOT_STATE = 5 ∧ t.get SEC_UPDSTAT_STATE = 5 ∧ t.get SEC_UPDSTAT_ERR = 6 ∧
        t.mgt.update = none ∧ t.mgt.flash = .torn)) ∧
    (j.writing = false → exec (.updateFlashDone true) s = .next s ∧ exec (.updateFlashDone false) s = .next s ∧
      (s.inRecovery = true → ∃ t, exec .recoveryUpdateTimeout s = .next t ∧ t.mgt = { s.mgt with update := none } ∧ t.get SEC_UPDSTAT_STATE = 0 ∧
        s.RegsBut (fun a => a = aSEC_UPDSTAT) t ∧ s.KeepsStores t))) ∧
  (∀ s : State, s.mgt.update = none → exec .recoveryUpdateTimeout s = .next s ∧ (∀ ok, exec (.updateFlashDone ok) s = .next s))

/-- The resets (R376, R401, R426 to R434, R457).
Choices of the model used here: log entries 7, 38, 42, 43, 44 and 45. -/
def Obligations.ResetRows : Prop :=
  (∀ s : State, ∃ t, exec .coldReset s = .next t ∧ t.mem = s.mem ∧ t.poison = s.poison ∧ t.errs = s.errs ∧ t.ques = [] ∧ t.banks = [] ∧
    t.links = [] ∧ t.wheels = [] ∧ t.fab = {} ∧ t.boot = { resetN := false, straps := s.boot.straps } ∧
    (∀ a, a ≠ aPWR_STAT → a ≠ aSEC_SVN → a ≠ aSEC_TAGWR → t.rd a = regReset a) ∧ t.rd aSEC_TAGWR = s.rd aSEC_TAGWR ∧
    t.get PWR_STAT_VALID = s.get PWR_STAT_VALID ∧ t.get PWR_STAT_PROCHOT = s.get PWR_STAT_PROCHOT ∧
    (s.mgt.commit = none → t.get SEC_SVN_FUSED = s.get SEC_SVN_FUSED) ∧
    (∀ v, s.mgt.commit = some v → s.get SEC_SVN_FUSED ≤ v → v < 256 → s.get SEC_SVN_FUSED ≤ t.get SEC_SVN_FUSED ∧ t.get SEC_SVN_FUSED ≤ v)) ∧
  (∀ (p : PortId) (key : BitVec 8) (s : State), s.mayWrite p true = true →
    (key ≠ 0xD5 → exec (.deviceReset p key) s = .next s) ∧
    (key = 0xD5 → s.evr.copies ≠ [] → s.railUp 4 = true → ∃ t, exec (.deviceReset p key) s = .next t ∧ t = { s with boot := { s.boot with waiting := true } }) ∧
    (key = 0xD5 → (s.evr.copies = [] ∨ s.railUp 4 = false) → ∃ t, exec (.deviceReset p key) s = .next t ∧ s.Restarts t ∧ t.get GLB_RSTCAUSE_LAST = 1 ∧
      t.get GLB_RSTCAUSE_CODE = 0 ∧ ((∀ g < 25, s.ldBusy g = false) → t.mem = s.mem ∧ t.poison = s.poison ∧ t.errs = s.errs ∧
        ∀ a, keptByDeviceReset a = false → a ∉ [aPWR_STAT, aSEC_SVN, aGLB_BOOT, aGLB_RSTCAUSE] → (∀ x < 24, a < aELE_PROG x 0 0 ∨ aELE_PROG x 16 0 ≤ a) →
          t.rd a = regReset a))) ∧
  (∀ (p : PortId) (x : TileId) (s : State), s.mayWrite p true = true → s.Quiet →
    let b := 0x1000000 + x.val * 0x100000
    ∃ t, exec (.tileReset p x) s = .next t ∧ (∀ k < 5, t.que (x.val * 5 + k) = {}) ∧ t.gate x = {} ∧ t.get (TIL_GATE_STATE x) = 2 ∧
      (∀ k, k < 4 * 2048 * 128 → tabGet (fun _ => 0) t.banks (x.val * (4 * 2048 * 128) + k) = 0) ∧
      (∀ o, o < 0x100000 → (o < 0x200 ∨ 0x280 ≤ o) → b + o ≠ aTIL_GATE x → (o < 0x31000 ∨ 0x31800 ≤ o) → s.ldBusy x = false → t.rd (b + o) = regReset (b + o)) ∧
      (∀ f ∈ [TIL_GATE_PG_EN x.val, TIL_GATE_PG_IDLE x.val, TIL_GATE_CG_IDLE x.val], t.get f = s.get f) ∧
      s.RegsBut (fun a => b ≤ a ∧ a < b + 0x100000 ∧ (a < b + 0x200 ∨ b + 0x280 ≤ a)) t ∧
      (s.ldBusy x = false → t.mem = s.mem ∧ t.poison = s.poison ∧ t.errs = s.errs))

/-- Start-up (R400 to R406, R443, R457, R458, R470, R177, R193).
Choices of the model used here: log entries 8, 37, 43 and 44. -/
def Obligations.BootSequence : Prop :=
  ∀ s : State,
    let starts (t : State) : Prop := t.boot.phase = (if s.boot.phase = .held ∧ t.supplied = true ∧ t.boot.resetN = true
      then (if s.boot.cold = true ∧ t.boot.straps.testBit 2 = true then BootPhase.stuck else .rom) else s.boot.phase)
    (∀ r : Rail, ∃ t, exec (.supplyValid r) s = .next t ∧ t.railUp r = true ∧ (∀ r' < 11, r' ≠ r.val → t.railUp r' = s.railUp r') ∧ starts t ∧
      s.RegsBut (fun a => a = aPWR_STAT ∨ a = aGLB_BOOT) t ∧ s.KeepsStores t) ∧
    (∀ v : BitVec 3, (s.boot.resetN = true → exec (.resetNRise v) s = .next s) ∧
      (s.boot.resetN = false → ∃ t, exec (.resetNRise v) s = .next t ∧ t.boot.resetN = true ∧ t.boot.straps = v.toNat ∧ starts t ∧
        s.RegsBut (fun a => a = aGLB_BOOT) t ∧ s.KeepsStores t)) ∧
    (s.boot.phase ≠ .rom → exec .bootRomCheck s = .next s) ∧
    (s.boot.phase = .rom → flashCause s = 0 → ∃ t, exec .bootRomCheck s = .next t ∧ t.boot.phase = .firmware ∧ t.get GLB_BOOT_STATE = 2 ∧ t.isSet GLB_BOOT_FLASHV = true ∧
      t.get EVR_FLCNT_CNT = s.evr.flash.length % 128 ∧ s.RegsBut (fun a => a = aGLB_BOOT ∨ (0x200000 ≤ a ∧ a < 0x300000)) t ∧ s.KeepsStores t) ∧
    (s.boot.phase = .rom → flashCause s ≠ 0 → ∃ t, exec .bootRomCheck s = .next t ∧ t.boot.phase = .recovery ∧ t.get GLB_BOOT_STATE = 5 ∧
      t.get GLB_BOOT_CAUSE = flashCause s ∧ t.isSet GLB_BOOT_FLASHV = false ∧ t.isSet EVR_STAT_ANY = true) ∧
    (s.boot.phase ≠ .firmware → exec .firmwareStart s = .next s) ∧
    (s.boot.phase = .firmware → ∃ t, exec .firmwareStart s = .next t ∧ t.boot.phase = .memory ∧ t.rd aGLB_FWVER = BitVec.ofNat 64 s.mgt.flash.fwver ∧
      t.get SEC_SVN_IMAGE = s.mgt.flash.svn % 256 ∧ t.isSet GLB_BOOT_MGTRUN = true ∧ t.coreRuns = true ∧ t.mgt = { s.mgt with running := s.mgt.flash.digest } ∧
      (∀ r < 5, t.get (PWR_VSET_MV r) = (Config.setpoint r).toNat) ∧
      t.out = (((List.range 5).map fun r => Out.avs r (Config.setpoint r).toNat).reverse) ++ s.out ∧
      s.RegsBut (fun a => a ∈ [aGLB_FWVER, aSEC_SVN, aGLB_BOOT, aMGT_STAT, aMGT_LIBIDX] ∨ ∃ r < 5, a = aPWR_VSET r) t ∧ s.KeepsStores t) ∧
    (∀ refused : List (Fin 20),
      (s.boot.phase ≠ .memory → exec (.memoryInitialisation refused) s = .next s) ∧
      (s.boot.phase = .memory → ∃ t, exec (.memoryInitialisation refused) s = .next t ∧
        (∀ k : Fin 16, t.get (HBC_STAT_STATE k) = (if k.castLE (by decide) ∈ refused then 2 else 1) ∧ t.get (HBC_STAT_EXT k) = if k.castLE (by decide) ∈ refused then 0 else 1) ∧
        (∀ k : Fin 4, t.get (LPC_STAT_STATE k) = if k.natAdd 16 ∈ refused then 2 else 1) ∧
        (refused ≠ [] → t.boot.phase = .stuck) ∧
        (refused = [] → t.boot.phase = (if s.boot.cold || s.boot.lost then .clear else .last) ∧ (s.boot.cold = true → t.get GLB_BOOT_STATE = 3 ∧
          t.rd aGLB_SERIAL = Config.serial ∧ t.rd aGLB_PARTNO = 0x41004100 ∧ t.rd aGLB_STEPPING = 0x11 ∧
          (∀ n < 6, t.rd (aGLB_DIEID n) = Config.dieId n) ∧ (∀ n < 16, t.rd (aGLB_STACKID n) = Config.stackId n)) ∧ s.KeepsStores t))) ∧
    (s.boot.phase ≠ .clear → exec .memoryClear s = .next s) ∧
    (s.boot.phase = .clear → ∃ t, exec .memoryClear s = .next t ∧ t = { s with mem := [], poison := [], errs := [], boot := { s.boot with phase := .last, lost := false } }) ∧
    (∀ ms : BitVec 16,
      (s.boot.phase ≠ .last → exec (.deviceReady ms) s = .next s) ∧
      (s.boot.phase = .last → ∃ t, exec (.deviceReady ms) s = .next t ∧ t.ready = true ∧ t.get GLB_BOOT_BOOTMS = ms.toNat ∧ t.boot.phase = .done ∧ s.KeepsStores t ∧
        (s.boot.cold = false → (∀ n < 24, s.isSet (LNK_CTRL_EN n) = false) → (s.set GLB_BOOT_STATE 4).Logs 0xB006 srcRecorder (s.rd aGLB_RSTCAUSE).toNat t) ∧
        (∀ n < 24, s.isSet (LNK_CTRL_EN n) = true → t.lstate n = lTraining)))

/-- R440, whole, in the state in which the unit that detects the occurrence has acted on it. -/
def Obligations.OccurrencesFold : Prop :=
  ∀ (code source : BitVec 16) (detail : BitVec 64) (s0 : State), ¬ (code = 0x500E ∧ source.toNat = srcRecorder) →
    let s := unitEffect code.toNat source.toNat detail s0
    s.isSet EVR_STAT_ANY = true →
    let i := s.get EVR_HEAD_SEQ % 4096
    let sev := (sevOf code.toNat (s.degraded source.toNat)).num
    let ref := match s.evr.lastFold with
      | some f => f
      | none => (s.rd (aEVR_REC i 0)).toNat
    let folds : Prop := (s.rd (aEVR_REC i 1)).toNat / 2 ^ 32 = code.toNat + 65536 * source.toNat ∧ (s.rd (aEVR_REC i 2)).toNat / 65536 % 256 = sev ∧
      ref ≤ s.now ∧ s.now < ref + 4000000 ∧ (s.rd (aEVR_REC i 2)).toNat % 65536 < 65535
    (folds → ∃ t, exec (.eventRecord code source detail) s0 = .next t ∧ (t.rd (aEVR_REC i 2)).toNat = (s.rd (aEVR_REC i 2)).toNat + 1 ∧
      s.RegsBut (fun a => a = aEVR_REC i 2) t ∧ t.evr = { s.evr with lastFold := some s.now } ∧ t.out = s.out ∧ s.KeepsStores t) ∧
    (¬ folds → ∃ t, exec (.eventRecord code source detail) s0 = .next t ∧ (∀ w < 4, t.rd (aEVR_REC i w) = s.rd (aEVR_REC i w)) ∧
      (t.get EVR_HEAD_SEQ = (s.get EVR_HEAD_SEQ + 1) % 2 ^ 32 ∨
        (t.get EVR_HEAD_SEQ = s.get EVR_HEAD_SEQ ∧ tabGet (fun _ => false) t.evr.dropped code.toNat = true ∧
          (sev = 1 ∧ t.get EVR_DROPCNT_AMBER = min (s.get EVR_DROPCNT_AMBER + 1) (2 ^ EVR_DROPCNT_AMBER.width - 1) ∨
            sev = 0 ∧ t.get EVR_DROPCNT_GREY = min (s.get EVR_DROPCNT_GREY + 1) (2 ^ EVR_DROPCNT_GREY.width - 1)))))

/-- Recording and red containment (R423, R426, R427, R435 to R444).
Choices of the model used here: log entries 44, 54 and 62. -/
def Obligations.RecordsAndContainment : Prop :=
  (∀ (code source : BitVec 16) (detail : BitVec 64) (s0 : State), ¬ (code = 0x500E ∧ source.toNat = srcRecorder) →
    let s := unitEffect code.toNat source.toNat detail s0
    let sev := (sevOf code.toNat (s.degraded source.toNat)).num
    foldsInto code.toNat source.toNat sev s = false →
    (sev = 2 ∨ tabGet (fun _ => 0) s.evr.spent (2 * code.toNat + sev) < burst sev s) → ∃ t, exec (.eventRecord code source detail) s0 = .next t ∧
      let seq := if s.isSet EVR_STAT_ANY then (s.get EVR_HEAD_SEQ + 1) % 2 ^ 32 else 0
      let i := seq % 4096
      t.get EVR_HEAD_SEQ = seq ∧ t.isSet EVR_STAT_ANY = true ∧ t.rd (aEVR_REC i 0) = s.rd aFTM_NOW ∧
      (t.rd (aEVR_REC i 1)).toNat = seq + code.toNat * 2 ^ 32 + source.toNat * 2 ^ 48 ∧
      (t.rd (aEVR_REC i 2)).toNat = sev * 2 ^ 16 + ((tabGet (fun _ => false) s.evr.dropped code.toNat).toNat + (if s.ready then 0 else 4)) * 2 ^ 24 + detail.toNat % 2 ^ 32 * 2 ^ 32 ∧
      (t.rd (aEVR_REC i 3)).toNat = detail.toNat / 2 ^ 32 + s.step40 (srcSet source.toNat) % 65536 * 2 ^ 32 + 0x5A * 2 ^ 56 ∧
      tabGet (fun _ => false) t.evr.dropped code.toNat = false ∧ (sev ≠ 2 → tabGet (fun _ => 0) t.evr.spent (2 * code.toNat + sev) = tabGet (fun _ => 0) s.evr.spent (2 * code.toNat + sev) + 1) ∧
      (sev = 2 → s.isSet EVR_STAT_RED = false → t.isSet EVR_STAT_RED = true ∧ t.isSet EVR_STAT_FAULT = true ∧ t.armed = false ∧ t.evr.copies = s.evr.copies ++ [seq] ∧
        (∀ q < 125, t.qstate q = qFrozen ∧ (s.isSet (QUE_FREEZEREC_VALID q) = false → t.get (QUE_FREEZEREC_CODE q) = code.toNat ∧ t.isSet (QUE_FREEZEREC_RESUME q) = false)) ∧
        (∀ a < 4, (t.wheel a).coll = none) ∧ (s.ready = true → code ≠ 0xB008 → s.evr.escalate = none → t.evr.escalate = some code.toNat))) ∧
  (∀ (detail : BitVec 64) (s : State),
    let frozen (q code : Nat) (t : State) : Prop := t.qstate q = qFrozen ∧ (∀ k < 125, k ≠ q → t.qstate k = s.qstate k) ∧
      (s.isSet (QUE_FREEZEREC_VALID q) = false → t.get (QUE_FREEZEREC_CODE q) = code ∧ t.isSet (QUE_FREEZEREC_RESUME q) = false)
    (∃ t, exec (.eventRecord 0x500E (BitVec.ofNat 16 srcRecorder) detail) s = .next t ∧ t.get ⟨aEVR_REC (detail.toNat % 4096) 3, 56, 8⟩ = 0 ∧
      s.RegsBut (fun a => a = aEVR_REC (detail.toNat % 4096) 3) t ∧ t = { s with regs := t.regs }) ∧
    (∀ q : QId, s.qstate q = qRunning → s.Fresh q → ∃ t, exec (.eventRecord 0x300C (BitVec.ofNat 16 (srcQueue q)) detail) s = .next t ∧ frozen q 0x300C t ∧
      s.get (QUE_STAT_PC q) / 2 ∈ (t.que q).bad ∧ (t.que q).issued = (s.que q).issued ∧ t.get (QUE_STAT_PC q) = s.get (QUE_STAT_PC q) ∧ s.KeepsStores t) ∧
    (∀ (x : TileId) (e : Issued), s.inEngine (x.val * 5 + 2) = some e → ∃ t, exec (.eventRecord 0x2001 (BitVec.ofNat 16 (srcTile x 2 0)) detail) s = .next t ∧
      frozen (x.val * 5 + 2) 0x2001 t ∧ t.isSet (ELE_STAT_ABORT x) = true ∧ ∀ e' ∈ (t.que (x.val * 5 + 2)).issued, e'.uid = e.uid → e'.status = .rerun) ∧
    (∀ (a : Fin 4) (c : Coll), s.Quiet → (s.wheel a).coll = some c → ∃ t, exec (.eventRecord 0x8007 (BitVec.ofNat 16 (srcWheel a)) detail) s = .next t ∧
      (t.wheel a).coll = none ∧ t.get (WHL_STAT_LAST a) = 7 ∧ t.get (WHL_STAT_STATE a) = 0 ∧ t.qstate (120 + a) = qFrozen) ∧
    (∀ (x : TileId) (m : Fin 2), ∃ t, exec (.eventRecord 0x1006 (BitVec.ofNat 16 (srcTile x m 0)) detail) s = .next t ∧ ∃ g < 256,
      t.groupValid ((x.val * 2 + m.val) * 256 + g) = false ∧
      (∀ k < 48 * 256, k ≠ (x.val * 2 + m.val) * 256 + g → t.groupValid k = s.groupValid k) ∧ s.KeepsStores t)) ∧
  (∀ (b : Fin 8) (s : State), ∃ t, exec (.bridgeError b) s = .next t ∧ t.badBridges.testBit b = true ∧ (∀ k, k ≠ b.val → t.badBridges.testBit k = s.badBridges.testBit k) ∧
    s.Logs 0x500D srcDevice b t) ∧
  (∀ s : State, (s.evr.spent.map (·.1)).Nodup → ∃ t, exec .tokenRefill s = .next t ∧ t = { s with evr := { s.evr with spent := t.evr.spent } } ∧
    ∀ k, tabGet (fun _ => 0) t.evr.spent k = tabGet (fun _ => 0) s.evr.spent k - (if k % 2 = 1 then s.get EVR_RATE_AREFILL else s.get EVR_RATE_GREFILL)) ∧
  (∀ (p : PortId) (s : State), s.mayWrite p true = true → ∃ t, exec (.evrFaultClear p) s = .next t ∧ t.isSet EVR_STAT_FAULT = false ∧
    (∀ f ∈ [EVR_STAT_HELD, EVR_STAT_RED, EVR_STAT_ANY, EVR_STAT_ESCCNT], t.get f = s.get f) ∧ s.RegsBut (fun a => a = aEVR_STAT) t ∧ t = { s with regs := t.regs }) ∧
  (∀ (seq : Nat) (rest : List Nat) (s : State), s.evr.copies = seq :: rest →
    (s.railUp 4 = false → ∀ ok, exec (.redFlashCopy ok) s = .next s) ∧
    (s.railUp 4 = true → (rest ≠ [] ∨ s.boot.waiting = false) →
      (s.evr.retried = false → ∃ t, exec (.redFlashCopy false) s = .next t ∧ t = { s with evr := { s.evr with retried := true } }) ∧
      (s.evr.retried = true → ∃ t, exec (.redFlashCopy false) s = .next t ∧ s.RegsBut eventReg t ∧ t.evr.copies = rest ∧ t.evr.retried = false ∧ t.evr.flash = s.evr.flash ∧
        (∀ a, 0x200000 ≤ a → a < 0x300000 → t.rd a = (event 0xB007 srcRecorder s).rd a)) ∧
      (getBits (s.rd (aEVR_REC (seq % 4096) 1)).toNat 0 32 = seq → ∃ t, exec (.redFlashCopy true) s = .next t ∧ t.evr.copies = rest ∧
        (∃ n, t.evr.flash.getLast? = some (n, s.ringRecord (seq % 4096)) ∧ ∀ e, s.evr.flash.getLast? = some e → n = e.1 + 1) ∧ t.evr.flash.length ≤ 64 ∧
        (t.rd (aEVR_REC (seq % 4096) 2)).getLsbD 25 = true ∧ s.RegsBut (fun a => a = aEVR_REC (seq % 4096) 2) t ∧ s.KeepsStores t)) ∧
    (s.railUp 4 = true → rest = [] → s.boot.waiting = true → ∃ t, exec (.redFlashCopy true) s = .next t ∧ s.Restarts t ∧ t.get GLB_RSTCAUSE_LAST = 1)) ∧
  (∀ s : State, s.evr.copies = [] → ∀ ok, exec (.redFlashCopy ok) s = .next s) ∧
  (∀ s : State, (s.evr.escalate = none → exec .redEscalation s = .next s) ∧
    (∀ code, s.evr.escalate = some code →
      let recent := s.evr.escTimes.filter fun t => decide (s.since t < 14400000000000)
      (recent.length < s.get EVR_ESC_LIMIT → ∃ t, exec .redEscalation s = .next t ∧ s.Restarts t ∧ t.get GLB_RSTCAUSE_LAST = 2 ∧
        t.get GLB_RSTCAUSE_CODE = code % 65536 ∧ t.evr.escTimes = recent ++ [s.now] ∧ t.get EVR_STAT_ESCCNT = min 255 (recent.length + 1)) ∧
      (s.get EVR_ESC_LIMIT ≤ recent.length → ∃ t, exec .redEscalation s = .next t ∧ t.get EVR_STAT_HELD = 1 ∧ t.evr.escTimes = recent ∧
        t.get EVR_STAT_ESCCNT = min 255 recent.length ∧ t.evr.escalate = none)))

/-- The power controller (R453 to R465, R473).
Choices of the model used here: log entries 41 and 42. -/
def Obligations.PowerRows : Prop :=
  (∀ (d : Domain) (s : State), let x := s.dom d
    (∀ temp : BitVec 16, let thr : Int := s.get PWR_THR_TJTHR * 10
      let frame (t : State) : Prop := t.get (PWR_TEMP_TEMP d) = temp.toNat ∧ s.RegsBut (fun a => a = aPWR_TEMP d ∨ a = aPWR_STRETCH d ∨ eventReg a) t ∧ s.KeepsStores t
      (thr ≤ temp.toInt → ∃ t, exec (.junctionThrottle d temp) s = .next t ∧ frame t ∧ t.dom d = { x with hot := true, hotReq := max x.hotReq 1 } ∧
        (t.get (PWR_STRETCH_CAUSE d)).testBit 0 = true ∧ (x.hotReq = 0 → s.Logs 0xD002 (srcPower d) 0 t)) ∧
      (temp.toInt ≤ thr - 30 → x.hotReq ≠ 0 → ∃ t, exec (.junctionThrottle d temp) s = .next t ∧ frame t ∧ t.dom d = { x with hot := false, hotReq := 0 } ∧
        (t.get (PWR_STRETCH_CAUSE d)).testBit 0 = false ∧ s.Logs 0xD003 (srcPower d) 0 t) ∧
      (temp.toInt < thr → (thr - 30 < temp.toInt ∨ x.hotReq = 0) → ∃ t, exec (.junctionThrottle d temp) s = .next t ∧ frame t ∧ t.dom d = { x with hot := false } ∧ t.evr = s.evr)) ∧
    (∀ mean : BitVec 16, let cap := s.get (PWR_ICAP_ICAP d) * 10
      let frame (t : State) : Prop := s.RegsBut (fun a => a = aPWR_STRETCH d ∨ eventReg a) t ∧ s.KeepsStores t
      (cap < mean.toNat → ∃ t, exec (.currentCap d mean) s = .next t ∧ frame t ∧ t.dom d = { x with above := true, capOn := true, capReq := max x.capReq 1 } ∧
        (t.get (PWR_STRETCH_CAUSE d)).testBit 2 = true ∧ (x.capReq = 0 → s.Logs 0xD008 (srcPower d) 0 t)) ∧
      (mean.toNat * 100 ≤ cap * 95 → x.warn = false → x.capReq ≠ 0 → ∃ t, exec (.currentCap d mean) s = .next t ∧ frame t ∧
        t.dom d = { x with above := false, capOn := false, capReq := 0 } ∧ s.Logs 0xD003 (srcPower d) 2 t) ∧
      (mean.toNat ≤ cap → cap * 95 < mean.toNat * 100 → ∃ t, exec (.currentCap d mean) s = .next t ∧ t = s.setDom d { x with above := false })) ∧
    (∃ t, exec (.throttleStep d) s = .next t ∧ let now := s.get (PWR_STRETCH_S d)
      t.dom d = { x with hotReq := raised x.hot x.hotReq now, capReq := raised (x.above || x.warn) x.capReq now } ∧
      t.get (PWR_STRETCH_S d) = (if now < t.stretchAsked d then (now + 1) % 16 else if t.stretchAsked d < now then now - 1 else now) ∧
      s.RegsBut (fun a => a = aPWR_STRETCH d) t ∧ s.KeepsStores t) ∧
    (∀ (p : PortId) (v : BitVec 4), s.mayWrite p true = true →
      (v.toNat ≤ 12 → ∃ t, exec (.pwrForce p d v) s = .next t ∧ t.get (PWR_STRETCH_FORCE d) = v.toNat ∧ (t.get (PWR_STRETCH_CAUSE d)).testBit 3 = decide (v ≠ 0) ∧
        t.get (PWR_STRETCH_S d) = s.get (PWR_STRETCH_S d) ∧ s.RegsBut (fun a => a = aPWR_STRETCH d) t ∧ s.KeepsStores t) ∧
      (12 < v.toNat → ∃ t, exec (.pwrForce p d v) s = .next t ∧ t.get (PWR_STRETCH_FORCE d) = s.get (PWR_STRETCH_FORCE d) ∧
        s.Logs 0xD009 (srcPower 0) (aPWR_STRETCH d) t))) ∧
  (∀ s : State,
    (s.isSet PWR_STAT_PROCHOT = true → exec .prochotNAssert s = .next s) ∧ (s.isSet PWR_STAT_PROCHOT = false → exec .prochotNRelease s = .next s) ∧
    (s.isSet PWR_STAT_PROCHOT = false → ∃ t, exec .prochotNAssert s = .next t ∧ t.isSet PWR_STAT_PROCHOT = true ∧
      (∀ d < 4, (t.get (PWR_STRETCH_CAUSE d)).testBit 1 = true ∧ t.get (PWR_STRETCH_S d) = s.get (PWR_STRETCH_S d)) ∧ s.Logs 0xD005 (srcPower 0) 0 t ∧ s.KeepsStores t) ∧
    (s.isSet PWR_STAT_PROCHOT = true → ∃ t, exec .prochotNRelease s = .next t ∧ t.isSet PWR_STAT_PROCHOT = false ∧
      (∀ d < 4, (t.get (PWR_STRETCH_CAUSE d)).testBit 1 = false) ∧ s.Logs 0xD003 (srcPower 0) 1 t ∧ s.KeepsStores t)) ∧
  (∀ (iface : Fin 2) (s : State), let n := tabGet (fun _ => 0) s.pwr.fails iface + 1
    (∀ l : List (BitVec 16), ∃ t, exec (.avsCurrentRead iface (some l)) s = .next t ∧ tabGet (fun _ => 0) t.pwr.fails iface = 0 ∧
      (∀ (i r : Nat) (v : BitVec 16), (avsRails iface)[i]? = some r → l[i]? = some v → t.get (PWR_IMEAS_CUR r) = v.toNat) ∧ (∀ r ∈ avsRails iface, r < 4 → (t.dom r).unread = false)) ∧
    (∃ t, exec (.avsCurrentRead iface none) s = .next t ∧ tabGet (fun _ => 0) t.pwr.fails iface = n ∧ t.get PWR_AVSERR_CNT = min (s.get PWR_AVSERR_CNT + 1) (2 ^ 32 - 1) ∧
      (∀ r < 5, t.get (PWR_IMEAS_CUR r) = s.get (PWR_IMEAS_CUR r)) ∧
      (n = 3 → t.isSet PWR_STAT_AVSERR = true ∧ s.Logs 0xD006 (srcPower (if iface.val = 0 then 0 else 2)) 0 t) ∧
      (n = 9 → ∀ r ∈ avsRails iface, r < 4 → (t.dom r).unread = true ∧ 4 ≤ t.stretchAsked r))) ∧
  (∀ (r : Fin 5) (s : State),
    (r.val < 4 → ∃ t, exec (.avsStatusAlert r .warning) s = .next t ∧ (t.dom r).warn = true ∧ 1 ≤ (t.dom r).capReq ∧ ((s.dom r).capReq ≠ 0 → s.Logs 0xD006 (srcPower r) 0 t)) ∧
    (r.val = 4 → ∃ t, exec (.avsStatusAlert r .warning) s = .next t ∧ t.pwr = s.pwr ∧ s.Logs 0xD006 (srcPower r) 0 t) ∧
    (∃ t, exec (.avsStatusAlert r .fault) s = .next t ∧ s.Logs 0xD007 (srcPower r) r t) ∧
    (∃ t, exec (.avsStatusAlert r .lostSetpoint) s = .next t ∧ s.Logs 0xD007 (srcPower r) r t ∧ t.get (PWR_VSET_MV r) = (Config.setpoint r).toNat ∧
      t.out.head? = some (.avs r (Config.setpoint r).toNat)) ∧
    (∃ t, exec (.avsStatusAlert r .normal) s = .next t ∧ (r.val < 4 → (t.dom r).warn = false ∧ ((s.dom r).capOn = false → (t.dom r).capReq = 0)) ∧ s.KeepsStores t) ∧
    (∀ tries, exec (.avsWriteRetry r tries true) s = .next s ∧
      (tries < 4 → ∃ t, exec (.avsWriteRetry r tries false) s = .next t ∧ t.get (PWR_VSET_MV r) = (Config.setpoint r).toNat ∧
        t.out = .avs r (Config.setpoint r).toNat :: s.out ∧ s.RegsBut (fun a => a = aPWR_VSET r) t) ∧
      (4 ≤ tries → ∃ t, exec (.avsWriteRetry r tries false) s = .next t ∧ s.Logs 0xD007 (srcPower r) r t ∧ (s.get GLB_BOOT_STATE = 2 → t.boot.phase = .stuck)))) ∧
  (∀ (n : Fin 6) (s : State), ∃ t, exec (.thermalTrip n) s = .next t ∧ t.isSet PWR_STAT_TRIP = true ∧ t.get (PWR_TEMP_TEMP n) = 1150 ∧ s.Logs 0xD001 (srcPower n) n t ∧
    ∀ x < 24, (t.gate x).phase = .powerGated ∧ t.get (TIL_GATE_STATE x) = 2) ∧
  (∀ (s : State) (temp : BitVec 16),
    (∀ u : Fin 20, ∃ t, exec (.memoryOvertemp u temp) s = .next t ∧ t.get (PWR_TEMP_TEMP (6 + u)) = temp.toNat ∧ s.KeepsStores t ∧
      s.RegsBut (fun a => a = aPWR_TEMP (6 + u) ∨ eventReg a) t ∧
      t.pwr.slow.testBit u = (decide (1050 ≤ temp.toInt) || (s.pwr.slow.testBit u && decide (1000 ≤ temp.toInt))) ∧
      (1050 ≤ temp.toInt → s.pwr.slow.testBit u = false → s.Logs 0xD00A (srcPower (6 + u)) 0 t)) ∧
    (∀ k : Fin 16, ∃ t, exec (.doubledRefresh k temp) s = .next t ∧ t.get (PWR_TEMP_TEMP (6 + k)) = temp.toNat ∧ t.pwr.doubled.testBit k = decide (950 < temp.toInt) ∧
      s.RegsBut (fun a => a = aPWR_TEMP (6 + k)) t ∧ s.KeepsStores t)) ∧
  (∀ (r : Rail) (s : State),
    (s.railUp r = false → exec (.supplyLoss r) s = .next s ∧ exec (.supplyDip r) s = .next s) ∧
    (s.railUp r = true → ∃ t, exec (.supplyDip r) s = .next t ∧ s.Logs 0xD00B (srcPower r) 0 t ∧ s.RegsBut eventReg t ∧ s.KeepsStores t) ∧
    (s.railUp r = true → r.val ≠ 10 → (s.boot.phase ≠ .held ∨ s.boot.cold = false) → ∃ t, exec (.supplyLoss r) s = .next t ∧ t.railUp r = false ∧
      s.Logs 0xD004 (srcPower r) r t ∧ t.boot.lost = (s.boot.lost || decide (6 ≤ r.val)) ∧
      t.boot.phase = (if s.boot.cold = false ∧ s.boot.phase ≠ .done then .held else s.boot.phase)) ∧
    (s.railUp r = true → r.val ≠ 10 → s.boot.phase = .held → s.boot.cold = true → ∃ t, exec (.supplyLoss r) s = .next t ∧ t.railUp r = false ∧
      s.RegsBut (fun a => a = aPWR_STAT) t ∧ t = { s with regs := t.regs }) ∧
    (s.railUp r = true → r.val = 10 → ∃ t, exec (.supplyLoss r) s = .next t ∧ t.railUp r = false ∧ t.tap = {} ∧ t.boot.phase = .held ∧ t.boot.cold = true ∧
      ∀ a, a ≠ aPWR_STAT → a ≠ aSEC_SVN → a ≠ aSEC_TAGWR → t.rd a = regReset a))

/-- Register accesses (R7 to R11, R363, R368, R371, R374), and the six instructions of R471; TRST_N is taken as high (log entry 40).
Choices of the model used here: log entries 7, 40 and 52. -/
def Obligations.RegisterWrites : Prop :=
  (∀ (p : PortId) (off : BitVec 26) (v : BitVec 64) (s : State),
    (s.ready = false → ∀ bar2 n, exec (.registerWrite p bar2 off n v) s = .next s) ∧
    (s.ready = true → s.isSet (HST_STAT_FROZEN p) = true → ∀ n, n ≠ 8 → ∃ t, exec (.registerWrite p false off n v) s = .next t ∧ t = s.incSat (HST_VIOLREC_COUNT p) 1) ∧
    (s.mayWrite p false = true → ∀ n, ¬ ((n = 4 ∧ off.toNat % 4 = 0) ∨ (n = 8 ∧ off.toNat % 8 = 0)) → ∃ t, exec (.registerWrite p false off n v) s = .next t ∧
      s.Logs 0xA001 (srcHost p 0) 0 t ∧ s.RegsBut eventReg t ∧ s.KeepsStores t) ∧
    (∀ r, regRow off.toNat = some r → r.wide = false → off.toNat % 4 = 0 →
      ((0x100000 ≤ off.toNat ∧ off.toNat < 0x180000) ∨ (0x300000 ≤ off.toNat ∧ off.toNat < 0x400000 ∧ off.toNat ≠ aFTM_CTRL) ∨
        (0x3800004 ≤ off.toNat ∧ off.toNat < 0x3800060)) →
      (s.mayWrite p true = true → ∃ t, exec (.registerWrite p false off 4 v) s = .next t ∧
        (∀ f ∈ r.fields, let w := f.hi + 1 - f.lo
          let old := getBits (s.rd off.toNat).toNat f.lo w
          let new := getBits v.toNat f.lo w
          getBits (t.rd off.toNat).toNat f.lo w = match f.acc with
            | .rw => if f.isBad new then old else new
            | .w1c => old - (old &&& new)
            | .w1s => old ||| new
            | _ => old) ∧
        s.RegsBut (fun a => a = off.toNat ∨ eventReg a) t ∧ s.KeepsStores t ∧
        ((∃ f ∈ r.fields, f.acc = .rw ∧ f.isBad (getBits v.toNat f.lo (f.hi + 1 - f.lo)) = true) → s.Logs r.grey (srcReg off.toNat) off.toNat t)) ∧
      (s.mayWrite p false = true → s.owns p = false → r.writable 0 31 = true → ∃ t, exec (.registerWrite p false off 4 v) s = .next t ∧
        t.isSet (HST_STAT_FROZEN p) = true ∧ t.isSet (HST_VIOLREC_VALID p) = true ∧ s.Logs 0xA002 (srcHost p 0) 0 t ∧
        s.RegsBut (fun a => a = aHST_STAT p ∨ a = aHST_VIOLREC p ∨ eventReg a) t ∧ s.KeepsStores t)) ∧
    (s.mayWrite p true = true → ∀ (g : Fin 25) (f : Fin 512), off.toNat = g.val * 0x1000 + f.val * 4 → f.val ≠ 0 → ∃ t, exec (.registerWrite p true off 4 v) s = .next t ∧
      t.flag g f = (s.flag g f + v.toNat % 65536) % 65536 ∧ s.KeepsStores t)) ∧
  (∀ (p : PortId) (off : BitVec 26) (s : State),
    let reads (bar2 : Bool) (n v : Nat) : Prop := registerRead p bar2 off n s = s.emit (.completion p (BitVec.ofNat 64 v) false)
    let plain : Prop := (0x100000 ≤ off.toNat ∧ off.toNat < 0x180000) ∨ (0x300000 ≤ off.toNat ∧ off.toNat < 0x400000) ∨
      (0x3800004 ≤ off.toNat ∧ off.toNat < 0x3800060)
    (s.ready = false → off.toNat % 4 = 0 → reads true 4 0) ∧
    (s.ready = true →
      (∀ bar2 n, ¬ ((n = 4 ∧ off.toNat % 4 = 0) ∨ (n = 8 ∧ off.toNat % 8 = 0)) →
        (registerRead p bar2 off n s).out.head? = some (.completion p 0 false) ∧ s.Logs 0xA001 (srcHost p 0) 0 (registerRead p bar2 off n s) ∧
        s.RegsBut eventReg (registerRead p bar2 off n s) ∧ s.KeepsStores (registerRead p bar2 off n s)) ∧
      (off.toNat < 0x1000000 → off.toNat % 4 = 0 → regRow off.toNat = none → (∀ r, regRow (off.toNat - 4) = some r → off.toNat % 8 = 4 → r.wide = false) → reads false 4 0) ∧
      (∀ r, regRow off.toNat = some r → plain →
        (r.wide = false → off.toNat % 4 = 0 → ∃ v < 2 ^ 32, (registerRead p false off 4 s).out = .completion p (BitVec.ofNat 64 v) false :: s.out ∧
          s.RegsBut (fun a => a = off.toNat) (registerRead p false off 4 s) ∧ s.KeepsStores (registerRead p false off 4 s) ∧
          ∀ f ∈ r.fields, let w := f.hi + 1 - f.lo
            let old := getBits (s.rd off.toNat).toNat f.lo w
            getBits v f.lo w = (if f.acc = .wo then 0 else old) ∧
            getBits ((registerRead p false off 4 s).rd off.toNat).toNat f.lo w = if f.acc = .rcl then 0 else old) ∧
        (r.wide = true → off.toNat % 8 = 0 → (∀ f ∈ r.fields, f.acc ≠ .rcl) → ∃ v < 2 ^ 64, reads false 8 v ∧ reads false 4 (v % 2 ^ 32) ∧
          (∀ up : BitVec 26, up.toNat = off.toNat + 4 → registerRead p false up 4 s = s.emit (.completion p (BitVec.ofNat 64 (v / 2 ^ 32)) false)) ∧
          ∀ f ∈ r.fields, let w := f.hi + 1 - f.lo
            getBits v f.lo w = if f.acc = .wo then 0 else getBits (s.rd off.toNat).toNat f.lo w)) ∧
      (∀ q : QId, off.toNat = aQUE_BASE q 0 → (120 ≤ q.val ∨ (s.gate (q / 5)).phase = .running) → reads false 8 (s.br q 0)) ∧
      (∀ (g : Fin 25) (f : Fin 512), off.toNat = g.val * 0x1000 + f.val * 4 → reads true 4 (s.flag g f)))) ∧
  (∀ s : State,
    let puts (i : Instr) (tap : TapSt) : Prop := ∃ t, exec i s = .next t ∧ t = { s with tap := tap }
    let drives (i : Instr) (k : TapInstr) : Prop := (s.boot.resetN = false → puts i { s.tap with instr := k, shift := none }) ∧
      (s.boot.resetN = true → puts i { s.tap with instr := .bypass, shift := some 0 })
    (s.tapUp = true → puts .bypass { s.tap with instr := .bypass, shift := some 0 } ∧ puts .idcode { s.tap with instr := .idcode, shift := some Config.idcode } ∧
      (∀ v : BitVec 64, puts (.samplePreload v) { instr := .sample, pattern := v, shift := none }) ∧
      drives .extest .extest ∧ drives .extestPulse .extestPulse ∧ drives .extestTrain .extestTrain) ∧
    (s.tapUp = false → exec .bypass s = .next s ∧ exec .idcode s = .next s ∧ (∀ v : BitVec 64, exec (.samplePreload v) s = .next s) ∧ exec .extest s = .next s ∧
      exec .extestPulse s = .next s ∧ exec .extestTrain s = .next s))

/-- R48, on the conversion every engine uses. -/
def Obligations.StochasticRounding : Prop :=
  (∀ (c : Fin 10) (neg sat : Bool) (m : Nat) (e : Int) (D : Nat), fmtIsInt c = false → 0 < m → D < 65536 →
    let f := floatFmt c
    let q := f.quantum m e
    let x : Rat := (m : Rat) * 2 ^ e
    let unit : Rat := 2 ^ q
    let t := (x / unit).floor.toNat
    let F := ((x / unit - t) * 65536).floor.toNat
    let r := if 65536 ≤ F + D then t + 1 else t
    let enc (k : Nat) : Nat := ((q + f.p + f.bias - 1) * 2 ^ f.p + k).toNat
    let is (k : Nat) (y : Rat) : Prop := ∃ m' e', f.decode k = .fin false m' e' ∧ (m' : Rat) * 2 ^ e' = y
    t * unit ≤ x ∧ x < (t + 1 : Rat) * unit ∧ F < 65536 ∧ ((List.range 65536).filter fun D => 65536 ≤ F + D).length = F ∧
    (∀ k, t ≤ k → k ≤ t + 1 → enc k ≤ f.maxFinite → is (enc k) (k * unit)) ∧
    (enc r ≤ f.maxFinite → (f.convert (.stochastic D) sat (.fin neg m e)).bits = (if neg then 2 ^ (f.eb + f.p) else 0) + enc r) ∧
    (x = t * unit → F = 0 ∧ r = t)) ∧
  (∀ (c w : Nat) (neg sat : Bool) (m : Nat) (e : Int) (D : Nat), (c = 5 ∧ w = 8 ∨ c = 6 ∧ w = 32) → 0 < m → D < 65536 →
    let x : Rat := (m : Rat) * 2 ^ e
    let t := x.floor.toNat
    let F := ((x - t) * 65536).floor.toNat
    let r := if 65536 ≤ F + D then t + 1 else t
    r < 2 ^ (w - 1) → (convertElem c (.stochastic D) sat (.fin neg m e)).bits = if neg then (2 ^ w - r) % 2 ^ w else r) ∧
  (∀ (v : Cvt) (seed stream at_ idx : Nat), v.rnd = 2 → v.mode (rngDraw seed stream at_ idx) = .stochastic (rngDraw seed stream at_ idx) ∧
    rngDraw seed stream at_ idx < 65536)

/-- The invariant holds at reset. -/
def Obligations.ResetIsCanonical : Prop := Inv State.reset

/-- The invariant of every step. -/
def Obligations.StepKeepsCanonical : Prop := ∀ s t : State, Inv s → step s = .next t → Inv t

/-- Completion, with what every command keeps. -/
def Obligations.EveryCommandCompletes : Prop := ∀ (i : Instr) (s : State), ∃ t, exec i s = .next t ∧ s.Evolves t

/-- The frame over stores of the commands that move no data. -/
def Obligations.StoresNothing : Prop := ∀ (i : Instr) (s t : State), i.storesNothing = true → exec i s = .next t → s.KeepsStores t
end

