-- ==== Sys2Proof/Laws/Tab.lean ====
section
/-! SUPPORT. Sparse tables: what a read gives after a write, and that every operation keeps the canonical form. -/

namespace Sys2Proof.Machine

variable {α : Type}

/-! ### Reads after writes -/

theorem tabGet_drop_ne (d : Nat → α) (t : Tab α) {k j : Nat} (h : j ≠ k) : tabGet d (tabDrop t k) j = tabGet d t j := by
  induction t with
  | nil => rfl
  | cons e t ih =>
    obtain ⟨i, v⟩ := e
    by_cases hi : i = k
    · have : ¬ i = j := by omega
      simpa [tabDrop, tabGet, hi, this, Ne.symm h] using ih
    · have hb : (i != k) = true := by simp [hi]
      simp only [tabDrop, List.filter, hb, tabGet]
      split
      · rfl
      · exact ih

theorem tabGet_drop_same (d : Nat → α) (t : Tab α) (k : Nat) : tabGet d (tabDrop t k) k = d k := by
  induction t with
  | nil => rfl
  | cons e t ih =>
    obtain ⟨i, v⟩ := e
    by_cases hi : i = k
    · simpa [tabDrop, hi] using ih
    · simpa [tabDrop, tabGet, hi] using ih

theorem tabGet_insert_same (d : Nat → α) (t : Tab α) (k : Nat) (v : α) (h : ∀ e ∈ t, e.1 ≠ k) :
    tabGet d (tabInsert k v t) k = v := by
  induction t with
  | nil => simp [tabInsert, tabGet]
  | cons e t ih =>
    obtain ⟨i, w⟩ := e
    have hi : i ≠ k := h (i, w) (by simp)
    simp only [tabInsert]
    split
    · simp [tabGet]
    · simp only [tabGet, hi, if_false]
      exact ih fun e he => h e (by simp [he])

theorem tabGet_insert_ne (d : Nat → α) (t : Tab α) {k j : Nat} (v : α) (h : j ≠ k) :
    tabGet d (tabInsert k v t) j = tabGet d t j := by
  have hkj : ¬ k = j := fun e => h e.symm
  induction t with
  | nil => simp [tabInsert, tabGet, hkj]
  | cons e t ih =>
    obtain ⟨i, w⟩ := e
    simp only [tabInsert]
    split
    · simp [tabGet, hkj]
    · simp only [tabGet, ih]

theorem tabDrop_keys (t : Tab α) (k : Nat) : ∀ e ∈ tabDrop t k, e.1 ≠ k := by
  intro e he
  simp [tabDrop] at he
  exact he.2

theorem tabPut_eq [DecidableEq α] (d : Nat → α) (t : Tab α) (k : Nat) (v : α) :
    tabPut d t k v = if v = d k then tabDrop t k else tabInsert k v (tabDrop t k) := by
  cases t <;> rfl

/-- A read of the key just written gives the value written. -/
@[simp] theorem tabGet_put_same [DecidableEq α] (d : Nat → α) (t : Tab α) (k : Nat) (v : α) :
    tabGet d (tabPut d t k v) k = v := by
  rw [tabPut_eq]
  split
  · rename_i h; rw [tabGet_drop_same, h]
  · exact tabGet_insert_same d _ k v (tabDrop_keys t k)

/-- A write leaves every other key alone. -/
theorem tabGet_put_ne [DecidableEq α] (d : Nat → α) (t : Tab α) {k j : Nat} (v : α) (h : j ≠ k) :
    tabGet d (tabPut d t k v) j = tabGet d t j := by
  rw [tabPut_eq]
  split
  · exact tabGet_drop_ne d t h
  · rw [tabGet_insert_ne d _ v h, tabGet_drop_ne d t h]

theorem tabGet_put [DecidableEq α] (d : Nat → α) (t : Tab α) (k j : Nat) (v : α) :
    tabGet d (tabPut d t k v) j = if j = k then v else tabGet d t j := by
  split
  · rename_i h; rw [h, tabGet_put_same]
  · rename_i h; exact tabGet_put_ne d t v h

/-- A filter keeps the values of the keys it keeps; the others read their defaults. -/
theorem tabGet_filter (d : Nat → α) (t : Tab α) (p : Nat → Bool) (k : Nat) :
    tabGet d (t.filter fun e => p e.1) k = if p k then tabGet d t k else d k := by
  induction t with
  | nil => simp [tabGet]
  | cons e t ih =>
    obtain ⟨i, v⟩ := e
    by_cases hi : i = k
    · subst hi
      by_cases hp : p i
      · simp [hp, tabGet]
      · simp only [List.filter, hp]
        rw [ih]; simp [hp]
    · by_cases hp : p i
      · simp only [List.filter, hp, tabGet, hi, if_false]
        exact ih
      · simp only [List.filter, hp, tabGet, hi, if_false]
        exact ih

/-- A cleared range reads its defaults, the rest as before. -/
theorem tabGet_clear (d : Nat → α) (t : Tab α) (lo n k : Nat) :
    tabGet d (tabClear t lo n) k = if lo ≤ k ∧ k < lo + n then d k else tabGet d t k := by
  unfold tabClear
  rw [tabGet_filter d t (fun k => decide (k < lo) || decide (lo + n ≤ k))]
  by_cases h : lo ≤ k ∧ k < lo + n
  · simp [h, show ¬ k < lo by omega]
  · have : k < lo ∨ lo + n ≤ k := by omega
    simp [h, this]

/-! ### The canonical form -/

theorem tabWfFrom_mono [DecidableEq α] {d : Nat → α} {t : Tab α} {lo lo' : Nat} (hl : lo' ≤ lo)
    (h : tabWfFrom d lo t = true) : tabWfFrom d lo' t = true := by
  cases t with
  | nil => rfl
  | cons e t =>
    obtain ⟨k, v⟩ := e
    simp only [tabWfFrom, Bool.and_eq_true, decide_eq_true_eq] at h ⊢
    exact ⟨⟨by omega, h.1.2⟩, h.2⟩

theorem tabWfFrom_filter [DecidableEq α] {d : Nat → α} (p : Nat × α → Bool) {t : Tab α} {lo : Nat}
    (h : tabWfFrom d lo t = true) : tabWfFrom d lo (t.filter p) = true := by
  induction t generalizing lo with
  | nil => rfl
  | cons e t ih =>
    obtain ⟨k, v⟩ := e
    simp only [tabWfFrom, Bool.and_eq_true, decide_eq_true_eq] at h
    simp only [List.filter]
    split
    · simp only [tabWfFrom, Bool.and_eq_true, decide_eq_true_eq]
      exact ⟨h.1, ih h.2⟩
    · exact tabWfFrom_mono (by omega) (ih h.2)

theorem tabWfFrom_insert [DecidableEq α] {d : Nat → α} {t : Tab α} {lo k : Nat} {v : α} (hv : v ≠ d k)
    (hlo : lo ≤ k) (hk : ∀ e ∈ t, e.1 ≠ k) (h : tabWfFrom d lo t = true) :
    tabWfFrom d lo (tabInsert k v t) = true := by
  induction t generalizing lo with
  | nil => simp [tabInsert, tabWfFrom, hlo, hv]
  | cons e t ih =>
    obtain ⟨i, w⟩ := e
    have hi : i ≠ k := hk (i, w) (by simp)
    simp only [tabWfFrom, Bool.and_eq_true, decide_eq_true_eq] at h
    simp only [tabInsert]
    split
    · simp only [tabWfFrom, Bool.and_eq_true, decide_eq_true_eq]
      exact ⟨⟨hlo, hv⟩, ⟨by omega, h.1.2⟩, h.2⟩
    · simp only [tabWfFrom, Bool.and_eq_true, decide_eq_true_eq]
      exact ⟨h.1, ih (by omega) (fun e he => hk e (by simp [he])) h.2⟩

theorem tabWf_filter [DecidableEq α] {d : Nat → α} {t : Tab α} (p : Nat × α → Bool) (h : tabWf d t = true) :
    tabWf d (t.filter p) = true := tabWfFrom_filter p h

theorem tabWf_drop [DecidableEq α] {d : Nat → α} {t : Tab α} (k : Nat) (h : tabWf d t = true) :
    tabWf d (tabDrop t k) = true := tabWf_filter _ h

theorem tabWf_clear [DecidableEq α] {d : Nat → α} {t : Tab α} (lo n : Nat) (h : tabWf d t = true) :
    tabWf d (tabClear t lo n) = true := tabWf_filter _ h

/-- A write keeps the canonical form. -/
theorem tabWf_put [DecidableEq α] {d : Nat → α} {t : Tab α} (k : Nat) (v : α) (h : tabWf d t = true) :
    tabWf d (tabPut d t k v) = true := by
  rw [tabPut_eq]
  split
  · exact tabWf_drop k h
  · rename_i hv
    exact tabWfFrom_insert hv (Nat.zero_le _) (tabDrop_keys t k) (tabWf_drop k h)

@[simp] theorem tabWf_nil [DecidableEq α] (d : Nat → α) : tabWf d [] = true := rfl

end Sys2Proof.Machine
end

