-- ==== Sys2Proof/Laws/Evolves.lean ====
section
/-! SUPPORT. What no operation undoes: each function from states to states keeps the commands that wait, what has
left the device, the numbers given and the canonical form of every store.  One lemma a function. -/

namespace Sys2Proof.Machine

variable {r s : State}

theorem State.Evolves.refl (s : State) : s.Evolves s := ⟨rfl, List.suffix_refl _, le_refl _, le_refl _, id⟩

theorem State.Evolves.trans {a b c : State} (h : a.Evolves b) (k : b.Evolves c) : a.Evolves c :=
  ⟨k.pending.trans h.pending, h.out.trans k.out, h.nextUid.trans k.nextUid, h.freeCtr.trans k.freeCtr, fun i => k.inv (h.inv i)⟩

theorem State.Evolves.ite {p : Prop} [Decidable p] {a b : State} (ha : r.Evolves a) (hb : r.Evolves b) :
    r.Evolves (if p then a else b) := by split <;> assumption

theorem State.Evolves.of_fst {α : Type} {x : State × α} {a : State} {b : α} (hx : x = (a, b)) (h : r.Evolves x.1) :
    r.Evolves a := by rw [hx] at h; exact h

theorem State.Evolves.foldl {α β : Type} (g : β → State) {l : List α} {f : β → α → β} {b : β} (h : r.Evolves (g b))
    (hf : ∀ y x, r.Evolves (g y) → r.Evolves (g (f y x))) : r.Evolves (g (l.foldl f b)) := by
  induction l generalizing b with
  | nil => exact h
  | cons x l ih => exact ih (hf _ _ h)

theorem State.Evolves.fold {α : Type} {l : List α} {f : State → α → State} (h : r.Evolves s)
    (hf : ∀ s x, r.Evolves s → r.Evolves (f s x)) : r.Evolves (l.foldl f s) := State.Evolves.foldl id h hf

theorem forAll_evolves {α : Type} {l : List α} {f : α → State → State} (hf : ∀ x s, r.Evolves s → r.Evolves (f x s))
    (h : r.Evolves s) : r.Evolves (forAll l f s) := State.Evolves.fold h fun s x => hf x s

/-- An update of fields that `Evolves` does not speak of. -/
theorem State.Evolves.keep {rowErr : List (Nat × Nat)} {seedPend : BitVec 96} {fab : FabSt} {badBridges : Nat} {mgt : MgtSt} {ftm : FtmSt} {evr : EvrSt} {boot : BootSt} {pwr : PwrSt} {tap : TapSt} {eventReceiver : Option Nat} (h : r.Evolves s) :
    r.Evolves { regs := s.regs, mem := s.mem, poison := s.poison, errs := s.errs, rowErr := rowErr, seedPend := seedPend, imem := s.imem, ques := s.ques, banks := s.banks, landings := s.landings, mxes := s.mxes, gates := s.gates, links := s.links, fab := fab, nextUid := s.nextUid, ports := s.ports, dmas := s.dmas, badBridges := badBridges, wheels := s.wheels, loads := s.loads, mgt := mgt, ftm := ftm, evr := evr, boot := boot, pwr := pwr, tap := tap, eventReceiver := eventReceiver, out := s.out, freeCtr := s.freeCtr, pending := s.pending } :=
  ⟨h.pending, h.out, h.nextUid, h.freeCtr, fun i => { h.inv i with }⟩

theorem State.Evolves.keepFree {rowErr : List (Nat × Nat)} {seedPend : BitVec 96} {fab : FabSt} {badBridges : Nat} {mgt : MgtSt} {ftm : FtmSt} {evr : EvrSt} {boot : BootSt} {pwr : PwrSt} {tap : TapSt} {eventReceiver : Option Nat} {freeCtr : Nat} (kfreeCtr : s.freeCtr ≤ freeCtr) (h : r.Evolves s) :
    r.Evolves { regs := s.regs, mem := s.mem, poison := s.poison, errs := s.errs, rowErr := rowErr, seedPend := seedPend, imem := s.imem, ques := s.ques, banks := s.banks, landings := s.landings, mxes := s.mxes, gates := s.gates, links := s.links, fab := fab, nextUid := s.nextUid, ports := s.ports, dmas := s.dmas, badBridges := badBridges, wheels := s.wheels, loads := s.loads, mgt := mgt, ftm := ftm, evr := evr, boot := boot, pwr := pwr, tap := tap, eventReceiver := eventReceiver, out := s.out, freeCtr := freeCtr, pending := s.pending } :=
  ⟨h.pending, h.out, h.nextUid, h.freeCtr.trans kfreeCtr, fun i => { h.inv i with }⟩

theorem State.Evolves.keepUid {rowErr : List (Nat × Nat)} {seedPend : BitVec 96} {fab : FabSt} {badBridges : Nat} {mgt : MgtSt} {ftm : FtmSt} {evr : EvrSt} {boot : BootSt} {pwr : PwrSt} {tap : TapSt} {eventReceiver : Option Nat} {nextUid : Nat} (knextUid : s.nextUid ≤ nextUid) (h : r.Evolves s) :
    r.Evolves { regs := s.regs, mem := s.mem, poison := s.poison, errs := s.errs, rowErr := rowErr, seedPend := seedPend, imem := s.imem, ques := s.ques, banks := s.banks, landings := s.landings, mxes := s.mxes, gates := s.gates, links := s.links, fab := fab, nextUid := nextUid, ports := s.ports, dmas := s.dmas, badBridges := badBridges, wheels := s.wheels, loads := s.loads, mgt := mgt, ftm := ftm, evr := evr, boot := boot, pwr := pwr, tap := tap, eventReceiver := eventReceiver, out := s.out, freeCtr := s.freeCtr, pending := s.pending } :=
  ⟨h.pending, h.out, h.nextUid.trans knextUid, h.freeCtr, fun i => { h.inv i with }⟩

theorem State.wr_evolves {a : Nat} {v : Word} (h : r.Evolves s) : r.Evolves (s.wr a v) :=
  ⟨h.pending, h.out, h.nextUid, h.freeCtr, fun i => { h.inv i with regs := tabWf_put _ _ (h.inv i).regs }⟩

theorem State.resetRegs_evolves {a n : Nat} (h : r.Evolves s) : r.Evolves (s.resetRegs a n) :=
  ⟨h.pending, h.out, h.nextUid, h.freeCtr, fun i => { h.inv i with regs := tabWf_clear _ _ (h.inv i).regs }⟩

theorem State.setQue_evolves {k : Nat} {v : QueSt} (h : r.Evolves s) : r.Evolves (s.setQue k v) :=
  ⟨h.pending, h.out, h.nextUid, h.freeCtr, fun i => { h.inv i with ques := tabWf_put _ _ (h.inv i).ques }⟩

theorem State.setMxe_evolves {k : Nat} {v : MxSt} (h : r.Evolves s) : r.Evolves (s.setMxe k v) :=
  ⟨h.pending, h.out, h.nextUid, h.freeCtr, fun i => { h.inv i with mxes := tabWf_put _ _ (h.inv i).mxes }⟩

theorem State.setGate_evolves {k : Nat} {v : GateSt} (h : r.Evolves s) : r.Evolves (s.setGate k v) :=
  ⟨h.pending, h.out, h.nextUid, h.freeCtr, fun i => { h.inv i with gates := tabWf_put _ _ (h.inv i).gates }⟩

theorem State.setPort_evolves {k : Nat} {v : PortSt} (h : r.Evolves s) : r.Evolves (s.setPort k v) :=
  ⟨h.pending, h.out, h.nextUid, h.freeCtr, fun i => { h.inv i with ports := tabWf_put _ _ (h.inv i).ports }⟩

theorem State.setWheel_evolves {k : Nat} {v : WheelSt} (h : r.Evolves s) : r.Evolves (s.setWheel k v) :=
  ⟨h.pending, h.out, h.nextUid, h.freeCtr, fun i => { h.inv i with wheels := tabWf_put _ _ (h.inv i).wheels }⟩

theorem State.setByte_evolves {k : Nat} {v : Byte} (h : r.Evolves s) : r.Evolves (s.setByte k v) :=
  ⟨h.pending, h.out, h.nextUid, h.freeCtr, fun i => { h.inv i with mem := tabWf_put _ _ (h.inv i).mem }⟩

theorem State.setPoison_evolves {k : Nat} {v : Bool} (h : r.Evolves s) : r.Evolves (s.setPoison k v) :=
  ⟨h.pending, h.out, h.nextUid, h.freeCtr, fun i => { h.inv i with poison := tabWf_put _ _ (h.inv i).poison }⟩

theorem State.setErr_evolves {k j : Nat} {v : Byte} (h : r.Evolves s) : r.Evolves (s.setErr k j v) :=
  ⟨h.pending, h.out, h.nextUid, h.freeCtr, fun i => { h.inv i with errs := tabWf_put _ _ (h.inv i).errs }⟩

theorem State.clearErrs_evolves {k : Nat} (h : r.Evolves s) : r.Evolves (s.clearErrs k) :=
  ⟨h.pending, h.out, h.nextUid, h.freeCtr, fun i => { h.inv i with errs := tabWf_clear _ _ (h.inv i).errs }⟩

theorem State.setEntry_evolves {k c : Nat} {v : BitVec 32} (h : r.Evolves s) : r.Evolves (s.setEntry k c v) :=
  ⟨h.pending, h.out, h.nextUid, h.freeCtr, fun i => { h.inv i with banks := tabWf_put _ _ (h.inv i).banks }⟩

theorem State.setDma_evolves {k c : Nat} {v : DmaJob} (h : r.Evolves s) : r.Evolves (s.setDma k c v) :=
  ⟨h.pending, h.out, h.nextUid, h.freeCtr, fun i => { h.inv i with dmas := tabWf_put _ _ (h.inv i).dmas }⟩

theorem State.setLink_evolves {k : Nat} {v : LinkSt} (h : r.Evolves s) : r.Evolves (s.setLink k v) :=
  ⟨h.pending, h.out, h.nextUid, h.freeCtr, fun i => { h.inv i with links := tabWf_put _ _ (h.inv i).links }⟩

theorem State.setLoad_evolves {k : Nat} {v : LoadJob} (h : r.Evolves s) : r.Evolves (s.setLoad k v) :=
  ⟨h.pending, h.out, h.nextUid, h.freeCtr, fun i => { h.inv i with loads := tabWf_put _ _ (h.inv i).loads }⟩

theorem State.emit_evolves {o : Out} (h : r.Evolves s) : r.Evolves (s.emit o) :=
  ⟨h.pending, h.out.trans (List.suffix_cons _ _), h.nextUid, h.freeCtr, fun i => { h.inv i with }⟩

theorem State.tick_evolves (h : r.Evolves s) : r.Evolves s.tick :=
  ⟨h.pending, h.out, h.nextUid, h.freeCtr.trans (Nat.le_succ _), fun i => { h.inv i with }⟩

theorem State.setBytes_evolves {a : Nat} {l : List Byte} (h : r.Evolves s) : r.Evolves (s.setBytes a l) := by
  induction l generalizing a s with
  | nil => exact h
  | cons b l ih => exact ih (State.setByte_evolves h)

theorem State.setBytes_freeCtr {a : Nat} {l : List Byte} : (s.setBytes a l).freeCtr = s.freeCtr := by
  induction l generalizing a s with
  | nil => rfl
  | cons b l ih => exact ih

theorem State.scramble_evolves {a n : Nat} (h : r.Evolves s) : r.Evolves (s.scramble a n) :=
  State.Evolves.keepFree (by rw [State.setBytes_freeCtr]; exact Nat.le_add_right _ _) (State.setBytes_evolves h)

theorem State.set_evolves {x1 : FRef} {x2 : Nat} (h : r.Evolves s) :
    r.Evolves (State.set s x1 x2) := by
  unfold State.set
  repeat' first
    | with_reducible assumption
    | with_reducible apply State.wr_evolves

theorem setPhase_evolves {x0 : Nat} {x1 : GatePhase} (h : r.Evolves s) :
    r.Evolves (setPhase x0 x1 s) := by
  unfold setPhase
  repeat' first
    | with_reducible assumption
    | with_reducible apply State.set_evolves
    | with_reducible apply State.setGate_evolves

theorem wakeTile_evolves {x0 : Nat} (h : r.Evolves s) :
    r.Evolves (wakeTile x0 s) := by
  unfold wakeTile
  repeat' first
    | with_reducible assumption
    | with_reducible apply State.setGate_evolves
    | with_reducible apply setPhase_evolves
    | split

theorem State.inc_evolves {x1 : FRef} {x2 : Nat} (h : r.Evolves s) :
    r.Evolves (State.inc s x1 x2) := by
  unfold State.inc
  repeat' first
    | with_reducible assumption
    | with_reducible apply State.set_evolves

theorem grind_evolves {x0 : Nat} {x1 : Nat} {x2 : Nat} (h : r.Evolves s) :
    r.Evolves (grind x0 x1 x2 s) := by
  unfold grind
  repeat' first
    | with_reducible assumption
    | with_reducible apply State.inc_evolves
    | with_reducible apply State.setMxe_evolves
    | (fail_if_no_progress with_reducible apply State.Evolves.keep)
    | extract_lets

theorem releaseEngine_evolves {x0 x1 : Nat} (h : r.Evolves s) :
    r.Evolves (releaseEngine x0 x1 s) := by
  unfold releaseEngine
  repeat' first
    | with_reducible assumption
    | (intro _)
    | with_reducible apply grind_evolves
    | with_reducible apply State.set_evolves
    | with_reducible apply State.setMxe_evolves
    | with_reducible apply State.Evolves.ite
    | (fail_if_no_progress with_reducible apply State.Evolves.keep)
    | extract_lets
    | split

theorem releasePreWake_evolves {x0 : Nat} {x1 : List Nat} (h : r.Evolves s) :
    r.Evolves (releasePreWake x0 x1 s) := by
  unfold releasePreWake
  repeat' first
    | with_reducible assumption
    | (intro _)
    | with_reducible apply forAll_evolves
    | with_reducible apply State.setQue_evolves
    | with_reducible apply releaseEngine_evolves
    | with_reducible apply State.Evolves.ite
    | (fail_if_no_progress with_reducible apply State.Evolves.keep)
    | extract_lets
    | split

theorem discardSluice_evolves {x0 : Nat} (h : r.Evolves s) :
    r.Evolves (discardSluice x0 s) := by
  unfold discardSluice
  repeat' first
    | with_reducible assumption
    | (intro _)
    | with_reducible apply State.setQue_evolves
    | with_reducible apply releasePreWake_evolves
    | with_reducible apply State.Evolves.ite
    | (fail_if_no_progress with_reducible apply State.Evolves.keep)
    | extract_lets
    | split

theorem freezeQueue_evolves {x0 : Nat} {x1 : Nat} {x2 : Nat} {x3 : Nat} {x4 : Nat} (h : r.Evolves s) :
    r.Evolves (freezeQueue x0 x1 x2 x3 x4 s) := by
  unfold freezeQueue
  repeat' first
    | with_reducible assumption
    | with_reducible apply discardSluice_evolves
    | with_reducible apply State.set_evolves
    | with_reducible apply State.wr_evolves
    | with_reducible apply State.Evolves.ite

theorem waitFor_evolves {x0 : Nat} {x1 : Nat} {x2 : Nat} (h : r.Evolves s) :
    r.Evolves (waitFor x0 x1 x2 s) := by
  unfold waitFor
  repeat' first
    | with_reducible assumption
    | with_reducible apply State.set_evolves

theorem writeRecord_evolves {x0 : Nat} {x1 : Nat} {x2 : Nat} {x3 : Word} {x4 : Bool} (h : r.Evolves s) :
    r.Evolves (writeRecord x0 x1 x2 x3 x4 s) := by
  unfold writeRecord
  repeat' first
    | with_reducible assumption
    | with_reducible apply State.wr_evolves
    | with_reducible apply State.set_evolves
    | (fail_if_no_progress with_reducible apply State.Evolves.keep)

theorem sendPlatformEvent_evolves {x0 : Nat} {x1 : Nat} {x2 : Word} (h : r.Evolves s) :
    r.Evolves (sendPlatformEvent x0 x1 x2 s) := by
  unfold sendPlatformEvent
  repeat' first
    | with_reducible assumption
    | with_reducible apply State.emit_evolves
    | split

theorem raiseVector_evolves {x0 : Nat} {x1 : Nat} (h : r.Evolves s) :
    r.Evolves (raiseVector x0 x1 s) := by
  unfold raiseVector
  repeat' first
    | with_reducible assumption
    | with_reducible apply State.emit_evolves
    | with_reducible apply State.set_evolves
    | with_reducible apply State.Evolves.ite

theorem raiseBoth_evolves {x0 : Nat} (h : r.Evolves s) :
    r.Evolves (raiseBoth x0 s) := by
  unfold raiseBoth
  repeat' first
    | with_reducible assumption
    | with_reducible apply raiseVector_evolves

theorem markAbort_evolves {x0 : Nat} {x1 : Nat} (h : r.Evolves s) :
    r.Evolves (markAbort x0 x1 s) := by
  unfold markAbort
  repeat' first
    | with_reducible assumption
    | with_reducible apply State.set_evolves
    | with_reducible apply State.Evolves.ite

theorem State.setGroup_evolves {x1 : Nat} {x2 : Bool} (h : r.Evolves s) :
    r.Evolves (State.setGroup s x1 x2) := by
  unfold State.setGroup
  repeat' first
    | with_reducible assumption
    | with_reducible apply State.set_evolves

theorem invalidateGroups_evolves {x0 : List (Nat × Bool × List (BitVec 32))} (h : r.Evolves s) :
    r.Evolves (invalidateGroups x0 s) := by
  unfold invalidateGroups
  repeat' first
    | with_reducible assumption
    | (intro _)
    | with_reducible apply forAll_evolves
    | with_reducible apply State.setGroup_evolves

theorem poisonLines_evolves {x0 : List (Nat × Bool × List Byte)} (h : r.Evolves s) :
    r.Evolves (poisonLines x0 s) := by
  unfold poisonLines
  repeat' first
    | with_reducible assumption
    | (intro _)
    | with_reducible apply forAll_evolves
    | with_reducible apply State.setPoison_evolves

theorem showEngine_evolves {x0 : Nat} (h : r.Evolves s) :
    r.Evolves (showEngine x0 s) := by
  unfold showEngine
  repeat' first
    | with_reducible assumption
    | with_reducible apply State.set_evolves
    | with_reducible apply State.Evolves.ite

theorem abortIssued_evolves {x0 : Nat} (h : r.Evolves s) :
    r.Evolves (abortIssued x0 s) := by
  unfold abortIssued
  repeat' first
    | with_reducible assumption
    | (intro _)
    | with_reducible apply forAll_evolves
    | with_reducible apply markAbort_evolves
    | with_reducible apply invalidateGroups_evolves
    | with_reducible apply poisonLines_evolves
    | with_reducible apply showEngine_evolves
    | with_reducible apply State.setQue_evolves
    | with_reducible apply State.Evolves.ite
    | (fail_if_no_progress with_reducible apply State.Evolves.keep)
    | extract_lets
    | split

theorem collFailed_evolves {x0 : Nat} {x1 : Coll} {x2 : Nat} {x3 : Nat} (h : r.Evolves s) :
    r.Evolves (collFailed x0 x1 x2 x3 s) := by
  unfold collFailed
  repeat' first
    | with_reducible assumption
    | with_reducible apply State.set_evolves
    | with_reducible apply State.setWheel_evolves
    | with_reducible apply State.Evolves.ite

theorem State.incSat_evolves {x1 : FRef} {x2 : Nat} (h : r.Evolves s) :
    r.Evolves (State.incSat s x1 x2) := by
  unfold State.incSat
  repeat' first
    | with_reducible assumption
    | with_reducible apply State.set_evolves

theorem countUnmirrored_evolves {x0 : Nat} {x1 : Nat} (h : r.Evolves s) :
    r.Evolves (countUnmirrored x0 x1 s) := by
  unfold countUnmirrored
  repeat' first
    | with_reducible assumption
    | with_reducible apply State.incSat_evolves
    | with_reducible apply State.Evolves.ite

theorem containWheel_evolves {x0 : Nat} (h : r.Evolves s) :
    r.Evolves (containWheel x0 s) := by
  unfold containWheel
  repeat' first
    | with_reducible assumption
    | (intro _)
    | with_reducible apply forAll_evolves
    | with_reducible apply State.setPoison_evolves
    | with_reducible apply State.scramble_evolves
    | with_reducible apply countUnmirrored_evolves
    | with_reducible apply State.setBytes_evolves
    | with_reducible apply collFailed_evolves
    | with_reducible apply State.Evolves.ite
    | extract_lets
    | split

theorem contain_evolves {x0 : Nat} (h : r.Evolves s) :
    r.Evolves (contain x0 s) := by
  unfold contain
  repeat' first
    | with_reducible assumption
    | (intro _)
    | with_reducible apply forAll_evolves
    | with_reducible apply freezeQueue_evolves
    | with_reducible apply abortIssued_evolves
    | with_reducible apply State.setQue_evolves
    | with_reducible apply containWheel_evolves
    | with_reducible apply State.set_evolves

theorem announce_evolves {x0 : Nat} {x1 : Nat} {x2 : Word} (h : r.Evolves s) :
    r.Evolves (announce x0 x1 x2 s) := by
  unfold announce
  repeat' first
    | with_reducible assumption
    | with_reducible apply sendPlatformEvent_evolves
    | with_reducible apply raiseBoth_evolves
    | with_reducible apply State.set_evolves
    | with_reducible apply contain_evolves
    | with_reducible apply State.Evolves.ite
    | (fail_if_no_progress with_reducible apply State.Evolves.keep)

theorem recordEvent_evolves {x0 : Nat} {x1 : Nat} {x2 : Word} (h : r.Evolves s) :
    r.Evolves (recordEvent x0 x1 x2 s) := by
  unfold recordEvent
  repeat' first
    | with_reducible assumption
    | with_reducible apply State.inc_evolves
    | with_reducible apply writeRecord_evolves
    | with_reducible apply announce_evolves
    | with_reducible apply State.incSat_evolves
    | with_reducible apply State.Evolves.ite
    | (fail_if_no_progress with_reducible apply State.Evolves.keep)

theorem eventD_evolves {x0 : Nat} {x1 : Nat} {x2 : Nat} (h : r.Evolves s) :
    r.Evolves (eventD x0 x1 x2 s) := by
  unfold eventD
  repeat' first
    | with_reducible assumption
    | with_reducible apply recordEvent_evolves

theorem freezeHead_evolves {x0 : Nat} {x1 : Nat} {x2 : Nat} (h : r.Evolves s) :
    r.Evolves (freezeHead x0 x1 x2 s) := by
  unfold freezeHead
  repeat' first
    | with_reducible assumption
    | with_reducible apply freezeQueue_evolves
    | with_reducible apply eventD_evolves
    | with_reducible apply State.setQue_evolves

theorem advance_evolves {x0 : Nat} (h : r.Evolves s) :
    r.Evolves (advance x0 s) := by
  unfold advance
  repeat' first
    | with_reducible assumption
    | with_reducible apply State.set_evolves
    | with_reducible apply State.inc_evolves
    | with_reducible apply State.setQue_evolves
    | with_reducible apply State.Evolves.ite

theorem issue_evolves {x0 : Nat} {x1 : Issued} (h : r.Evolves s) :
    r.Evolves (issue x0 x1 s) := by
  unfold issue
  repeat' first
    | with_reducible assumption
    | with_reducible apply State.setQue_evolves
    | with_reducible apply advance_evolves
    | split

theorem bumpUid_evolves  (h : r.Evolves s) :
    r.Evolves (bumpUid s) := by
  unfold bumpUid
  repeat' first
    | with_reducible assumption
    | (fail_if_no_progress with_reducible apply State.Evolves.keepUid (Nat.le_succ _))

theorem runHead_evolves {x0 : Nat} {x1 : Nat} {x2 : Bool} {x3 : Issued → State → State × Issue} (h3 : ∀ y0 s, r.Evolves s → r.Evolves (x3 y0 s).1) (h : r.Evolves s) :
    r.Evolves (runHead x0 x1 x2 x3 s) := by
  unfold runHead
  repeat' first
    | with_reducible assumption
    | with_reducible apply wakeTile_evolves
    | with_reducible apply freezeQueue_evolves
    | with_reducible apply State.setQue_evolves
    | with_reducible apply waitFor_evolves
    | with_reducible apply freezeHead_evolves
    | with_reducible apply issue_evolves
    | with_reducible apply bumpUid_evolves
    | with_reducible apply h3
    | extract_lets
    | split

theorem trackRow_evolves {x0 : Home} {x1 : Nat} (h : r.Evolves s) :
    r.Evolves (trackRow x0 x1 s) := by
  unfold trackRow
  repeat' first
    | with_reducible assumption
    | with_reducible apply eventD_evolves
    | with_reducible apply State.Evolves.ite
    | (fail_if_no_progress with_reducible apply State.Evolves.keep)
    | split

theorem lastErr_evolves {x0 : Home} {x1 : Nat} {x2 : Nat} (h : r.Evolves s) :
    r.Evolves (lastErr x0 x1 x2 s) := by
  unfold lastErr
  repeat' first
    | with_reducible assumption
    | with_reducible apply State.set_evolves
    | split

theorem countErr_evolves {x0 : Home} {x1 : Bool} (h : r.Evolves s) :
    r.Evolves (countErr x0 x1 s) := by
  unfold countErr
  repeat' first
    | with_reducible assumption
    | with_reducible apply State.inc_evolves
    | split

theorem event_evolves {x0 : Nat} {x1 : Nat} (h : r.Evolves s) :
    r.Evolves (event x0 x1 s) := by
  unfold event
  repeat' first
    | with_reducible assumption
    | with_reducible apply recordEvent_evolves

theorem applyCorrection_evolves {x0 : Nat} {x1 : Nat} (h : r.Evolves s) :
    r.Evolves (applyCorrection x0 x1 s) := by
  unfold applyCorrection
  repeat' first
    | with_reducible assumption
    | with_reducible apply State.setErr_evolves

theorem settle_evolves {x0 : Nat} (h : r.Evolves s) :
    r.Evolves (settle x0 s) := by
  unfold settle
  repeat' first
    | with_reducible assumption
    | with_reducible apply State.clearErrs_evolves
    | with_reducible apply State.setBytes_evolves
    | with_reducible apply State.Evolves.ite

theorem reMark_evolves {x0 : Nat} {x1 : Bool} (h : r.Evolves s) :
    r.Evolves (reMark x0 x1 s) := by
  unfold reMark
  repeat' first
    | with_reducible assumption
    | (intro _)
    | with_reducible apply forAll_evolves
    | with_reducible apply State.setErr_evolves
    | with_reducible apply State.setPoison_evolves
    | with_reducible apply State.Evolves.ite
    | split

theorem readLine_evolves {x0 : Bool} {x1 : Nat} (h : r.Evolves s) :
    r.Evolves (readLine x0 x1 s) := by
  unfold readLine
  repeat' first
    | with_reducible assumption
    | with_reducible apply trackRow_evolves
    | with_reducible apply lastErr_evolves
    | with_reducible apply countErr_evolves
    | with_reducible apply event_evolves
    | with_reducible apply applyCorrection_evolves
    | with_reducible apply reMark_evolves
    | with_reducible apply settle_evolves
    | with_reducible apply State.setPoison_evolves
    | with_reducible apply State.Evolves.ite
    | extract_lets
    | split

theorem touch_evolves {x0 : Nat} {x1 : Nat} (h : r.Evolves s) :
    r.Evolves (touch x0 x1 s) := by
  unfold touch
  repeat' first
    | with_reducible assumption
    | (intro _)
    | with_reducible apply forAll_evolves
    | with_reducible apply readLine_evolves

theorem writePred_evolves {x0 : Nat} {x1 : Issued} {x2 : Bool} (h : r.Evolves s) :
    r.Evolves (writePred x0 x1 x2 s) := by
  unfold writePred
  repeat' first
    | with_reducible assumption
    | with_reducible apply State.set_evolves

theorem runTile_evolves {x0 : Nat} (h : r.Evolves s) :
    r.Evolves (runTile x0 s) := by
  unfold runTile
  repeat' first
    | with_reducible assumption
    | (intro _)
    | with_reducible apply forAll_evolves
    | with_reducible apply State.setMxe_evolves
    | with_reducible apply setPhase_evolves
    | with_reducible apply State.Evolves.ite
    | (fail_if_no_progress with_reducible apply State.Evolves.keep)
    | extract_lets
    | split

theorem rampDown_evolves {x0 : Nat} {x1 : Nat} (h : r.Evolves s) :
    r.Evolves (rampDown x0 x1 s) := by
  unfold rampDown
  repeat' first
    | with_reducible assumption
    | with_reducible apply grind_evolves
    | with_reducible apply State.set_evolves
    | with_reducible apply State.setMxe_evolves
    | with_reducible apply State.Evolves.ite
    | (fail_if_no_progress with_reducible apply State.Evolves.keep)
    | extract_lets
    | split

theorem loseArrays_evolves {x0 : Nat} (h : r.Evolves s) :
    r.Evolves (loseArrays x0 s) := by
  unfold loseArrays
  repeat' first
    | with_reducible assumption
    | (intro _)
    | with_reducible apply forAll_evolves
    | with_reducible apply rampDown_evolves
    | with_reducible apply State.set_evolves
    | with_reducible apply State.setMxe_evolves
    | (fail_if_no_progress with_reducible apply State.Evolves.keep)
    | extract_lets

theorem accessTile_evolves {x0 : Nat} (h : r.Evolves s) :
    r.Evolves (accessTile x0 s) := by
  unfold accessTile
  repeat' first
    | with_reducible assumption
    | with_reducible apply runTile_evolves
    | with_reducible apply loseArrays_evolves
    | with_reducible apply State.setGate_evolves
    | (fail_if_no_progress with_reducible apply State.Evolves.keep)
    | extract_lets
    | split

theorem accessRange_evolves {x0 : Nat} {x1 : Nat} (h : r.Evolves s) :
    r.Evolves (accessRange x0 x1 s) := by
  unfold accessRange
  repeat' first
    | with_reducible assumption
    | with_reducible apply accessTile_evolves
    | with_reducible apply State.Evolves.ite
    | split

theorem predFromMem_evolves {x0 : Nat} {x1 : Issued} (h : r.Evolves s) :
    r.Evolves (predFromMem x0 x1 s).1 := by
  unfold predFromMem
  repeat' first
    | with_reducible assumption
    | with_reducible apply freezeHead_evolves
    | with_reducible apply touch_evolves
    | with_reducible apply accessRange_evolves
    | with_reducible apply writePred_evolves
    | with_reducible apply State.Evolves.ite
    | extract_lets
    | split

theorem setPred_evolves {x0 : Nat} {x1 : Issued} (h : r.Evolves s) :
    r.Evolves (setPred x0 x1 s).1 := by
  unfold setPred
  repeat' first
    | with_reducible assumption
    | with_reducible apply predFromMem_evolves
    | with_reducible apply writePred_evolves
    | extract_lets
    | split

theorem abortedNotice_evolves {x0 : Nat} {x1 : Nat} (h : r.Evolves s) :
    r.Evolves (abortedNotice x0 x1 s) := by
  unfold abortedNotice
  repeat' first
    | with_reducible assumption
    | with_reducible apply State.incSat_evolves
    | with_reducible apply event_evolves
    | split

theorem State.setFab_evolves {x1 : FabSt} (h : r.Evolves s) :
    r.Evolves (State.setFab s x1) := by
  unfold State.setFab
  repeat' first
    | with_reducible assumption
    | (fail_if_no_progress with_reducible apply State.Evolves.keep)

theorem countDrop_evolves {x0 : CellBits} (h : r.Evolves s) :
    r.Evolves (countDrop x0 s) := by
  unfold countDrop
  repeat' first
    | with_reducible assumption
    | with_reducible apply State.inc_evolves
    | with_reducible apply State.Evolves.ite

theorem onoff_evolves {x0 : Nat} {x1 : Nat} (h : r.Evolves s) :
    r.Evolves (onoff x0 x1 s) := by
  unfold onoff
  repeat' first
    | with_reducible assumption
    | with_reducible apply State.setLink_evolves
    | with_reducible apply State.Evolves.ite

theorem giveRoom_evolves {x0 : Option (Nat × Nat)} (h : r.Evolves s) :
    r.Evolves (giveRoom x0 s) := by
  unfold giveRoom
  repeat' first
    | with_reducible assumption
    | with_reducible apply onoff_evolves
    | with_reducible apply State.set_evolves
    | split

theorem discardRouted_evolves {x0 : Bool} {x1 : QCell} (h : r.Evolves s) :
    r.Evolves (discardRouted x0 x1 s) := by
  unfold discardRouted
  repeat' first
    | with_reducible assumption
    | with_reducible apply countDrop_evolves
    | with_reducible apply State.inc_evolves
    | with_reducible apply giveRoom_evolves
    | with_reducible apply State.Evolves.ite

theorem takeRoom_evolves {x0 : Option (Nat × Nat)} (h : r.Evolves s) :
    r.Evolves (takeRoom x0 s) := by
  unfold takeRoom
  repeat' first
    | with_reducible assumption
    | with_reducible apply onoff_evolves
    | with_reducible apply State.set_evolves
    | split

theorem holdCell_evolves {x0 : Bool} {x1 : QCell} (h : r.Evolves s) :
    r.Evolves (holdCell x0 x1 s) := by
  unfold holdCell
  repeat' first
    | with_reducible assumption
    | with_reducible apply takeRoom_evolves
    | with_reducible apply State.setFab_evolves
    | with_reducible apply State.Evolves.ite

theorem advancePath_evolves {x0 : QCell} (h : r.Evolves s) :
    r.Evolves (advancePath x0 s) := by
  unfold advancePath
  repeat' first
    | with_reducible assumption
    | with_reducible apply State.setFab_evolves

theorem markCe_evolves {x0 : Nat} {x1 : Nat} {x2 : QCell} (h : r.Evolves s) :
    r.Evolves (markCe x0 x1 x2 s).2 := by
  unfold markCe
  repeat' first
    | with_reducible assumption
    | with_reducible apply State.inc_evolves
    | split

theorem enqueue_evolves {x0 : Nat} {x1 : Nat} {x2 : Nat} {x3 : QCell} (h : r.Evolves s) :
    r.Evolves (enqueue x0 x1 x2 x3 s) := by
  unfold enqueue
  repeat' first
    | with_reducible assumption
    | with_reducible apply markCe_evolves
    | with_reducible apply State.setLink_evolves
    | with_reducible apply State.Evolves.ite

theorem openPath_evolves {x0 : QCell} {x1 : Option (Nat × Nat)} {x2 : Nat} (h : r.Evolves s) :
    r.Evolves (openPath x0 x1 x2 s) := by
  unfold openPath
  repeat' first
    | with_reducible assumption
    | (intro _)
    | with_reducible apply State.setFab_evolves
    | with_reducible apply State.Evolves.ite
    | (fail_if_no_progress with_reducible apply State.Evolves.keep)
    | extract_lets
    | split

theorem discardWhy_evolves {x0 : Bool} {x1 : Nat} {x2 : QCell} (h : r.Evolves s) :
    r.Evolves (discardWhy x0 x1 x2 s) := by
  unfold discardWhy
  repeat' first
    | with_reducible assumption
    | with_reducible apply eventD_evolves
    | with_reducible apply discardRouted_evolves

theorem routeEscape_evolves {x0 : Bool} {x1 : Option (Nat × Nat)} {x2 : Nat} {x3 : QCell} (h : r.Evolves s) :
    r.Evolves (routeEscape x0 x1 x2 x3 s) := by
  unfold routeEscape
  repeat' first
    | with_reducible assumption
    | with_reducible apply discardWhy_evolves
    | with_reducible apply openPath_evolves
    | with_reducible apply takeRoom_evolves
    | with_reducible apply enqueue_evolves
    | with_reducible apply State.Evolves.ite
    | extract_lets
    | split

theorem routeAdaptive_evolves {x0 : Bool} {x1 : Nat} {x2 : QCell} (h : r.Evolves s) :
    r.Evolves (routeAdaptive x0 x1 x2 s) := by
  unfold routeAdaptive
  repeat' first
    | with_reducible assumption
    | with_reducible apply routeEscape_evolves
    | with_reducible apply holdCell_evolves
    | with_reducible apply discardWhy_evolves
    | with_reducible apply openPath_evolves
    | with_reducible apply takeRoom_evolves
    | with_reducible apply enqueue_evolves
    | with_reducible apply State.Evolves.ite
    | extract_lets
    | split

theorem routeCell_evolves {x0 : Bool} {x1 : QCell} (h : r.Evolves s) :
    r.Evolves (routeCell x0 x1 s) := by
  unfold routeCell
  repeat' first
    | with_reducible assumption
    | (intro _)
    | with_reducible apply event_evolves
    | with_reducible apply discardRouted_evolves
    | with_reducible apply holdCell_evolves
    | with_reducible apply takeRoom_evolves
    | with_reducible apply advancePath_evolves
    | with_reducible apply enqueue_evolves
    | with_reducible apply discardWhy_evolves
    | with_reducible apply routeEscape_evolves
    | with_reducible apply routeAdaptive_evolves
    | with_reducible apply State.Evolves.ite
    | extract_lets
    | split

theorem originate_evolves {x0 : Nat} {x1 : CellBits} (h : r.Evolves s) :
    r.Evolves (originate x0 x1 s) := by
  unfold originate
  repeat' first
    | with_reducible assumption
    | with_reducible apply State.inc_evolves
    | with_reducible apply State.setFab_evolves
    | with_reducible apply routeCell_evolves
    | with_reducible apply State.Evolves.ite

theorem setSend_evolves {x0 : Nat} {x1 : Send → Send} (h : r.Evolves s) :
    r.Evolves (setSend x0 x1 s) := by
  unfold setSend
  repeat' first
    | with_reducible assumption
    | with_reducible apply State.setFab_evolves

theorem setWin_evolves {x0 : Nat} {x1 : Nat} {x2 : Win → Win} (h : r.Evolves s) :
    r.Evolves (setWin x0 x1 x2 s) := by
  unfold setWin
  repeat' first
    | with_reducible assumption
    | with_reducible apply State.setFab_evolves

theorem takeWin_evolves {x0 : Win} (h : r.Evolves s) :
    r.Evolves (takeWin x0 s) := by
  unfold takeWin
  repeat' first
    | with_reducible assumption
    | (intro _)
    | with_reducible apply setWin_evolves
    | with_reducible apply State.setFab_evolves
    | with_reducible apply State.Evolves.ite
    | (fail_if_no_progress with_reducible apply State.Evolves.keep)
    | extract_lets
    | split

theorem sendCells_evolves {x0 : Nat} {x1 : Nat} (h : r.Evolves s) :
    r.Evolves (sendCells x0 x1 s) := by
  induction x1 generalizing s with
  | zero => exact h
  | succ k ih =>
  simp -zeta only [sendCells]
  repeat' first
    | with_reducible assumption
    | with_reducible apply originate_evolves
    | with_reducible apply setSend_evolves
    | with_reducible apply setWin_evolves
    | with_reducible apply State.Evolves.ite
    | with_reducible apply ih
    | with_reducible apply takeWin_evolves
    | with_reducible apply originate_evolves
    | with_reducible apply setSend_evolves
    | with_reducible apply setWin_evolves
    | split

theorem startSend_evolves {x0 : Nat} (h : r.Evolves s) :
    r.Evolves (startSend x0 s) := by
  unfold startSend
  repeat' first
    | with_reducible assumption
    | with_reducible apply State.setFab_evolves
    | with_reducible apply setSend_evolves
    | with_reducible apply State.Evolves.ite
    | split

theorem pump_evolves  (h : r.Evolves s) :
    r.Evolves (pump s) := by
  unfold pump
  repeat' first
    | with_reducible assumption
    | (intro _)
    | with_reducible apply forAll_evolves
    | with_reducible apply sendCells_evolves
    | with_reducible apply startSend_evolves

theorem sendMessage_evolves {x0 : Nat} {x1 : Nat} {x2 : List CellBits} {x3 : Origin} (h : r.Evolves s) :
    r.Evolves (sendMessage x0 x1 x2 x3 s) := by
  unfold sendMessage
  repeat' first
    | with_reducible assumption
    | with_reducible apply pump_evolves
    | with_reducible apply State.setFab_evolves
    | (fail_if_no_progress with_reducible apply State.Evolves.keepUid (Nat.le_succ _))

theorem clearMailbox_evolves {x0 : Nat} (h : r.Evolves s) :
    r.Evolves (clearMailbox x0 s).1 := by
  unfold clearMailbox
  repeat' first
    | with_reducible assumption
    | (intro _)
    | with_reducible apply abortedNotice_evolves
    | with_reducible apply sendMessage_evolves
    | with_reducible apply forAll_evolves
    | with_reducible apply State.set_evolves
    | with_reducible apply State.Evolves.ite

theorem clearMailboxes_evolves {x0 : Nat} {x1 : Nat} (h : r.Evolves s) :
    r.Evolves (clearMailboxes x0 x1 s) := by
  unfold clearMailboxes
  repeat' first
    | with_reducible assumption
    | (intro _)
    | with_reducible apply clearMailbox_evolves
    | with_reducible apply eventD_evolves
    | with_reducible apply State.Evolves.foldl Prod.fst

theorem State.setMgt_evolves {x1 : MgtSt} (h : r.Evolves s) :
    r.Evolves (State.setMgt s x1) := by
  unfold State.setMgt
  repeat' first
    | with_reducible assumption
    | (fail_if_no_progress with_reducible apply State.Evolves.keep)

theorem landings_evolves {l : Tab RowWrites} (hl : Inv s → tabWf (fun _ => ({} : RowWrites)) l = true) (h : r.Evolves s) :
    r.Evolves { s with landings := l } :=
  ⟨h.pending, h.out, h.nextUid, h.freeCtr, fun i => { h.inv i with landings := hl (h.inv i) }⟩

theorem restoreGroup_evolves {x0 : Nat × Bool × List (BitVec 32)} (h : r.Evolves s) :
    r.Evolves (restoreGroup x0 s) :=
  landings_evolves (fun i => tabWf_clear _ _ i.landings)
    (State.setGroup_evolves (State.Evolves.fold h fun _ _ h => State.setEntry_evolves h))

theorem restoreLine_evolves {x0 : Nat × Bool × List Byte} (h : r.Evolves s) :
    r.Evolves (restoreLine x0 s) := by
  unfold restoreLine
  repeat' first
    | with_reducible assumption
    | with_reducible apply State.setPoison_evolves
    | with_reducible apply State.setBytes_evolves

theorem mapIssued_evolves {x0 : Nat} {x1 : Issued → Issued} (h : r.Evolves s) :
    r.Evolves (mapIssued x0 x1 s) := by
  unfold mapIssued
  repeat' first
    | with_reducible assumption
    | with_reducible apply State.setQue_evolves

theorem setIssued_evolves {x0 : Nat} {x1 : Nat} {x2 : Issued → Issued} (h : r.Evolves s) :
    r.Evolves (setIssued x0 x1 x2 s) := by
  unfold setIssued
  repeat' first
    | with_reducible assumption
    | with_reducible apply mapIssued_evolves

theorem abortWork_evolves {x0 : Nat} {x1 : Nat} {x2 : Issued} (h : r.Evolves s) :
    r.Evolves (abortWork x0 x1 x2 s) := by
  unfold abortWork
  repeat' first
    | with_reducible assumption
    | (intro _)
    | with_reducible apply forAll_evolves
    | with_reducible apply restoreGroup_evolves
    | with_reducible apply invalidateGroups_evolves
    | with_reducible apply restoreLine_evolves
    | with_reducible apply markAbort_evolves
    | with_reducible apply poisonLines_evolves
    | with_reducible apply setIssued_evolves
    | (fail_if_no_progress with_reducible apply State.Evolves.keep)
    | extract_lets

theorem abortCommand_evolves {x0 : Nat} {x1 : Nat} {x2 : Nat} {x3 : Nat} (h : r.Evolves s) :
    r.Evolves (abortCommand x0 x1 x2 x3 s) := by
  unfold abortCommand
  repeat' first
    | with_reducible assumption
    | with_reducible apply showEngine_evolves
    | with_reducible apply freezeQueue_evolves
    | with_reducible apply event_evolves
    | with_reducible apply abortWork_evolves
    | split

theorem pwrCtrl_evolves {x0 : Nat} (h : r.Evolves s) :
    r.Evolves (pwrCtrl x0 s) := by
  unfold pwrCtrl
  repeat' first
    | with_reducible assumption
    | (intro _)
    | with_reducible apply State.wr_evolves
    | with_reducible apply forAll_evolves
    | with_reducible apply State.Evolves.ite

theorem showCauses_evolves {x0 : Nat} (h : r.Evolves s) :
    r.Evolves (showCauses x0 s) := by
  unfold showCauses
  repeat' first
    | with_reducible assumption
    | with_reducible apply State.set_evolves

theorem writeBits_evolves {x0 : Nat} {x1 : Nat} {x2 : Nat} {x3 : Nat} (h : r.Evolves s) :
    r.Evolves (writeBits x0 x1 x2 x3 s) := by
  unfold writeBits
  repeat' first
    | with_reducible assumption
    | with_reducible apply State.wr_evolves
    | with_reducible apply eventD_evolves
    | with_reducible apply State.Evolves.ite
    | split

theorem stretchWrite_evolves {x0 : Nat} {x1 : Nat} {x2 : Nat} {x3 : Nat} (h : r.Evolves s) :
    r.Evolves (stretchWrite x0 x1 x2 x3 s) := by
  unfold stretchWrite
  repeat' first
    | with_reducible assumption
    | with_reducible apply showCauses_evolves
    | with_reducible apply writeBits_evolves

theorem powerBlock_evolves {x0 : Nat} {x1 : Nat} {x2 : Nat} {x3 : Nat} (h : r.Evolves s) :
    r.Evolves (powerBlock x0 x1 x2 x3 s) := by
  unfold powerBlock
  repeat' first
    | with_reducible assumption
    | with_reducible apply pwrCtrl_evolves
    | with_reducible apply stretchWrite_evolves
    | with_reducible apply writeBits_evolves
    | with_reducible apply State.Evolves.ite

theorem releaseWindow_evolves {x0 : Send} (h : r.Evolves s) :
    r.Evolves (releaseWindow x0 s) := by
  unfold releaseWindow
  repeat' first
    | with_reducible assumption
    | (intro _)
    | with_reducible apply setWin_evolves
    | with_reducible apply State.Evolves.ite
    | (fail_if_no_progress with_reducible apply State.Evolves.keep)
    | split

theorem restNumber_evolves {x0 : Send} (h : r.Evolves s) :
    r.Evolves (restNumber x0 s) := by
  unfold restNumber
  repeat' first
    | with_reducible assumption
    | (intro _)
    | with_reducible apply State.setFab_evolves
    | (fail_if_no_progress with_reducible apply State.Evolves.keep)
    | split

theorem dropSends_evolves {x0 : Send → Bool} (h : r.Evolves s) :
    r.Evolves (dropSends x0 s) := by
  unfold dropSends
  repeat' first
    | with_reducible assumption
    | (intro _)
    | with_reducible apply forAll_evolves
    | with_reducible apply restNumber_evolves
    | with_reducible apply releaseWindow_evolves
    | with_reducible apply State.setFab_evolves
    | (fail_if_no_progress with_reducible apply State.Evolves.keep)
    | extract_lets

theorem abandonRemote_evolves {x0 : Nat} (h : r.Evolves s) :
    r.Evolves (abandonRemote x0 s) := by
  unfold abandonRemote
  repeat' first
    | with_reducible assumption
    | with_reducible apply dropSends_evolves
    | with_reducible apply State.setFab_evolves

theorem updColl_evolves {x0 : Nat} {x1 : Coll → Coll} (h : r.Evolves s) :
    r.Evolves (updColl x0 x1 s) := by
  unfold updColl
  repeat' first
    | with_reducible assumption
    | with_reducible apply State.setWheel_evolves

theorem beginTransfer_evolves {x0 : Nat} {x1 : Chunk} (h : r.Evolves s) :
    r.Evolves (beginTransfer x0 x1 s) := by
  unfold beginTransfer
  repeat' first
    | with_reducible assumption
    | with_reducible apply updColl_evolves

theorem leaveRoutine_evolves {x0 : Nat} {x1 : CmdStatus} (h : r.Evolves s) :
    r.Evolves (leaveRoutine x0 x1 s) := by
  unfold leaveRoutine
  repeat' first
    | with_reducible assumption
    | with_reducible apply mapIssued_evolves
    | with_reducible apply State.set_evolves
    | with_reducible apply State.setQue_evolves

theorem freezeRoutine_evolves {x0 : Nat} {x1 : Nat} (h : r.Evolves s) :
    r.Evolves (freezeRoutine x0 x1 s) := by
  unfold freezeRoutine
  repeat' first
    | with_reducible assumption
    | with_reducible apply leaveRoutine_evolves
    | with_reducible apply freezeQueue_evolves
    | with_reducible apply event_evolves

theorem routineOutside_evolves {x0 : Nat} (h : r.Evolves s) :
    r.Evolves (routineOutside x0 s) := by
  unfold routineOutside
  repeat' first
    | with_reducible assumption
    | with_reducible apply freezeRoutine_evolves

theorem sendLocal_evolves {x0 : Nat} {x1 : Nat} {x2 : Nat} (h : r.Evolves s) :
    r.Evolves (sendLocal x0 x1 x2 s) := by
  unfold sendLocal
  repeat' first
    | with_reducible assumption
    | with_reducible apply State.emit_evolves

theorem sendIdle_evolves {x0 : Nat} (h : r.Evolves s) :
    r.Evolves (sendIdle x0 s) := by
  unfold sendIdle
  repeat' first
    | with_reducible assumption
    | with_reducible apply sendLocal_evolves
    | with_reducible apply State.setLink_evolves

theorem violation_evolves {x0 : Nat} {x1 : Nat} {x2 : Nat} (h : r.Evolves s) :
    r.Evolves (violation x0 x1 x2 s) := by
  unfold violation
  repeat' first
    | with_reducible assumption
    | with_reducible apply State.set_evolves
    | with_reducible apply State.setPort_evolves
    | with_reducible apply raiseBoth_evolves
    | with_reducible apply event_evolves
    | with_reducible apply State.Evolves.ite

theorem hostWrite_evolves {x0 : Nat} {x1 : Bool} {x2 : Nat} {x3 : Nat} {x4 : State → State} (h4 : ∀ s, r.Evolves s → r.Evolves (x4 s)) (h : r.Evolves s) :
    r.Evolves (hostWrite x0 x1 x2 x3 x4 s) := by
  unfold hostWrite
  repeat' first
    | with_reducible assumption
    | with_reducible apply State.incSat_evolves
    | with_reducible apply violation_evolves
    | with_reducible apply State.Evolves.ite
    | with_reducible apply h4

theorem wakeByAccess_evolves {x0 : Nat} (h : r.Evolves s) :
    r.Evolves (wakeByAccess x0 s) := by
  unfold wakeByAccess
  repeat' first
    | with_reducible assumption
    | with_reducible apply accessTile_evolves
    | with_reducible apply State.Evolves.ite
    | split

theorem ownerWrite_evolves {x0 : Nat} {x1 : Nat} {x2 : State → State} (h2 : ∀ s, r.Evolves s → r.Evolves (x2 s)) (h : r.Evolves s) :
    r.Evolves (ownerWrite x0 x1 x2 s) := by
  unfold ownerWrite
  repeat' first
    | with_reducible assumption
    | (intro _)
    | with_reducible apply hostWrite_evolves
    | with_reducible apply wakeByAccess_evolves
    | with_reducible apply h2

theorem lnkTestWrite_evolves {x0 : Nat} {x1 : Nat} {x2 : Nat} {x3 : Nat} (h : r.Evolves s) :
    r.Evolves (lnkTestWrite x0 x1 x2 x3 s) := by
  unfold lnkTestWrite
  repeat' first
    | with_reducible assumption
    | with_reducible apply event_evolves
    | with_reducible apply writeBits_evolves
    | with_reducible apply State.emit_evolves
    | with_reducible apply State.Evolves.ite

theorem pfcUpdate_evolves  (h : r.Evolves s) :
    r.Evolves (pfcUpdate s) := by
  unfold pfcUpdate
  repeat' first
    | with_reducible assumption
    | (intro _)
    | with_reducible apply forAll_evolves
    | with_reducible apply State.emit_evolves
    | with_reducible apply State.setLink_evolves
    | with_reducible apply State.Evolves.ite

theorem sendCell_evolves {x0 : Nat} {x1 : Nat} {x2 : Nat} {x3 : Nat} {x4 : Nat} (h : r.Evolves s) :
    r.Evolves (sendCell x0 x1 x2 x3 x4 s) := by
  unfold sendCell
  repeat' first
    | with_reducible assumption
    | with_reducible apply originate_evolves

theorem sendGrant_evolves {x0 : Nat} {x1 : Nat} {x2 : Nat} {x3 : Nat} {x4 : Bool} {x5 : Bool} {x6 : List PayField} (h : r.Evolves s) :
    r.Evolves (sendGrant x0 x1 x2 x3 x4 x5 x6 s) := by
  unfold sendGrant
  repeat' first
    | with_reducible assumption
    | with_reducible apply sendCell_evolves

theorem segmentArrives_evolves {x0 : CellBits} (h : r.Evolves s) :
    r.Evolves (segmentArrives x0 s) := by
  unfold segmentArrives
  repeat' first
    | with_reducible assumption
    | with_reducible apply State.setFab_evolves
    | with_reducible apply sendGrant_evolves
    | extract_lets
    | split

theorem windowGrant_evolves {x0 : Send} {x1 : Nat} {x2 : Bool} (h : r.Evolves s) :
    r.Evolves (windowGrant x0 x1 x2 s) := by
  unfold windowGrant
  repeat' first
    | with_reducible assumption
    | with_reducible apply setWin_evolves
    | with_reducible apply setSend_evolves
    | with_reducible apply State.Evolves.ite

theorem startGateTimer_evolves {x0 : Nat} (h : r.Evolves s) :
    r.Evolves (startGateTimer x0 s) := by
  unfold startGateTimer
  repeat' first
    | with_reducible assumption
    | with_reducible apply State.setGate_evolves
    | with_reducible apply State.Evolves.ite
    | (fail_if_no_progress with_reducible apply State.Evolves.keep)
    | split

theorem restTile_evolves {x0 : Nat} (h : r.Evolves s) :
    r.Evolves (restTile x0 s) := by
  unfold restTile
  repeat' first
    | with_reducible assumption
    | with_reducible apply startGateTimer_evolves
    | with_reducible apply State.Evolves.ite
    | split

theorem freezeSoon_evolves {x0 : Nat} {x1 : Nat} {x2 : Nat} (h : r.Evolves s) :
    r.Evolves (freezeSoon x0 x1 x2 s) := by
  unfold freezeSoon
  repeat' first
    | with_reducible assumption
    | with_reducible apply restTile_evolves
    | with_reducible apply freezeQueue_evolves
    | with_reducible apply State.setQue_evolves
    | with_reducible apply State.Evolves.ite
    | (fail_if_no_progress with_reducible apply State.Evolves.keep)
    | split

theorem fireWatches_evolves {x0 : Nat} {x1 : Nat} (h : r.Evolves s) :
    r.Evolves (fireWatches x0 x1 s) := by
  unfold fireWatches
  repeat' first
    | with_reducible assumption
    | (intro _)
    | with_reducible apply forAll_evolves
    | with_reducible apply raiseVector_evolves
    | with_reducible apply State.set_evolves
    | with_reducible apply State.Evolves.ite

theorem wakeSet_evolves {x0 : Nat} (h : r.Evolves s) :
    r.Evolves (wakeSet x0 s) := by
  unfold wakeSet
  repeat' first
    | with_reducible assumption
    | with_reducible apply wakeTile_evolves
    | with_reducible apply State.Evolves.ite

theorem flagChanged_evolves {x0 : Nat} {x1 : Nat} (h : r.Evolves s) :
    r.Evolves (flagChanged x0 x1 s) := by
  unfold flagChanged
  repeat' first
    | with_reducible assumption
    | with_reducible apply fireWatches_evolves
    | with_reducible apply wakeSet_evolves
    | with_reducible apply State.Evolves.ite

theorem addFlag_evolves {x0 : Nat} {x1 : Nat} {x2 : Nat} (h : r.Evolves s) :
    r.Evolves (addFlag x0 x1 x2 s) := by
  unfold addFlag
  repeat' first
    | with_reducible assumption
    | with_reducible apply flagChanged_evolves
    | with_reducible apply State.set_evolves
    | with_reducible apply State.Evolves.ite

theorem postOutcome_evolves {x0 : Nat} {x1 : Nat} (h : r.Evolves s) :
    r.Evolves (postOutcome x0 x1 s) := by
  unfold postOutcome
  repeat' first
    | with_reducible assumption
    | with_reducible apply State.set_evolves
    | with_reducible apply setIssued_evolves
    | with_reducible apply freezeQueue_evolves
    | with_reducible apply event_evolves
    | with_reducible apply addFlag_evolves
    | with_reducible apply State.Evolves.ite
    | split

theorem hostPostOutcome_evolves {x0 : Nat} {x1 : Nat} {x2 : Nat} (h : r.Evolves s) :
    r.Evolves (hostPostOutcome x0 x1 x2 s) := by
  unfold hostPostOutcome
  repeat' first
    | with_reducible assumption
    | with_reducible apply State.setPort_evolves
    | with_reducible apply State.set_evolves
    | with_reducible apply State.emit_evolves
    | with_reducible apply raiseVector_evolves
    | split

theorem mirsyncDone_evolves {x0 : Nat} {x1 : Issued} (h : r.Evolves s) :
    r.Evolves (mirsyncDone x0 x1 s) := by
  unfold mirsyncDone
  repeat' first
    | with_reducible assumption
    | with_reducible apply State.set_evolves
    | with_reducible apply addFlag_evolves
    | with_reducible apply State.Evolves.ite

theorem clearWaits_evolves {x0 : Nat} (h : r.Evolves s) :
    r.Evolves (clearWaits x0 s) := by
  unfold clearWaits
  repeat' first
    | with_reducible assumption
    | (intro _)
    | with_reducible apply forAll_evolves
    | with_reducible apply State.setQue_evolves
    | with_reducible apply showEngine_evolves
    | with_reducible apply mirsyncDone_evolves
    | with_reducible apply State.Evolves.ite
    | (fail_if_no_progress with_reducible apply State.Evolves.keep)
    | extract_lets
    | split

theorem failIssued_evolves {x0 : Nat} {x1 : Nat} {x2 : Nat} (h : r.Evolves s) :
    r.Evolves (failIssued x0 x1 x2 s) := by
  unfold failIssued
  repeat' first
    | with_reducible assumption
    | (intro _)
    | with_reducible apply dropSends_evolves
    | with_reducible apply State.setFab_evolves
    | with_reducible apply setIssued_evolves
    | with_reducible apply freezeQueue_evolves
    | with_reducible apply showEngine_evolves
    | (fail_if_no_progress with_reducible apply State.Evolves.keep)
    | extract_lets
    | split

theorem mirrorLost_evolves  (h : r.Evolves s) :
    r.Evolves (mirrorLost s) := by
  unfold mirrorLost
  repeat' first
    | with_reducible assumption
    | (intro _)
    | with_reducible apply State.set_evolves
    | with_reducible apply event_evolves
    | with_reducible apply State.setFab_evolves
    | with_reducible apply dropSends_evolves
    | with_reducible apply forAll_evolves
    | with_reducible apply showEngine_evolves
    | with_reducible apply setIssued_evolves
    | with_reducible apply failIssued_evolves
    | with_reducible apply State.Evolves.ite
    | (fail_if_no_progress with_reducible apply State.Evolves.keep)
    | extract_lets
    | split

theorem concluded_evolves {x0 : Send} {x1 : Answer} (h : r.Evolves s) :
    r.Evolves (concluded x0 x1 s) := by
  unfold concluded
  repeat' first
    | with_reducible assumption
    | with_reducible apply freezeSoon_evolves
    | with_reducible apply event_evolves
    | with_reducible apply State.set_evolves
    | with_reducible apply postOutcome_evolves
    | with_reducible apply hostPostOutcome_evolves
    | with_reducible apply clearWaits_evolves
    | with_reducible apply failIssued_evolves
    | with_reducible apply mirrorLost_evolves
    | split

theorem finishSend_evolves {x0 : Nat} {x1 : Answer} (h : r.Evolves s) :
    r.Evolves (finishSend x0 x1 s) := by
  unfold finishSend
  repeat' first
    | with_reducible assumption
    | with_reducible apply pump_evolves
    | with_reducible apply concluded_evolves
    | with_reducible apply dropSends_evolves
    | split

theorem addCounts_evolves {x0 : Nat} {x1 : Tally} (h : r.Evolves s) :
    r.Evolves (addCounts x0 x1 s) := by
  unfold addCounts
  repeat' first
    | with_reducible assumption
    | with_reducible apply State.incSat_evolves
    | with_reducible apply State.set_evolves
    | with_reducible apply State.Evolves.ite

theorem addReturned_evolves {x0 : Send} {x1 : CellBits} (h : r.Evolves s) :
    r.Evolves (addReturned x0 x1 s) := by
  unfold addReturned
  repeat' first
    | with_reducible assumption
    | with_reducible apply addCounts_evolves
    | split

theorem grantArrives_evolves {x0 : CellBits} (h : r.Evolves s) :
    r.Evolves (grantArrives x0 s) := by
  unfold grantArrives
  repeat' first
    | with_reducible assumption
    | with_reducible apply windowGrant_evolves
    | with_reducible apply finishSend_evolves
    | with_reducible apply addReturned_evolves
    | with_reducible apply pump_evolves
    | split

theorem keepKey_evolves {x0 : Nat} {x1 : Nat} {x2 : Nat} (h : r.Evolves s) :
    r.Evolves (keepKey x0 x1 x2 s) := by
  unfold keepKey
  repeat' first
    | with_reducible assumption
    | with_reducible apply State.setFab_evolves

theorem deliverOnce_evolves {x0 : Nat} {x1 : Nat} {x2 : Nat} {x3 : Nat} {x4 : Nat} {x5 : State → State} {x6 : State → State × Bool} (h5 : ∀ s, r.Evolves s → r.Evolves (x5 s)) (h6 : ∀ s, r.Evolves s → r.Evolves (x6 s).1) (h : r.Evolves s) :
    r.Evolves (deliverOnce x0 x1 x2 x3 x4 x5 x6 s) := by
  unfold deliverOnce
  repeat' first
    | with_reducible assumption
    | with_reducible apply event_evolves
    | with_reducible apply State.inc_evolves
    | with_reducible apply keepKey_evolves
    | with_reducible apply State.Evolves.ite
    | with_reducible apply h5
    | with_reducible apply h6

theorem sendRefuse_evolves {x0 : Nat} {x1 : Nat} {x2 : Nat} {x3 : Nat} (h : r.Evolves s) :
    r.Evolves (sendRefuse x0 x1 x2 x3 s) := by
  unfold sendRefuse
  repeat' first
    | with_reducible assumption
    | with_reducible apply sendCell_evolves

theorem accessSet_evolves {x0 : Nat} (h : r.Evolves s) :
    r.Evolves (accessSet x0 s) := by
  unfold accessSet
  repeat' first
    | with_reducible assumption
    | with_reducible apply accessTile_evolves
    | with_reducible apply State.Evolves.ite
    | split

theorem signalArrives_evolves {x0 : CellBits} (h : r.Evolves s) :
    r.Evolves (signalArrives x0 s) := by
  unfold signalArrives
  repeat' first
    | with_reducible assumption
    | (intro _)
    | with_reducible apply sendGrant_evolves
    | with_reducible apply deliverOnce_evolves
    | with_reducible apply sendRefuse_evolves
    | with_reducible apply addFlag_evolves
    | with_reducible apply accessSet_evolves
    | with_reducible apply State.Evolves.ite
    | extract_lets
    | split

theorem acceptNotice_evolves {x0 : Nat} {x1 : Nat} {x2 : Nat} {x3 : Nat} {x4 : Nat} (h : r.Evolves s) :
    r.Evolves (acceptNotice x0 x1 x2 x3 x4 s).1 := by
  unfold acceptNotice
  repeat' first
    | with_reducible assumption
    | with_reducible apply State.wr_evolves
    | with_reducible apply State.set_evolves
    | with_reducible apply raiseVector_evolves
    | extract_lets
    | split

theorem noticeArrives_evolves {x0 : CellBits} (h : r.Evolves s) :
    r.Evolves (noticeArrives x0 s) := by
  unfold noticeArrives
  repeat' first
    | with_reducible assumption
    | (intro _)
    | with_reducible apply sendGrant_evolves
    | with_reducible apply deliverOnce_evolves
    | with_reducible apply sendRefuse_evolves
    | with_reducible apply acceptNotice_evolves
    | with_reducible apply sendMessage_evolves
    | extract_lets
    | split

theorem noticeFullArrives_evolves {x0 : CellBits} (h : r.Evolves s) :
    r.Evolves (noticeFullArrives x0 s) := by
  unfold noticeFullArrives
  repeat' first
    | with_reducible assumption
    | (intro _)
    | with_reducible apply sendGrant_evolves
    | with_reducible apply deliverOnce_evolves
    | with_reducible apply finishSend_evolves
    | split

theorem noticeAbortedArrives_evolves {x0 : CellBits} (h : r.Evolves s) :
    r.Evolves (noticeAbortedArrives x0 s) := by
  unfold noticeAbortedArrives
  repeat' first
    | with_reducible assumption
    | (intro _)
    | with_reducible apply sendGrant_evolves
    | with_reducible apply deliverOnce_evolves
    | with_reducible apply abortedNotice_evolves

theorem refuseArrives_evolves {x0 : CellBits} (h : r.Evolves s) :
    r.Evolves (refuseArrives x0 s) := by
  unfold refuseArrives
  repeat' first
    | with_reducible assumption
    | with_reducible apply finishSend_evolves
    | split

theorem flushArrives_evolves {x0 : CellBits} (h : r.Evolves s) :
    r.Evolves (flushArrives x0 s) := by
  unfold flushArrives
  repeat' first
    | with_reducible assumption
    | with_reducible apply State.inc_evolves
    | with_reducible apply State.setFab_evolves
    | with_reducible apply event_evolves
    | with_reducible apply State.set_evolves
    | with_reducible apply State.Evolves.ite

theorem deliver_evolves {x0 : CellBits} (h : r.Evolves s) :
    r.Evolves (deliver x0 s) := by
  unfold deliver
  repeat' first
    | with_reducible assumption
    | with_reducible apply State.inc_evolves
    | with_reducible apply segmentArrives_evolves
    | with_reducible apply grantArrives_evolves
    | with_reducible apply signalArrives_evolves
    | with_reducible apply noticeArrives_evolves
    | with_reducible apply noticeFullArrives_evolves
    | with_reducible apply noticeAbortedArrives_evolves
    | with_reducible apply refuseArrives_evolves
    | with_reducible apply flushArrives_evolves
    | with_reducible apply State.Evolves.ite

theorem drainInbox_evolves {x0 : Nat} (h : r.Evolves s) :
    r.Evolves (drainInbox x0 s) := by
  induction x0 generalizing s with
  | zero => exact h
  | succ k ih =>
  simp -zeta only [drainInbox]
  repeat' first
    | with_reducible assumption
    | (intro _)
    | with_reducible apply forAll_evolves
    | with_reducible apply deliver_evolves
    | with_reducible apply State.setFab_evolves
    | with_reducible apply State.Evolves.ite
    | with_reducible apply ih

theorem routeHeld_evolves  (h : r.Evolves s) :
    r.Evolves (routeHeld s) := by
  unfold routeHeld
  repeat' first
    | with_reducible assumption
    | (intro _)
    | with_reducible apply forAll_evolves
    | with_reducible apply routeCell_evolves
    | with_reducible apply State.setFab_evolves

theorem settleFab_evolves  (h : r.Evolves s) :
    r.Evolves (settleFab s) := by
  unfold settleFab
  repeat' first
    | with_reducible assumption
    | with_reducible apply pfcUpdate_evolves
    | with_reducible apply drainInbox_evolves
    | with_reducible apply pump_evolves
    | with_reducible apply routeHeld_evolves

theorem updatePort_evolves {x0 : Nat} (h : r.Evolves s) :
    r.Evolves (updatePort x0 s) := by
  unfold updatePort
  repeat' first
    | with_reducible assumption
    | (intro _)
    | with_reducible apply State.set_evolves
    | with_reducible apply State.setFab_evolves
    | with_reducible apply event_evolves
    | with_reducible apply State.Evolves.ite
    | with_reducible apply State.Evolves.fold
    | (fail_if_no_progress with_reducible apply State.Evolves.keep)
    | extract_lets
    | split

theorem updatePorts_evolves  (h : r.Evolves s) :
    r.Evolves (updatePorts s) := by
  unfold updatePorts
  repeat' first
    | with_reducible assumption
    | (intro _)
    | with_reducible apply forAll_evolves
    | with_reducible apply updatePort_evolves

theorem setLinkState_evolves {x0 : Nat} {x1 : Nat} (h : r.Evolves s) :
    r.Evolves (setLinkState x0 x1 s) := by
  unfold setLinkState
  repeat' first
    | with_reducible assumption
    | with_reducible apply State.set_evolves
    | with_reducible apply updatePorts_evolves
    | with_reducible apply State.Evolves.ite

theorem dropQueued_evolves {x0 : Nat} {x1 : QCell} (h : r.Evolves s) :
    r.Evolves (dropQueued x0 x1 s) := by
  unfold dropQueued
  repeat' first
    | with_reducible assumption
    | with_reducible apply giveRoom_evolves
    | with_reducible apply countDrop_evolves
    | with_reducible apply State.inc_evolves

theorem clearQueue_evolves {x0 : Nat} (h : r.Evolves s) :
    r.Evolves (clearQueue x0 s) := by
  unfold clearQueue
  repeat' first
    | with_reducible assumption
    | (intro _)
    | with_reducible apply forAll_evolves
    | with_reducible apply dropQueued_evolves
    | with_reducible apply State.setLink_evolves
    | with_reducible apply State.setFab_evolves

theorem dropCopies_evolves {x0 : Nat} (h : r.Evolves s) :
    r.Evolves (dropCopies x0 s) := by
  unfold dropCopies
  repeat' first
    | with_reducible assumption
    | (intro _)
    | with_reducible apply forAll_evolves
    | with_reducible apply countDrop_evolves
    | with_reducible apply State.inc_evolves
    | with_reducible apply State.setLink_evolves

theorem leaveActive_evolves {x0 : Nat} {x1 : Nat} (h : r.Evolves s) :
    r.Evolves (leaveActive x0 x1 s) := by
  unfold leaveActive
  repeat' first
    | with_reducible assumption
    | with_reducible apply clearQueue_evolves
    | with_reducible apply dropCopies_evolves
    | with_reducible apply setLinkState_evolves
    | with_reducible apply State.Evolves.ite

theorem mismatchEvent_evolves {x0 : Nat} {x1 : Nat} (h : r.Evolves s) :
    r.Evolves (mismatchEvent x0 x1 s) := by
  unfold mismatchEvent
  repeat' first
    | with_reducible assumption
    | with_reducible apply eventD_evolves
    | with_reducible apply State.Evolves.ite

theorem evaluate_evolves {x0 : Nat} (h : r.Evolves s) :
    r.Evolves (evaluate x0 s) := by
  unfold evaluate
  repeat' first
    | with_reducible assumption
    | with_reducible apply State.set_evolves
    | with_reducible apply event_evolves
    | with_reducible apply setLinkState_evolves
    | with_reducible apply leaveActive_evolves
    | with_reducible apply mismatchEvent_evolves
    | with_reducible apply State.Evolves.ite

theorem storeHello_evolves {x0 : Nat} {x1 : Nat → Nat → Nat} (h : r.Evolves s) :
    r.Evolves (storeHello x0 x1 s) := by
  unfold storeHello
  repeat' first
    | with_reducible assumption
    | with_reducible apply State.wr_evolves

theorem lldpArrives_evolves {x0 : Nat} {x1 : List Nat} (h : r.Evolves s) :
    r.Evolves (lldpArrives x0 x1 s) := by
  unfold lldpArrives
  repeat' first
    | with_reducible assumption
    | with_reducible apply State.wr_evolves
    | with_reducible apply evaluate_evolves
    | with_reducible apply State.setLink_evolves
    | with_reducible apply storeHello_evolves
    | with_reducible apply State.Evolves.ite
    | split

theorem dmaStop_evolves {x0 : Nat} {x1 : Nat} {x2 : Nat} {x3 : Nat} (h : r.Evolves s) :
    r.Evolves (dmaStop x0 x1 x2 x3 s) := by
  unfold dmaStop
  repeat' first
    | with_reducible assumption
    | with_reducible apply State.scramble_evolves
    | with_reducible apply State.set_evolves
    | with_reducible apply State.setDma_evolves
    | with_reducible apply raiseVector_evolves
    | with_reducible apply eventD_evolves
    | with_reducible apply State.wr_evolves
    | split

theorem hostReadFails_evolves {x0 : Nat} {x1 : Nat} {x2 : Nat} (h : r.Evolves s) :
    r.Evolves (hostReadFails x0 x1 x2 s) := by
  unfold hostReadFails
  repeat' first
    | with_reducible assumption
    | with_reducible apply failIssued_evolves
    | with_reducible apply event_evolves
    | with_reducible apply dmaStop_evolves
    | split

theorem FlmJob.version_evolves {x0 : FlmJob} {x1 : Nat} {x2 : Bool} (h : r.Evolves s) :
    r.Evolves (FlmJob.version x0 x1 x2 s).1 := by
  unfold FlmJob.version
  repeat' first
    | with_reducible assumption
    | with_reducible apply touch_evolves
    | split

theorem applyTally_evolves {x0 : Nat} {x1 : Nat} {x2 : Nat} {x3 : Nat} {x4 : Tally} (h : r.Evolves s) :
    r.Evolves (applyTally x0 x1 x2 x3 x4 s) := by
  unfold applyTally
  repeat' first
    | with_reducible assumption
    | with_reducible apply addCounts_evolves
    | with_reducible apply State.set_evolves
    | split

theorem hostWriteOut_evolves {x0 : Nat} {x1 : Nat} {x2 : Bool} {x3 : List (Byte × Bool)} (h : r.Evolves s) :
    r.Evolves (hostWriteOut x0 x1 x2 x3 s) := by
  unfold hostWriteOut
  repeat' first
    | with_reducible assumption
    | (intro _)
    | with_reducible apply forAll_evolves
    | with_reducible apply State.emit_evolves
    | with_reducible apply event_evolves
    | with_reducible apply State.Evolves.ite

theorem tintLines_evolves {x0 : Nat} {x1 : Nat} {x2 : Nat} {x3 : Nat} {x4 : Nat} (h : r.Evolves s) :
    r.Evolves (tintLines x0 x1 x2 x3 x4 s) := by
  unfold tintLines
  repeat' first
    | with_reducible assumption
    | (intro _)
    | with_reducible apply forAll_evolves
    | with_reducible apply State.set_evolves
    | with_reducible apply State.inc_evolves
    | with_reducible apply State.Evolves.ite

theorem mirrorOut_evolves {x0 : Nat} {x1 : Nat} (h : r.Evolves s) :
    r.Evolves (mirrorOut x0 x1 s).1 := by
  unfold mirrorOut
  repeat' first
    | with_reducible assumption
    | (intro _)
    | with_reducible apply sendMessage_evolves
    | with_reducible apply State.Evolves.foldl Prod.fst

theorem readForMerge_evolves {x0 : Nat} (h : r.Evolves s) :
    r.Evolves (readForMerge x0 s) := by
  unfold readForMerge
  repeat' first
    | with_reducible assumption
    | with_reducible apply readLine_evolves
    | with_reducible apply applyCorrection_evolves
    | extract_lets
    | split

theorem writeLine_evolves {x0 : Nat} {x1 : List Byte} {x2 : Bool} (h : r.Evolves s) :
    r.Evolves (writeLine x0 x1 x2 s) := by
  unfold writeLine
  repeat' first
    | with_reducible assumption
    | with_reducible apply State.setPoison_evolves
    | with_reducible apply State.clearErrs_evolves
    | with_reducible apply State.setBytes_evolves
    | with_reducible apply settle_evolves
    | with_reducible apply readForMerge_evolves
    | with_reducible apply State.Evolves.ite

theorem writeWhere_evolves {x0 : Nat → Bool} {x1 : Nat} {x2 : List (Byte × Bool)} (h : r.Evolves s) :
    r.Evolves (writeWhere x0 x1 x2 s) := by
  unfold writeWhere
  repeat' first
    | with_reducible assumption
    | (intro _)
    | with_reducible apply forAll_evolves
    | with_reducible apply writeLine_evolves

theorem writeMarked_evolves {x0 : Nat} {x1 : List (Byte × Bool)} (h : r.Evolves s) :
    r.Evolves (writeMarked x0 x1 s) := by
  unfold writeMarked
  repeat' first
    | with_reducible assumption
    | with_reducible apply writeWhere_evolves

theorem State.Evolves.iteFst {α : Type} {p : Prop} [Decidable p] {a b : State × α} (ha : r.Evolves a.1) (hb : r.Evolves b.1) :
    r.Evolves (if p then a else b).1 := by split <;> assumption

theorem tintFar_evolves {x0 : Nat} {x1 : Nat} {x2 : Nat} {x3 : Nat} {x4 : List (Byte × Bool)} (h : r.Evolves s) :
    r.Evolves (tintFar x0 x1 x2 x3 x4 s) := by
  unfold tintFar
  repeat' first
    | with_reducible assumption
    | (intro _)
    | with_reducible apply forAll_evolves
    | with_reducible apply State.set_evolves
    | with_reducible apply State.wr_evolves
    | with_reducible apply State.tick_evolves
    | with_reducible apply State.inc_evolves
    | with_reducible apply State.Evolves.ite
    | extract_lets
    | split

theorem writeServed_evolves {x0 : Nat} {x1 : Nat} {x2 : List (Byte × Bool)} (h : r.Evolves s) :
    r.Evolves (writeServed x0 x1 x2 s) := by
  unfold writeServed
  repeat' first
    | with_reducible assumption
    | with_reducible apply writeWhere_evolves

theorem FlmJob.put_evolves {j : FlmJob} {i : Nat} {sc : Bool} {p : Place} {bs : List (Byte × Bool)} {o : FlmOut} (h : r.Evolves o.s) :
    r.Evolves (j.put i sc p bs o).s := by
  unfold FlmJob.put
  extract_lets s1
  have h1 : r.Evolves s1 := State.inc_evolves h
  clear_value s1
  repeat' first
    | with_reducible assumption
    | (intro _)
    | with_reducible apply sendMessage_evolves
    | with_reducible apply hostWriteOut_evolves
    | with_reducible apply tintLines_evolves
    | with_reducible apply State.inc_evolves
    | with_reducible apply State.Evolves.iteFst
    | with_reducible apply mirrorOut_evolves
    | with_reducible apply writeMarked_evolves
    | with_reducible apply touch_evolves
    | with_reducible apply State.Evolves.ite
    | with_reducible apply State.Evolves.foldl FlmOut.s
    | with_reducible apply writeServed_evolves
    | with_reducible apply accessRange_evolves
    | with_reducible apply tintFar_evolves
    | split
    | (dsimp only; extract_lets)

theorem flumeFinish_evolves {x0 : FlmJob} (h : r.Evolves s) :
    r.Evolves (flumeFinish x0 s).1 := by
  unfold flumeFinish
  repeat' first
    | with_reducible assumption
    | (intro _)
    | with_reducible apply FlmOut.s_evolves
    | with_reducible apply applyTally_evolves
    | with_reducible apply event_evolves
    | with_reducible apply State.set_evolves
    | with_reducible apply sendMessage_evolves
    | with_reducible apply hostWriteOut_evolves
    | with_reducible apply tintLines_evolves
    | with_reducible apply mirrorOut_evolves
    | with_reducible apply writeMarked_evolves
    | with_reducible apply touch_evolves
    | with_reducible apply State.inc_evolves
    | with_reducible apply State.Evolves.ite
    | with_reducible apply State.Evolves.foldl FlmOut.s
    | with_reducible apply FlmJob.put_evolves
    | split

theorem requestPiece_evolves {x0 : Nat} {x1 : Nat} {x2 : Nat} {x3 : Place} {x4 : Nat} (h : r.Evolves s) :
    r.Evolves (requestPiece x0 x1 x2 x3 x4 s) := by
  unfold requestPiece
  repeat' first
    | with_reducible assumption
    | with_reducible apply sendMessage_evolves
    | with_reducible apply bumpUid_evolves
    | with_reducible apply State.setFab_evolves
    | with_reducible apply State.emit_evolves
    | with_reducible apply State.Evolves.ite

theorem flumeAsk_evolves {x0 : FlmJob} {x1 : Nat} (h : r.Evolves s) :
    r.Evolves (flumeAsk x0 x1 s).1 := by
  unfold flumeAsk
  refine State.Evolves.foldl Prod.fst h fun y x hy => ?_
  dsimp only
  split
  · exact requestPiece_evolves hy
  · exact hy

theorem flumeGather_evolves {x0 : FlmJob} (h : r.Evolves s) :
    r.Evolves (flumeGather x0 s).1 := by
  unfold flumeGather
  repeat' first
    | with_reducible assumption
    | (intro _)
    | with_reducible apply forAll_evolves
    | with_reducible apply touch_evolves
    | with_reducible apply flumeFinish_evolves
    | with_reducible apply requestPiece_evolves
    | with_reducible apply accessRange_evolves
    | with_reducible apply flumeAsk_evolves
    | extract_lets
    | split

theorem flumeMore_evolves {x0 : Nat} (h : r.Evolves s) :
    r.Evolves (flumeMore x0 s) := by
  unfold flumeMore
  repeat' first
    | with_reducible assumption
    | (intro _)
    | with_reducible apply flumeAsk_evolves
    | with_reducible apply setIssued_evolves
    | extract_lets
    | split

theorem flumePart_evolves {x0 : Nat} {x1 : Nat} {x2 : Nat} {x3 : List (Byte × Bool)} (h : r.Evolves s) :
    r.Evolves (flumePart x0 x1 x2 x3 s) := by
  unfold flumePart
  repeat' first
    | with_reducible assumption
    | (intro _)
    | with_reducible apply showEngine_evolves
    | with_reducible apply setIssued_evolves
    | with_reducible apply FlmJob.version_evolves
    | with_reducible apply flumeGather_evolves
    | with_reducible apply failIssued_evolves
    | with_reducible apply eventD_evolves
    | with_reducible apply event_evolves
    | with_reducible apply flumeMore_evolves
    | with_reducible apply flumeFinish_evolves
    | with_reducible apply State.Evolves.ite
    | (fail_if_no_progress with_reducible apply State.Evolves.keep)
    | extract_lets
    | split

theorem dmaRead_evolves {x0 : Nat} {x1 : Nat} {x2 : Nat} {x3 : Nat} (h : r.Evolves s) :
    r.Evolves (dmaRead x0 x1 x2 x3 s) := by
  unfold dmaRead
  repeat' first
    | with_reducible assumption
    | with_reducible apply State.emit_evolves
    | with_reducible apply State.setDma_evolves
    | (fail_if_no_progress with_reducible apply State.Evolves.keepUid (Nat.le_succ _))

theorem dmaBegin_evolves {x0 : Nat} {x1 : Nat} {x2 : Nat} (h : r.Evolves s) :
    r.Evolves (dmaBegin x0 x1 x2 s) := by
  unfold dmaBegin
  repeat' first
    | with_reducible assumption
    | with_reducible apply State.setDma_evolves
    | with_reducible apply dmaStop_evolves
    | with_reducible apply touch_evolves
    | with_reducible apply accessRange_evolves
    | with_reducible apply hostWriteOut_evolves
    | with_reducible apply dmaRead_evolves
    | with_reducible apply State.Evolves.ite
    | extract_lets
    | split

theorem dmaCompletion_evolves {x0 : Nat} {x1 : Nat} {x2 : List (Byte × Bool)} (h : r.Evolves s) :
    r.Evolves (dmaCompletion x0 x1 x2 s) := by
  unfold dmaCompletion
  repeat' first
    | with_reducible assumption
    | with_reducible apply dmaBegin_evolves
    | with_reducible apply State.setDma_evolves
    | with_reducible apply countUnmirrored_evolves
    | with_reducible apply writeServed_evolves
    | with_reducible apply accessRange_evolves
    | with_reducible apply dmaRead_evolves
    | with_reducible apply State.Evolves.ite
    | (fail_if_no_progress with_reducible apply State.Evolves.keep)
    | extract_lets
    | split

theorem hostReadArrives_evolves {x0 : Nat} {x1 : Nat} {x2 : List (Byte × Bool)} (h : r.Evolves s) :
    r.Evolves (hostReadArrives x0 x1 x2 s) := by
  unfold hostReadArrives
  repeat' first
    | with_reducible assumption
    | with_reducible apply flumePart_evolves
    | with_reducible apply State.setFab_evolves
    | with_reducible apply dmaCompletion_evolves
    | split

theorem clearOvf_evolves {x0 : Nat} (h : r.Evolves s) :
    r.Evolves (clearOvf x0 s) := by
  unfold clearOvf
  repeat' first
    | with_reducible assumption
    | with_reducible apply State.set_evolves
    | with_reducible apply State.resetRegs_evolves

theorem dropReasm_evolves {x0 : Reasm} (h : r.Evolves s) :
    r.Evolves (dropReasm x0 s) := by
  unfold dropReasm
  repeat' first
    | with_reducible assumption
    | with_reducible apply State.setFab_evolves

theorem refuseSeg_evolves {x0 : Reasm} {x1 : Nat} (h : r.Evolves s) :
    r.Evolves (refuseSeg x0 x1 s) := by
  unfold refuseSeg
  repeat' first
    | with_reducible assumption
    | with_reducible apply sendRefuse_evolves

theorem serveSegment_evolves {x0 : Nat} {x1 : Nat} {x2 : Nat} {x3 : Nat} {x4 : Reasm → State → State} {x5 : Reasm → State → State} (h4 : ∀ y0 s, r.Evolves s → r.Evolves (x4 y0 s)) (h5 : ∀ y0 s, r.Evolves s → r.Evolves (x5 y0 s)) (h : r.Evolves s) :
    r.Evolves (serveSegment x0 x1 x2 x3 x4 x5 s) := by
  unfold serveSegment
  repeat' first
    | with_reducible assumption
    | (intro _)
    | with_reducible apply settleFab_evolves
    | with_reducible apply dropReasm_evolves
    | with_reducible apply deliverOnce_evolves
    | with_reducible apply refuseSeg_evolves
    | with_reducible apply event_evolves
    | with_reducible apply State.inc_evolves
    | with_reducible apply accessRange_evolves
    | with_reducible apply h4
    | with_reducible apply h5
    | with_reducible apply State.Evolves.ite
    | split

theorem setPhaseBoot_evolves {x0 : BootPhase} (h : r.Evolves s) :
    r.Evolves (setPhaseBoot x0 s) := by
  unfold setPhaseBoot
  repeat' first
    | with_reducible assumption
    | (fail_if_no_progress with_reducible apply State.Evolves.keep)

theorem writeSetpoint_evolves {x0 : Nat} (h : r.Evolves s) :
    r.Evolves (writeSetpoint x0 s) := by
  unfold writeSetpoint
  repeat' first
    | with_reducible assumption
    | with_reducible apply State.emit_evolves
    | with_reducible apply State.set_evolves

theorem setFlag_evolves {x0 : Nat} {x1 : Nat} {x2 : Nat} (h : r.Evolves s) :
    r.Evolves (setFlag x0 x1 x2 s) := by
  unfold setFlag
  repeat' first
    | with_reducible assumption
    | with_reducible apply flagChanged_evolves
    | with_reducible apply State.set_evolves
    | with_reducible apply State.Evolves.ite

theorem sendNak_evolves {x0 : Nat} (h : r.Evolves s) :
    r.Evolves (sendNak x0 s) := by
  unfold sendNak
  repeat' first
    | with_reducible assumption
    | with_reducible apply sendLocal_evolves
    | with_reducible apply State.setLink_evolves
    | with_reducible apply State.Evolves.ite

theorem discardCell_evolves {x0 : Nat} (h : r.Evolves s) :
    r.Evolves (discardCell x0 s) := by
  unfold discardCell
  repeat' first
    | with_reducible assumption
    | with_reducible apply sendNak_evolves
    | with_reducible apply State.inc_evolves

theorem applyAck_evolves {x0 : Nat} {x1 : Nat} (h : r.Evolves s) :
    r.Evolves (applyAck x0 x1 s) := by
  unfold applyAck
  repeat' first
    | with_reducible assumption
    | with_reducible apply State.setLink_evolves
    | with_reducible apply State.Evolves.ite

theorem applyEnvelope_evolves {x0 : Nat} {x1 : CellBits} (h : r.Evolves s) :
    r.Evolves (applyEnvelope x0 x1 s) := by
  unfold applyEnvelope
  repeat' first
    | with_reducible assumption
    | with_reducible apply applyAck_evolves
    | with_reducible apply State.setLink_evolves

theorem receive_evolves {x0 : Nat} {x1 : CellBits} (h : r.Evolves s) :
    r.Evolves (receive x0 x1 s).1 := by
  unfold receive
  repeat' first
    | with_reducible assumption
    | with_reducible apply discardCell_evolves
    | with_reducible apply applyEnvelope_evolves
    | with_reducible apply event_evolves
    | with_reducible apply State.inc_evolves
    | with_reducible apply sendNak_evolves
    | with_reducible apply State.setLink_evolves
    | with_reducible apply countDrop_evolves
    | extract_lets
    | split

theorem wheelSend_evolves {x0 : Nat} {x1 : Nat} {x2 : Nat} {x3 : Nat} {x4 : Nat} {x5 : Nat} {x6 : Nat} {x7 : Bool} {x8 : Bool} (h : r.Evolves s) :
    r.Evolves (wheelSend x0 x1 x2 x3 x4 x5 x6 x7 x8 s) := by
  unfold wheelSend
  repeat' first
    | with_reducible assumption
    | with_reducible apply enqueue_evolves

theorem sendChunk_evolves {x0 : Nat} {x1 : Nat} {x2 : Coll} {x3 : Chunk} (h : r.Evolves s) :
    r.Evolves (sendChunk x0 x1 x2 x3 s) := by
  unfold sendChunk
  repeat' first
    | with_reducible assumption
    | (intro _)
    | with_reducible apply wheelSend_evolves
    | with_reducible apply forAll_evolves
    | with_reducible apply State.inc_evolves

theorem sendQueued_evolves {x0 : Nat} {x1 : Nat} (h : r.Evolves s) :
    r.Evolves (sendQueued x0 x1 s) := by
  induction x1 generalizing s with
  | zero => exact h
  | succ k ih =>
  simp -zeta only [sendQueued]
  repeat' first
    | with_reducible assumption
    | with_reducible apply sendChunk_evolves
    | with_reducible apply updColl_evolves
    | with_reducible apply ih
    | with_reducible apply sendChunk_evolves
    | with_reducible apply updColl_evolves
    | split

theorem wheelTally_evolves {x0 : Nat} {x1 : Coll} {x2 : Tally} (h : r.Evolves s) :
    r.Evolves (wheelTally x0 x1 x2 s) := by
  unfold wheelTally
  repeat' first
    | with_reducible assumption
    | with_reducible apply applyTally_evolves
    | with_reducible apply State.Evolves.ite

theorem keepSums_evolves {x0 : Nat} {x1 : Nat} {x2 : List (Nat × Val × Bool × Bool)} (h : r.Evolves s) :
    r.Evolves (keepSums x0 x1 x2 s) := by
  unfold keepSums
  repeat' first
    | with_reducible assumption
    | with_reducible apply wheelTally_evolves
    | with_reducible apply updColl_evolves
    | split

theorem passOn_evolves {x0 : Nat} {x1 : Chunk} (h : r.Evolves s) :
    r.Evolves (passOn x0 x1 s) := by
  unfold passOn
  repeat' first
    | with_reducible assumption
    | with_reducible apply updColl_evolves

theorem reduceChunk_evolves {x0 : Nat} {x1 : Chunk} (h : r.Evolves s) :
    r.Evolves (reduceChunk x0 x1 s) := by
  unfold reduceChunk
  repeat' first
    | with_reducible assumption
    | with_reducible apply wheelTally_evolves
    | with_reducible apply keepSums_evolves
    | with_reducible apply passOn_evolves
    | with_reducible apply updColl_evolves
    | split

theorem directChunk_evolves {x0 : Nat} {x1 : Chunk} (h : r.Evolves s) :
    r.Evolves (directChunk x0 x1 s) := by
  unfold directChunk
  repeat' first
    | with_reducible assumption
    | with_reducible apply updColl_evolves
    | with_reducible apply passOn_evolves
    | with_reducible apply State.Evolves.ite
    | split

theorem moveChunk_evolves {x0 : Nat} {x1 : Chunk} (h : r.Evolves s) :
    r.Evolves (moveChunk x0 x1 s) := by
  unfold moveChunk
  repeat' first
    | with_reducible assumption
    | with_reducible apply updColl_evolves
    | with_reducible apply passOn_evolves
    | split

theorem gatherChunk_evolves {x0 : Nat} {x1 : Chunk} (h : r.Evolves s) :
    r.Evolves (gatherChunk x0 x1 s) := by
  unfold gatherChunk
  repeat' first
    | with_reducible assumption
    | with_reducible apply updColl_evolves
    | with_reducible apply passOn_evolves
    | split

theorem takeChunk_evolves {x0 : Nat} {x1 : Chunk} (h : r.Evolves s) :
    r.Evolves (takeChunk x0 x1 s) := by
  unfold takeChunk
  repeat' first
    | with_reducible assumption
    | with_reducible apply updColl_evolves
    | with_reducible apply reduceChunk_evolves
    | with_reducible apply directChunk_evolves
    | with_reducible apply moveChunk_evolves
    | with_reducible apply gatherChunk_evolves
    | split

theorem beginReduce_evolves {x0 : Nat} {x1 : Nat} (h : r.Evolves s) :
    r.Evolves (beginReduce x0 x1 s) := by
  unfold beginReduce
  repeat' first
    | with_reducible assumption
    | with_reducible apply keepSums_evolves
    | with_reducible apply beginTransfer_evolves
    | with_reducible apply wheelTally_evolves
    | with_reducible apply updColl_evolves
    | with_reducible apply State.Evolves.ite
    | split

theorem beginGather_evolves {x0 : Nat} {x1 : Nat} (h : r.Evolves s) :
    r.Evolves (beginGather x0 x1 s) := by
  unfold beginGather
  repeat' first
    | with_reducible assumption
    | (intro _)
    | with_reducible apply beginTransfer_evolves
    | with_reducible apply forAll_evolves
    | with_reducible apply updColl_evolves
    | with_reducible apply State.Evolves.ite
    | split

theorem beginDirect_evolves {x0 : Nat} (h : r.Evolves s) :
    r.Evolves (beginDirect x0 s) := by
  unfold beginDirect
  repeat' first
    | with_reducible assumption
    | with_reducible apply beginTransfer_evolves
    | with_reducible apply updColl_evolves
    | with_reducible apply State.Evolves.ite
    | split

theorem beginMove_evolves {x0 : Nat} (h : r.Evolves s) :
    r.Evolves (beginMove x0 s) := by
  unfold beginMove
  repeat' first
    | with_reducible assumption
    | (intro _)
    | with_reducible apply forAll_evolves
    | with_reducible apply beginTransfer_evolves
    | with_reducible apply updColl_evolves
    | split

theorem wheelCtl_evolves {x0 : Nat} {x1 : Nat} {x2 : Bool} {x3 : Nat} {x4 : Nat} (h : r.Evolves s) :
    r.Evolves (wheelCtl x0 x1 x2 x3 x4 s) := by
  unfold wheelCtl
  repeat' first
    | with_reducible assumption
    | with_reducible apply wheelSend_evolves
    | split

theorem beginClose_evolves {x0 : Nat} {x1 : Nat} (h : r.Evolves s) :
    r.Evolves (beginClose x0 x1 s) := by
  unfold beginClose
  repeat' first
    | with_reducible assumption
    | (intro _)
    | with_reducible apply State.set_evolves
    | with_reducible apply updColl_evolves
    | with_reducible apply forAll_evolves
    | with_reducible apply wheelCtl_evolves
    | extract_lets
    | split

theorem beginStage_evolves {x0 : Nat} {x1 : WStage} (h : r.Evolves s) :
    r.Evolves (beginStage x0 x1 s) := by
  unfold beginStage
  repeat' first
    | with_reducible assumption
    | with_reducible apply beginReduce_evolves
    | with_reducible apply beginGather_evolves
    | with_reducible apply beginDirect_evolves
    | with_reducible apply beginMove_evolves
    | with_reducible apply beginClose_evolves
    | split

theorem finishDirect_evolves {x0 : Nat} (h : r.Evolves s) :
    r.Evolves (finishDirect x0 s) := by
  unfold finishDirect
  repeat' first
    | with_reducible assumption
    | with_reducible apply updColl_evolves
    | with_reducible apply keepSums_evolves
    | with_reducible apply wheelTally_evolves
    | split

theorem wheelRun_evolves {x0 : Nat} {x1 : Nat} (h : r.Evolves s) :
    r.Evolves (wheelRun x0 x1 s) := by
  induction x1 generalizing s with
  | zero => exact h
  | succ k ih =>
  simp -zeta only [wheelRun]
  repeat' first
    | with_reducible assumption
    | (intro _)
    | with_reducible apply sendQueued_evolves
    | with_reducible apply forAll_evolves
    | with_reducible apply takeChunk_evolves
    | with_reducible apply updColl_evolves
    | with_reducible apply beginStage_evolves
    | with_reducible apply finishDirect_evolves
    | with_reducible apply ih
    | with_reducible apply sendQueued_evolves
    | with_reducible apply forAll_evolves
    | with_reducible apply takeChunk_evolves
    | with_reducible apply updColl_evolves
    | with_reducible apply beginStage_evolves
    | with_reducible apply finishDirect_evolves
    | (dsimp +zetaDelta -failIfUnchanged only [] at ⊢; split)

theorem mergeClose_evolves {x0 : Nat} {x1 : Nat} {x2 : Bool} {x3 : Nat} {x4 : Bool} {x5 : Bool} (h : r.Evolves s) :
    r.Evolves (mergeClose x0 x1 x2 x3 x4 x5 s) := by
  unfold mergeClose
  repeat' first
    | with_reducible assumption
    | with_reducible apply updColl_evolves
    | with_reducible apply wheelCtl_evolves
    | with_reducible apply State.Evolves.ite
    | split

theorem writeLines_evolves {x0 : Nat} {x1 : Nat} {x2 : List Byte} {x3 : Bool} (h : r.Evolves s) :
    r.Evolves (writeLines x0 x1 x2 x3 s) := by
  induction x0 generalizing x1 x2 s with
  | zero => exact h
  | succ k ih =>
  simp -zeta only [writeLines]
  repeat' first
    | with_reducible assumption
    | with_reducible apply writeLine_evolves
    | with_reducible apply State.Evolves.ite
    | with_reducible apply ih

theorem State.write_evolves {x1 : Nat} {x2 : List Byte} {x3 : optParam Bool false} (h : r.Evolves s) :
    r.Evolves (State.write s x1 x2 x3) := by
  unfold State.write
  repeat' first
    | with_reducible assumption
    | with_reducible apply writeLines_evolves

theorem wheelWrite_evolves {x0 : Nat} {x1 : Nat} {x2 : List (Byte × Bool)} (h : r.Evolves s) :
    r.Evolves (wheelWrite x0 x1 x2 s) := by
  unfold wheelWrite
  repeat' first
    | with_reducible assumption
    | with_reducible apply countUnmirrored_evolves
    | with_reducible apply writeServed_evolves
    | with_reducible apply accessRange_evolves

theorem writeDescriptor_evolves {x0 : Nat} {x1 : Coll} {x2 : Bool} {x3 : Nat} {x4 : Nat} (h : r.Evolves s) :
    r.Evolves (writeDescriptor x0 x1 x2 x3 x4 s) := by
  unfold writeDescriptor
  repeat' first
    | with_reducible assumption
    | (intro _)
    | with_reducible apply wheelWrite_evolves

theorem endQuietly_evolves {x0 : Nat} {x1 : Coll} {x2 : Nat} {x3 : Nat} (h : r.Evolves s) :
    r.Evolves (endQuietly x0 x1 x2 x3 s) := by
  unfold endQuietly
  repeat' first
    | with_reducible assumption
    | with_reducible apply accessRange_evolves
    | with_reducible apply State.scramble_evolves
    | with_reducible apply collFailed_evolves
    | with_reducible apply writeDescriptor_evolves
    | with_reducible apply State.Evolves.ite
    | extract_lets
    | split

theorem endFailed_evolves {x0 : Nat} {x1 : Coll} {x2 : Nat} {x3 : Nat} (h : r.Evolves s) :
    r.Evolves (endFailed x0 x1 x2 x3 s) := by
  unfold endFailed
  repeat' first
    | with_reducible assumption
    | with_reducible apply eventD_evolves
    | with_reducible apply event_evolves
    | with_reducible apply endQuietly_evolves
    | with_reducible apply State.Evolves.ite
    | extract_lets
    | split

theorem wheelFail_evolves {x0 : Nat} {x1 : Nat} {x2 : Nat} (h : r.Evolves s) :
    r.Evolves (wheelFail x0 x1 x2 s) := by
  unfold wheelFail
  repeat' first
    | with_reducible assumption
    | with_reducible apply setIssued_evolves
    | with_reducible apply endFailed_evolves
    | with_reducible apply freezeQueue_evolves
    | split

theorem wheelCtlArrives_evolves {x0 : Nat} {x1 : Nat} {x2 : CellBits} (h : r.Evolves s) :
    r.Evolves (wheelCtlArrives x0 x1 x2 s) := by
  unfold wheelCtlArrives
  repeat' first
    | with_reducible assumption
    | with_reducible apply State.setWheel_evolves
    | with_reducible apply wheelRun_evolves
    | with_reducible apply updColl_evolves
    | with_reducible apply mergeClose_evolves
    | with_reducible apply wheelFail_evolves
    | with_reducible apply wheelCtl_evolves
    | with_reducible apply State.Evolves.ite
    | split

theorem grantChunk_evolves {x0 : Nat} {x1 : Nat} {x2 : Nat} (h : r.Evolves s) :
    r.Evolves (grantChunk x0 x1 x2 s) := by
  unfold grantChunk
  repeat' first
    | with_reducible assumption
    | with_reducible apply wheelSend_evolves
    | with_reducible apply State.Evolves.ite
    | split

theorem abortBoth_evolves {x0 : Nat} {x1 : Coll} {x2 : Nat} (h : r.Evolves s) :
    r.Evolves (abortBoth x0 x1 x2 s) := by
  unfold abortBoth
  repeat' first
    | with_reducible assumption
    | (intro _)
    | with_reducible apply forAll_evolves
    | with_reducible apply wheelCtl_evolves
    | with_reducible apply State.Evolves.ite

theorem wheelFailBoth_evolves {x0 : Nat} {x1 : Nat} {x2 : Nat} (h : r.Evolves s) :
    r.Evolves (wheelFailBoth x0 x1 x2 s) := by
  unfold wheelFailBoth
  repeat' first
    | with_reducible assumption
    | with_reducible apply wheelFail_evolves
    | with_reducible apply abortBoth_evolves
    | split

theorem wheelTouch_evolves {x0 : Nat} {x1 : Nat} (h : r.Evolves s) :
    r.Evolves (wheelTouch x0 x1 s) := by
  unfold wheelTouch
  repeat' first
    | with_reducible assumption
    | with_reducible apply touch_evolves
    | with_reducible apply accessRange_evolves

theorem chunkArrives_evolves {x0 : Nat} {x1 : Nat} {x2 : CellBits} {x3 : List CellBits} (h : r.Evolves s) :
    r.Evolves (chunkArrives x0 x1 x2 x3 s) := by
  unfold chunkArrives
  repeat' first
    | with_reducible assumption
    | (intro _)
    | with_reducible apply grantChunk_evolves
    | with_reducible apply wheelFailBoth_evolves
    | with_reducible apply updColl_evolves
    | with_reducible apply State.inc_evolves
    | with_reducible apply wheelTouch_evolves
    | with_reducible apply wheelRun_evolves
    | with_reducible apply takeChunk_evolves
    | with_reducible apply State.Evolves.ite
    | (fail_if_no_progress with_reducible apply State.Evolves.keep)
    | extract_lets
    | split

theorem wheelCell_evolves {x0 : Nat} {x1 : CellBits} (h : r.Evolves s) :
    r.Evolves (wheelCell x0 x1 s) := by
  unfold wheelCell
  repeat' first
    | with_reducible assumption
    | with_reducible apply State.inc_evolves
    | with_reducible apply wheelCtlArrives_evolves
    | with_reducible apply chunkArrives_evolves
    | with_reducible apply State.setLink_evolves
    | (dsimp +zetaDelta -failIfUnchanged only [] at ⊢; split)

theorem colCellIn_evolves {x0 : Nat} {x1 : CellBits → Bool} {x2 : CellBits} (h : r.Evolves s) :
    r.Evolves (colCellIn x0 x1 x2 s) := by
  unfold colCellIn
  repeat' first
    | with_reducible assumption
    | with_reducible apply receive_evolves
    | with_reducible apply wheelCell_evolves
    | with_reducible apply State.Evolves.ite

theorem State.setDom_evolves {x1 : Nat} {x2 : DomSt} (h : r.Evolves s) :
    r.Evolves (State.setDom s x1 x2) := by
  unfold State.setDom
  repeat' first
    | with_reducible assumption
    | (fail_if_no_progress with_reducible apply State.Evolves.keep)

theorem failLink_evolves {x0 : Nat} {x1 : Nat} (h : r.Evolves s) :
    r.Evolves (failLink x0 x1 s) := by
  unfold failLink
  repeat' first
    | with_reducible assumption
    | with_reducible apply leaveActive_evolves
    | with_reducible apply State.setLink_evolves
    | with_reducible apply State.set_evolves
    | with_reducible apply eventD_evolves
    | with_reducible apply event_evolves
    | with_reducible apply State.Evolves.ite

theorem replay_evolves {x0 : Nat} (h : r.Evolves s) :
    r.Evolves (replay x0 s) := by
  unfold replay
  repeat' first
    | with_reducible assumption
    | (intro _)
    | with_reducible apply failLink_evolves
    | with_reducible apply event_evolves
    | with_reducible apply State.inc_evolves
    | with_reducible apply State.setLink_evolves
    | with_reducible apply forAll_evolves
    | with_reducible apply State.emit_evolves
    | with_reducible apply State.Evolves.ite

theorem finalGrant_evolves {x0 : Reasm} {x1 : List PayField} (h : r.Evolves s) :
    r.Evolves (finalGrant x0 x1 s) := by
  unfold finalGrant
  repeat' first
    | with_reducible assumption
    | with_reducible apply sendGrant_evolves

theorem becomeAbsent_evolves {x0 : Nat} (h : r.Evolves s) :
    r.Evolves (becomeAbsent x0 s) := by
  unfold becomeAbsent
  repeat' first
    | with_reducible assumption
    | with_reducible apply event_evolves
    | with_reducible apply State.set_evolves
    | with_reducible apply leaveActive_evolves

theorem writeReg_evolves {x0 : Nat} {x1 : Nat} (h : r.Evolves s) :
    r.Evolves (writeReg x0 x1 s) := by
  unfold writeReg
  repeat' first
    | with_reducible assumption
    | with_reducible apply writeBits_evolves

theorem startTraining_evolves {x0 : Nat} (h : r.Evolves s) :
    r.Evolves (startTraining x0 s) := by
  unfold startTraining
  repeat' first
    | with_reducible assumption
    | (intro _)
    | with_reducible apply leaveActive_evolves
    | with_reducible apply State.setLink_evolves
    | with_reducible apply forAll_evolves
    | with_reducible apply State.setFab_evolves
    | with_reducible apply State.set_evolves
    | with_reducible apply State.Evolves.ite

theorem lnkCtrl_evolves {x0 : Nat} {x1 : Nat} (h : r.Evolves s) :
    r.Evolves (lnkCtrl x0 x1 s) := by
  unfold lnkCtrl
  repeat' first
    | with_reducible assumption
    | (intro _)
    | with_reducible apply writeReg_evolves
    | with_reducible apply forAll_evolves
    | with_reducible apply State.wr_evolves
    | with_reducible apply leaveActive_evolves
    | with_reducible apply State.set_evolves
    | with_reducible apply startTraining_evolves
    | with_reducible apply evaluate_evolves
    | with_reducible apply State.Evolves.ite

theorem lnkCtrlBit_evolves {x0 : Sys2Proof.PortId} {x1 : Sys2Proof.LinkId} {x2 : Nat} {x3 : Bool} (h : r.Evolves s) :
    r.Evolves (lnkCtrlBit x0 x1 x2 x3 s) := by
  unfold lnkCtrlBit
  repeat' first
    | with_reducible assumption
    | (intro _)
    | with_reducible apply settleFab_evolves
    | with_reducible apply ownerWrite_evolves
    | with_reducible apply lnkCtrl_evolves

theorem armBases_evolves {x0 : Nat} {x1 : Image} (h : r.Evolves s) :
    r.Evolves (armBases x0 x1 s) := by
  unfold armBases
  repeat' first
    | with_reducible assumption
    | (intro _)
    | with_reducible apply forAll_evolves
    | with_reducible apply State.set_evolves
    | with_reducible apply State.wr_evolves
    | with_reducible apply State.Evolves.ite

theorem setDiscard_evolves {x0 : Nat} (h : r.Evolves s) :
    r.Evolves (setDiscard x0 s) := by
  unfold setDiscard
  repeat' first
    | with_reducible assumption
    | with_reducible apply event_evolves

theorem flagWrite_evolves {x0 : Nat} {x1 : Nat} {x2 : Nat} (h : r.Evolves s) :
    r.Evolves (flagWrite x0 x1 x2 s) := by
  unfold flagWrite
  repeat' first
    | with_reducible assumption
    | with_reducible apply setDiscard_evolves
    | with_reducible apply setFlag_evolves
    | with_reducible apply State.Evolves.ite

theorem quickly_evolves {x0 : Issued → State → State} {x1 : Issued} (h0 : ∀ y0 s, r.Evolves s → r.Evolves (x0 y0 s)) (h : r.Evolves s) :
    r.Evolves (quickly x0 x1 s).1 := by
  unfold quickly
  repeat' first
    | with_reducible assumption
    | with_reducible apply h0

theorem spend_evolves {x0 : Nat} (h : r.Evolves s) :
    r.Evolves (spend x0 s) := by
  unfold spend
  repeat' first
    | with_reducible assumption
    | (fail_if_no_progress with_reducible apply State.Evolves.keepFree (Nat.le_add_right _ _))

theorem spdmAnswer_evolves {x0 : Sys2Proof.Binding} {x1 : Nat} {x2 : MctpMsg} (h : r.Evolves s) :
    r.Evolves (spdmAnswer x0 x1 x2 s) := by
  unfold spdmAnswer
  repeat' first
    | with_reducible assumption
    | with_reducible apply State.emit_evolves
    | with_reducible apply spend_evolves
    | with_reducible apply State.Evolves.ite
    | (fail_if_no_progress with_reducible apply State.Evolves.keep)

theorem resetQueue_evolves {x0 : Nat} (h : r.Evolves s) :
    r.Evolves (resetQueue x0 s) := by
  unfold resetQueue
  repeat' first
    | with_reducible assumption
    | with_reducible apply discardSluice_evolves
    | (intro _)
    | with_reducible apply State.wr_evolves
    | with_reducible apply forAll_evolves
    | with_reducible apply State.set_evolves
    | with_reducible apply State.setQue_evolves

theorem runAgain_evolves {x0 : Nat} (h : r.Evolves s) :
    r.Evolves (runAgain x0 s) := by
  unfold runAgain
  repeat' first
    | with_reducible assumption
    | with_reducible apply State.set_evolves

theorem thawed_evolves {x0 : Nat} (h : r.Evolves s) :
    r.Evolves (thawed x0 s) := by
  unfold thawed
  repeat' first
    | with_reducible assumption
    | with_reducible apply State.setQue_evolves
    | with_reducible apply State.wr_evolves
    | with_reducible apply runAgain_evolves
    | with_reducible apply State.set_evolves
    | with_reducible apply State.Evolves.ite

theorem dropFreezer_evolves {x0 : Nat} (h : r.Evolves s) :
    r.Evolves (dropFreezer x0 s) := by
  unfold dropFreezer
  repeat' first
    | with_reducible assumption
    | with_reducible apply State.setQue_evolves
    | with_reducible apply advance_evolves
    | with_reducible apply State.Evolves.ite
    | split

theorem queCtrl_evolves {x0 : Nat} {x1 : Nat} (h : r.Evolves s) :
    r.Evolves (queCtrl x0 x1 s) := by
  unfold queCtrl
  repeat' first
    | with_reducible assumption
    | with_reducible apply State.set_evolves
    | with_reducible apply State.setQue_evolves
    | with_reducible apply resetQueue_evolves
    | with_reducible apply runAgain_evolves
    | with_reducible apply thawed_evolves
    | with_reducible apply dropFreezer_evolves
    | with_reducible apply State.Evolves.ite

theorem queCtrlWrite_evolves {x0 : Nat} {x1 : Nat} {x2 : Nat} (h : r.Evolves s) :
    r.Evolves (queCtrlWrite x0 x1 x2 s) := by
  unfold queCtrlWrite
  repeat' first
    | with_reducible assumption
    | (intro _)
    | with_reducible apply ownerWrite_evolves
    | with_reducible apply queCtrl_evolves

theorem holdSeed_evolves {x0 : Nat} {x1 : Nat} (h : r.Evolves s) :
    r.Evolves (holdSeed x0 x1 s) := by
  unfold holdSeed
  repeat' first
    | with_reducible assumption
    | (fail_if_no_progress with_reducible apply State.Evolves.keep)

theorem clearErrCounts_evolves {x0 : Bool} (h : r.Evolves s) :
    r.Evolves (clearErrCounts x0 s) := by
  unfold clearErrCounts
  repeat' first
    | with_reducible assumption
    | (intro _)
    | with_reducible apply forAll_evolves
    | with_reducible apply State.wr_evolves
    | with_reducible apply State.Evolves.ite

theorem updateMirror_evolves  (h : r.Evolves s) :
    r.Evolves (updateMirror s) := by
  unfold updateMirror
  repeat' first
    | with_reducible assumption
    | with_reducible apply State.set_evolves

theorem mirCtlWrite_evolves {x0 : Nat} {x1 : Nat} {x2 : Nat} (h : r.Evolves s) :
    r.Evolves (mirCtlWrite x0 x1 x2 s) := by
  unfold mirCtlWrite
  repeat' first
    | with_reducible assumption
    | with_reducible apply writeBits_evolves
    | with_reducible apply State.set_evolves
    | with_reducible apply State.setFab_evolves
    | with_reducible apply updateMirror_evolves
    | with_reducible apply State.Evolves.ite
    | (fail_if_no_progress with_reducible apply State.Evolves.keep)
    | extract_lets
    | split

theorem mirBaseWrite_evolves {x0 : Nat} {x1 : Nat} {x2 : Nat} {x3 : Nat} (h : r.Evolves s) :
    r.Evolves (mirBaseWrite x0 x1 x2 x3 s) := by
  unfold mirBaseWrite
  repeat' first
    | with_reducible assumption
    | with_reducible apply event_evolves
    | with_reducible apply writeBits_evolves
    | with_reducible apply State.set_evolves
    | with_reducible apply updateMirror_evolves
    | with_reducible apply State.Evolves.ite

theorem memoryBlock_evolves {x0 : Nat} {x1 : Nat} {x2 : Nat} {x3 : Nat} (h : r.Evolves s) :
    r.Evolves (memoryBlock x0 x1 x2 x3 s) := by
  unfold memoryBlock
  repeat' first
    | with_reducible assumption
    | with_reducible apply event_evolves
    | with_reducible apply writeBits_evolves
    | with_reducible apply clearErrCounts_evolves
    | with_reducible apply mirCtlWrite_evolves
    | with_reducible apply mirBaseWrite_evolves
    | with_reducible apply State.Evolves.ite

theorem routeDiscard_evolves  (h : r.Evolves s) :
    r.Evolves (routeDiscard s) := by
  unfold routeDiscard
  repeat' first
    | with_reducible assumption
    | with_reducible apply event_evolves

theorem retireShade_evolves  (h : r.Evolves s) :
    r.Evolves (retireShade s) := by
  unfold retireShade
  repeat' first
    | with_reducible assumption
    | with_reducible apply State.set_evolves
    | with_reducible apply routeDiscard_evolves
    | split

theorem setRequests_evolves {x0 : Nat} {x1 : DomSt} (h : r.Evolves s) :
    r.Evolves (setRequests x0 x1 s) := by
  unfold setRequests
  repeat' first
    | with_reducible assumption
    | with_reducible apply showCauses_evolves
    | with_reducible apply State.setDom_evolves

theorem released_evolves {x0 : Nat} {x1 : Nat} (h : r.Evolves s) :
    r.Evolves (released x0 x1 s) := by
  unfold released
  repeat' first
    | with_reducible assumption
    | with_reducible apply eventD_evolves

theorem tableWrite_evolves {x0 : Nat} {x1 : Nat} {x2 : Nat} {x3 : Nat} {x4 : Nat} (h : r.Evolves s) :
    r.Evolves (tableWrite x0 x1 x2 x3 x4 s) := by
  unfold tableWrite
  repeat' first
    | with_reducible assumption
    | with_reducible apply writeBits_evolves
    | with_reducible apply event_evolves
    | with_reducible apply State.Evolves.ite

theorem statusWrite_evolves {x0 : Nat} {x1 : Nat} {x2 : Nat} {x3 : Nat} {x4 : FRef} {x5 : Nat} (h : r.Evolves s) :
    r.Evolves (statusWrite x0 x1 x2 x3 x4 x5 s) := by
  unfold statusWrite
  repeat' first
    | with_reducible assumption
    | with_reducible apply writeBits_evolves
    | with_reducible apply State.wr_evolves
    | with_reducible apply State.Evolves.ite

theorem flushVectors_evolves {x0 : Nat} (h : r.Evolves s) :
    r.Evolves (flushVectors x0 s) := by
  unfold flushVectors
  repeat' first
    | with_reducible assumption
    | (intro _)
    | with_reducible apply State.emit_evolves
    | with_reducible apply State.set_evolves
    | with_reducible apply State.Evolves.ite
    | with_reducible apply State.Evolves.fold

theorem dmaCfgWrite_evolves {x0 : Nat} {x1 : Nat} {x2 : Nat} {x3 : Nat} {x4 : Nat} (h : r.Evolves s) :
    r.Evolves (dmaCfgWrite x0 x1 x2 x3 x4 s) := by
  unfold dmaCfgWrite
  repeat' first
    | with_reducible assumption
    | with_reducible apply writeBits_evolves
    | with_reducible apply State.set_evolves
    | with_reducible apply State.setDma_evolves
    | with_reducible apply State.Evolves.ite

theorem dmaKick_evolves {x0 : Nat} {x1 : Nat} (h : r.Evolves s) :
    r.Evolves (dmaKick x0 x1 s) := by
  unfold dmaKick
  repeat' first
    | with_reducible assumption
    | with_reducible apply State.set_evolves
    | with_reducible apply dmaRead_evolves
    | with_reducible apply State.Evolves.ite

theorem dmaProdWrite_evolves {x0 : Nat} {x1 : Nat} {x2 : Nat} (h : r.Evolves s) :
    r.Evolves (dmaProdWrite x0 x1 x2 s) := by
  unfold dmaProdWrite
  repeat' first
    | with_reducible assumption
    | with_reducible apply event_evolves
    | with_reducible apply dmaKick_evolves
    | with_reducible apply State.set_evolves
    | with_reducible apply State.Evolves.ite

theorem b4mapWrite_evolves {x0 : Nat} {x1 : Nat} {x2 : Nat} {x3 : Nat} {x4 : Nat} (h : r.Evolves s) :
    r.Evolves (b4mapWrite x0 x1 x2 x3 x4 s) := by
  unfold b4mapWrite
  repeat' first
    | with_reducible assumption
    | with_reducible apply writeBits_evolves
    | with_reducible apply State.setPort_evolves
    | with_reducible apply eventD_evolves
    | with_reducible apply State.set_evolves
    | with_reducible apply State.Evolves.ite

theorem fwatchWrite_evolves {x0 : Nat} {x1 : Nat} {x2 : Nat} {x3 : Nat} {x4 : Nat} (h : r.Evolves s) :
    r.Evolves (fwatchWrite x0 x1 x2 x3 x4 s) := by
  unfold fwatchWrite
  repeat' first
    | with_reducible assumption
    | with_reducible apply writeBits_evolves
    | with_reducible apply fireWatches_evolves
    | with_reducible apply State.Evolves.ite

theorem hostBlock_evolves {x0 : Nat} {x1 : Nat} {x2 : Nat} {x3 : Nat} (h : r.Evolves s) :
    r.Evolves (hostBlock x0 x1 x2 x3 s) := by
  unfold hostBlock
  repeat' first
    | with_reducible assumption
    | with_reducible apply event_evolves
    | with_reducible apply writeBits_evolves
    | with_reducible apply flushVectors_evolves
    | with_reducible apply dmaCfgWrite_evolves
    | with_reducible apply dmaProdWrite_evolves
    | with_reducible apply settleFab_evolves
    | with_reducible apply clearMailboxes_evolves
    | with_reducible apply b4mapWrite_evolves
    | with_reducible apply fwatchWrite_evolves
    | with_reducible apply State.Evolves.ite

theorem refuseReserved_evolves  (h : r.Evolves s) :
    r.Evolves (refuseReserved s) := by
  unfold refuseReserved
  repeat' first
    | with_reducible assumption
    | (intro _)
    | with_reducible apply forAll_evolves
    | with_reducible apply dropReasm_evolves
    | with_reducible apply refuseSeg_evolves

theorem routeIn_evolves {x0 : Nat} {x1 : CellBits} (h : r.Evolves s) :
    r.Evolves (routeIn x0 x1 s) := by
  unfold routeIn
  repeat' first
    | with_reducible assumption
    | with_reducible apply drainInbox_evolves
    | with_reducible apply deliver_evolves
    | with_reducible apply State.setFab_evolves
    | with_reducible apply routeCell_evolves
    | with_reducible apply State.Evolves.ite

theorem routedIn_evolves {x0 : Nat} {x1 : CellBits} (h : r.Evolves s) :
    r.Evolves (routedIn x0 x1 s) := by
  unfold routedIn
  repeat' first
    | with_reducible assumption
    | with_reducible apply receive_evolves
    | with_reducible apply wheelCell_evolves
    | with_reducible apply refuseReserved_evolves
    | with_reducible apply routeIn_evolves
    | with_reducible apply State.Evolves.ite

theorem baseAdd_evolves {x0 : Nat} {x1 : Issued} (h : r.Evolves s) :
    r.Evolves (baseAdd x0 x1 s).1 := by
  unfold baseAdd
  repeat' first
    | with_reducible assumption
    | (intro _)
    | with_reducible apply forAll_evolves
    | with_reducible apply State.set_evolves
    | with_reducible apply State.wr_evolves
    | with_reducible apply freezeHead_evolves
    | extract_lets
    | split

theorem flumeMirsync_evolves {x0 : Nat} {x1 : Issued} (h : r.Evolves s) :
    r.Evolves (flumeMirsync x0 x1 s).1 := by
  unfold flumeMirsync
  repeat' first
    | with_reducible assumption
    | with_reducible apply event_evolves
    | with_reducible apply freezeHead_evolves
    | with_reducible apply mirsyncDone_evolves
    | extract_lets
    | split

theorem dropReply_evolves  (h : r.Evolves s) :
    r.Evolves (dropReply s) := by
  unfold dropReply
  repeat' first
    | with_reducible assumption
    | with_reducible apply event_evolves
    | with_reducible apply State.incSat_evolves

theorem postReply_evolves {x0 : Reply} (h : r.Evolves s) :
    r.Evolves (postReply x0 s) := by
  unfold postReply
  repeat' first
    | with_reducible assumption
    | with_reducible apply acceptNotice_evolves
    | with_reducible apply State.tick_evolves
    | with_reducible apply spend_evolves
    | with_reducible apply dropReply_evolves
    | with_reducible apply State.Evolves.ite
    | (fail_if_no_progress with_reducible apply State.Evolves.keep)

theorem coreWrite_evolves {x0 : Nat} {x1 : List Byte} (h : r.Evolves s) :
    r.Evolves (coreWrite x0 x1 s) := by
  unfold coreWrite
  repeat' first
    | with_reducible assumption
    | (intro _)
    | with_reducible apply countUnmirrored_evolves
    | with_reducible apply writeServed_evolves
    | with_reducible apply accessRange_evolves
    | with_reducible apply State.Evolves.ite
    | split

theorem complete_evolves {x0 : Block} {x1 : Nat} (h : r.Evolves s) :
    r.Evolves (complete x0 x1 s) := by
  unfold complete
  repeat' first
    | with_reducible assumption
    | with_reducible apply coreWrite_evolves
    | with_reducible apply postReply_evolves
    | with_reducible apply State.set_evolves
    | with_reducible apply addFlag_evolves
    | with_reducible apply accessSet_evolves
    | with_reducible apply State.Evolves.ite
    | extract_lets
    | split

theorem malformed_evolves {x0 : Block} (h : r.Evolves s) :
    r.Evolves (malformed x0 s) := by
  unfold malformed
  repeat' first
    | with_reducible assumption
    | with_reducible apply complete_evolves
    | with_reducible apply event_evolves

theorem serve_evolves {x0 : Nat} {x1 : Nat} {x2 : Block → State → State} (h2 : ∀ y0 s, r.Evolves s → r.Evolves (x2 y0 s)) (h : r.Evolves s) :
    r.Evolves (serve x0 x1 x2 s) := by
  unfold serve
  repeat' first
    | with_reducible assumption
    | with_reducible apply State.set_evolves
    | with_reducible apply event_evolves
    | with_reducible apply touch_evolves
    | with_reducible apply accessRange_evolves
    | with_reducible apply complete_evolves
    | with_reducible apply malformed_evolves
    | with_reducible apply h2
    | with_reducible apply State.Evolves.ite
    | extract_lets
    | split

theorem updateFailed_evolves {x0 : Nat} (h : r.Evolves s) :
    r.Evolves (updateFailed x0 s) := by
  unfold updateFailed
  repeat' first
    | with_reducible assumption
    | with_reducible apply State.set_evolves
    | (fail_if_no_progress with_reducible apply State.Evolves.keep)

theorem updateRejected_evolves {x0 : Nat} (h : r.Evolves s) :
    r.Evolves (updateRejected x0 s) := by
  unfold updateRejected
  repeat' first
    | with_reducible assumption
    | with_reducible apply event_evolves
    | with_reducible apply updateFailed_evolves

theorem showProgress_evolves {x0 : Nat} (h : r.Evolves s) :
    r.Evolves (showProgress x0 s) := by
  unfold showProgress
  repeat' first
    | with_reducible assumption
    | with_reducible apply State.set_evolves

theorem autoClear_evolves {x0 : Nat} (h : r.Evolves s) :
    r.Evolves (autoClear x0 s) := by
  unfold autoClear
  repeat' first
    | with_reducible assumption
    | (intro _)
    | with_reducible apply forAll_evolves
    | with_reducible apply clearOvf_evolves
    | with_reducible apply State.Evolves.ite

theorem readReply_evolves {x0 : Nat} {x1 : Word} (h : r.Evolves s) :
    r.Evolves (readReply x0 x1 s) := by
  unfold readReply
  repeat' first
    | with_reducible assumption
    | with_reducible apply State.emit_evolves

theorem ownReply_evolves {x0 : Nat} {x1 : Nat} (h : r.Evolves s) :
    r.Evolves (ownReply x0 x1 s) := by
  unfold ownReply
  repeat' first
    | with_reducible assumption
    | with_reducible apply readReply_evolves

theorem imageWhole_evolves {x0 : UpdateJob} (h : r.Evolves s) :
    r.Evolves (imageWhole x0 s) := by
  unfold imageWhole
  repeat' first
    | with_reducible assumption
    | with_reducible apply touch_evolves
    | with_reducible apply updateRejected_evolves
    | with_reducible apply State.set_evolves
    | with_reducible apply State.Evolves.ite
    | (fail_if_no_progress with_reducible apply State.Evolves.keep)

theorem parkAll_evolves {x0 : Nat} (h : r.Evolves s) :
    r.Evolves (parkAll x0 s) := by
  unfold parkAll
  repeat' first
    | with_reducible assumption
    | (intro _)
    | with_reducible apply forAll_evolves
    | with_reducible apply State.set_evolves
    | with_reducible apply State.Evolves.ite

theorem refuseLoad_evolves {x0 : Nat} {x1 : Nat} (h : r.Evolves s) :
    r.Evolves (refuseLoad x0 x1 s) := by
  unfold refuseLoad
  repeat' first
    | with_reducible assumption
    | with_reducible apply State.set_evolves

theorem startSave_evolves {x0 : Nat} (h : r.Evolves s) :
    r.Evolves (startSave x0 s) := by
  unfold startSave
  repeat' first
    | with_reducible assumption
    | with_reducible apply refuseLoad_evolves
    | with_reducible apply State.setLoad_evolves
    | with_reducible apply State.set_evolves
    | with_reducible apply State.Evolves.ite

theorem startLoad_evolves {x0 : Nat} (h : r.Evolves s) :
    r.Evolves (startLoad x0 s) := by
  unfold startLoad
  repeat' first
    | with_reducible assumption
    | with_reducible apply refuseLoad_evolves
    | with_reducible apply State.setLoad_evolves
    | with_reducible apply State.set_evolves
    | with_reducible apply State.Evolves.ite

theorem ldCtrl_evolves {x0 : Nat} {x1 : Nat} {x2 : Nat} {x3 : Nat} (h : r.Evolves s) :
    r.Evolves (ldCtrl x0 x1 x2 x3 s) := by
  unfold ldCtrl
  repeat' first
    | with_reducible assumption
    | with_reducible apply writeBits_evolves
    | with_reducible apply parkAll_evolves
    | with_reducible apply State.set_evolves
    | with_reducible apply startSave_evolves
    | with_reducible apply startLoad_evolves
    | with_reducible apply State.Evolves.ite

theorem freezeEngineD_evolves {x0 : Nat} {x1 : Nat} {x2 : Nat} (h : r.Evolves s) :
    r.Evolves (freezeEngineD x0 x1 x2 s) := by
  unfold freezeEngineD
  repeat' first
    | with_reducible assumption
    | with_reducible apply freezeQueue_evolves
    | with_reducible apply eventD_evolves
    | with_reducible apply State.setQue_evolves

theorem freezeEngine_evolves {x0 : Nat} {x1 : Nat} (h : r.Evolves s) :
    r.Evolves (freezeEngine x0 x1 s) := by
  unfold freezeEngine
  repeat' first
    | with_reducible assumption
    | with_reducible apply freezeEngineD_evolves

theorem holdHead_evolves {x0 : Nat} (h : r.Evolves s) :
    r.Evolves (holdHead x0 s) := by
  unfold holdHead
  repeat' first
    | with_reducible assumption
    | with_reducible apply State.setQue_evolves
    | (fail_if_no_progress with_reducible apply State.Evolves.keep)

theorem flumeTint_evolves {x0 : Nat} {x1 : Issued} (h : r.Evolves s) :
    r.Evolves (flumeTint x0 x1 s).1 := by
  unfold flumeTint
  repeat' first
    | with_reducible assumption
    | (intro _)
    | with_reducible apply State.wr_evolves
    | with_reducible apply freezeHead_evolves
    | with_reducible apply freezeEngine_evolves
    | with_reducible apply holdHead_evolves
    | with_reducible apply State.Evolves.ite
    | (fail_if_no_progress with_reducible apply State.Evolves.keep)
    | with_reducible apply FlmJob.put_evolves
    | extract_lets
    | split

theorem recordHazard_evolves {x0 : Nat} {x1 : Nat} {x2 : Nat} {x3 : Nat} {x4 : Nat} {x5 : Nat} {x6 : Bool} (h : r.Evolves s) :
    r.Evolves (recordHazard x0 x1 x2 x3 x4 x5 x6 s) := by
  unfold recordHazard
  repeat' first
    | with_reducible assumption
    | with_reducible apply State.wr_evolves
    | with_reducible apply State.set_evolves
    | with_reducible apply recordEvent_evolves
    | with_reducible apply State.Evolves.ite

theorem ERun.hazards_evolves {x0 : ERun} {x1 : Nat} (h : r.Evolves s) :
    r.Evolves (ERun.hazards x0 x1 s).1 := by
  unfold ERun.hazards
  repeat' first
    | with_reducible assumption
    | (intro _)
    | with_reducible apply recordHazard_evolves
    | with_reducible apply State.Evolves.foldl Prod.fst
    | extract_lets
    | split

theorem writeSome_evolves {x0 : Nat} {x1 : List (Nat × Byte)} {x2 : Bool} (h : r.Evolves s) :
    r.Evolves (writeSome x0 x1 x2 s) := by
  unfold writeSome
  repeat' first
    | with_reducible assumption
    | (intro _)
    | with_reducible apply writeLine_evolves
    | with_reducible apply settle_evolves
    | with_reducible apply readForMerge_evolves
    | with_reducible apply forAll_evolves
    | with_reducible apply State.setByte_evolves
    | with_reducible apply State.setPoison_evolves
    | with_reducible apply State.Evolves.ite

theorem EBuf.flush_evolves {x0 : EBuf} (h : r.Evolves s) :
    r.Evolves (EBuf.flush x0 s) := by
  unfold EBuf.flush
  repeat' first
    | with_reducible assumption
    | (intro _)
    | with_reducible apply forAll_evolves
    | with_reducible apply writeSome_evolves

theorem elementRun_evolves {x0 : Nat} {x1 : Nat} {x2 : Issued} (h : r.Evolves s) :
    r.Evolves (elementRun x0 x1 x2 s).1 := by
  unfold elementRun
  repeat' first
    | with_reducible assumption
    | (intro _)
    | with_reducible apply freezeHead_evolves
    | with_reducible apply freezeEngine_evolves
    | with_reducible apply touch_evolves
    | with_reducible apply forAll_evolves
    | with_reducible apply ERun.hazards_evolves
    | with_reducible apply EBuf.flush_evolves
    | with_reducible apply applyTally_evolves
    | with_reducible apply State.inc_evolves
    | with_reducible apply State.set_evolves
    | with_reducible apply event_evolves
    | with_reducible apply State.Evolves.ite
    | (fail_if_no_progress with_reducible apply State.Evolves.keepFree (Nat.le_add_right _ _))
    | extract_lets
    | split

theorem revalidate_evolves {x0 : Nat} {x1 : Nat} {x2 : MxCmd} {x3 : MxRep} {x4 : Nat} (h : r.Evolves s) :
    r.Evolves (revalidate x0 x1 x2 x3 x4 s) := by
  unfold revalidate
  repeat' first
    | with_reducible assumption
    | (intro _)
    | with_reducible apply forAll_evolves
    | with_reducible apply State.setGroup_evolves
    | with_reducible apply State.Evolves.ite

theorem frameDiscard_evolves {x0 : Nat} (h : r.Evolves s) :
    r.Evolves (frameDiscard x0 s) := by
  unfold frameDiscard
  repeat' first
    | with_reducible assumption
    | with_reducible apply event_evolves
    | with_reducible apply State.inc_evolves

theorem pldmAnswer_evolves {x0 : Sys2Proof.Binding} {x1 : Bool} {x2 : State → State × MctpMsg} (h2 : ∀ s, r.Evolves s → r.Evolves (x2 s).1) (h : r.Evolves s) :
    r.Evolves (pldmAnswer x0 x1 x2 s) := by
  unfold pldmAnswer
  repeat' first
    | with_reducible assumption
    | with_reducible apply State.emit_evolves
    | with_reducible apply State.tick_evolves
    | with_reducible apply State.Evolves.ite
    | with_reducible apply h2

theorem commitSeed_evolves {x0 : BitVec 32} (h : r.Evolves s) :
    r.Evolves (commitSeed x0 s) := by
  unfold commitSeed
  repeat' first
    | with_reducible assumption
    | with_reducible apply State.wr_evolves

theorem evaluateAll_evolves  (h : r.Evolves s) :
    r.Evolves (evaluateAll s) := by
  unfold evaluateAll
  repeat' first
    | with_reducible assumption
    | (intro _)
    | with_reducible apply forAll_evolves
    | with_reducible apply evaluate_evolves

theorem coordWrite_evolves {x0 : Nat} {x1 : Nat} {x2 : Nat} (h : r.Evolves s) :
    r.Evolves (coordWrite x0 x1 x2 s) := by
  unfold coordWrite
  repeat' first
    | with_reducible assumption
    | with_reducible apply event_evolves
    | with_reducible apply writeBits_evolves
    | with_reducible apply evaluateAll_evolves
    | with_reducible apply State.set_evolves
    | with_reducible apply State.Evolves.ite

theorem endPosts_evolves  (h : r.Evolves s) :
    r.Evolves (endPosts s) := by
  unfold endPosts
  repeat' first
    | with_reducible assumption
    | (intro _)
    | with_reducible apply forAll_evolves
    | with_reducible apply hostPostOutcome_evolves

theorem dmaResetStop_evolves {x0 : Nat} {x1 : Nat} (h : r.Evolves s) :
    r.Evolves (dmaResetStop x0 x1 s) := by
  unfold dmaResetStop
  repeat' first
    | with_reducible assumption
    | with_reducible apply dmaStop_evolves
    | with_reducible apply State.tick_evolves
    | with_reducible apply State.Evolves.ite

theorem abortLoader_evolves {x0 : Nat} (h : r.Evolves s) :
    r.Evolves (abortLoader x0 s) := by
  unfold abortLoader
  repeat' first
    | with_reducible assumption
    | with_reducible apply State.set_evolves
    | with_reducible apply State.setLoad_evolves
    | with_reducible apply State.scramble_evolves
    | with_reducible apply State.Evolves.ite

theorem loseSlots_evolves {x0 : Nat} (h : r.Evolves s) :
    r.Evolves (loseSlots x0 s) := by
  unfold loseSlots
  repeat' first
    | with_reducible assumption
    | (intro _)
    | with_reducible apply forAll_evolves
    | with_reducible apply State.tick_evolves
    | with_reducible apply State.wr_evolves
    | with_reducible apply State.Evolves.ite

theorem wipeStores_evolves {p : Nat → Bool} {m : MgtSt} {w : PwrSt} {e : EvrSt} (h : r.Evolves s) :
    r.Evolves { s with
      regs := s.regs.filter fun (e : Nat × Word) => p e.1, rowErr := [], seedPend := 0, imem := [], ques := [], banks := [], landings := [],
      mxes := [], gates := [], links := [], wheels := [], loads := [], badBridges := 0, mgt := m, pwr := w, eventReceiver := none, evr := e } :=
  ⟨h.pending, h.out, h.nextUid, h.freeCtr, fun i => { h.inv i with
    regs := tabWf_filter _ (h.inv i).regs, imem := rfl, ques := rfl, banks := rfl, landings := rfl, mxes := rfl, gates := rfl,
    links := rfl, wheels := rfl, loads := rfl }⟩

theorem wipeDevice_evolves  (h : r.Evolves s) :
    r.Evolves (wipeDevice s) := by
  unfold wipeDevice
  repeat' first
    | with_reducible assumption
    | (intro _)
    | with_reducible apply forAll_evolves
    | with_reducible apply abortLoader_evolves
    | with_reducible apply State.set_evolves
    | with_reducible apply loseSlots_evolves
    | with_reducible apply wipeStores_evolves

theorem interruptCommit_evolves  (h : r.Evolves s) :
    r.Evolves (interruptCommit s) := by
  unfold interruptCommit
  repeat' first
    | with_reducible assumption
    | with_reducible apply State.tick_evolves
    | with_reducible apply State.set_evolves
    | (fail_if_no_progress with_reducible apply State.Evolves.keep)
    | split

theorem tryStart_evolves  (h : r.Evolves s) :
    r.Evolves (tryStart s) := by
  unfold tryStart
  repeat' first
    | with_reducible assumption
    | with_reducible apply setPhaseBoot_evolves
    | with_reducible apply State.set_evolves
    | with_reducible apply State.Evolves.ite

theorem deviceReset_evolves {x0 : Nat} {x1 : Nat} (h : r.Evolves s) :
    r.Evolves (deviceReset x0 x1 s) := by
  unfold deviceReset
  repeat' first
    | with_reducible assumption
    | (intro _)
    | with_reducible apply endPosts_evolves
    | with_reducible apply State.set_evolves
    | with_reducible apply forAll_evolves
    | with_reducible apply dmaResetStop_evolves
    | with_reducible apply State.setFab_evolves
    | with_reducible apply wipeDevice_evolves
    | with_reducible apply interruptCommit_evolves
    | with_reducible apply clearMailboxes_evolves
    | with_reducible apply State.inc_evolves
    | with_reducible apply tryStart_evolves
    | (fail_if_no_progress with_reducible apply State.Evolves.keep)

theorem glbReset_evolves {x0 : Nat} (h : r.Evolves s) :
    r.Evolves (glbReset x0 s) := by
  unfold glbReset
  repeat' first
    | with_reducible assumption
    | with_reducible apply deviceReset_evolves
    | with_reducible apply State.Evolves.ite
    | (fail_if_no_progress with_reducible apply State.Evolves.keep)

theorem setMeasurement_evolves {x0 : Nat} {x1 : Option Nat} (h : r.Evolves s) :
    r.Evolves (setMeasurement x0 x1 s) := by
  unfold setMeasurement
  repeat' first
    | with_reducible assumption
    | (fail_if_no_progress with_reducible apply State.Evolves.keep)

theorem loseImem_evolves {x0 : Nat} (h : r.Evolves s) : r.Evolves (loseImem x0 s) :=
  ⟨h.pending, h.out, h.nextUid, h.freeCtr, fun i => { h.inv i with imem := tabWf_clear _ _ (h.inv i).imem }⟩

theorem tileStores_evolves {a b c d e f g h' j k : Nat} (h : r.Evolves s) :
    r.Evolves { s with
      banks := tabClear s.banks a b, landings := tabClear s.landings c d, mxes := tabClear s.mxes e f, gates := tabClear s.gates g h',
      loads := tabClear s.loads j k } :=
  ⟨h.pending, h.out, h.nextUid, h.freeCtr, fun i => { h.inv i with
    banks := tabWf_clear _ _ (h.inv i).banks, landings := tabWf_clear _ _ (h.inv i).landings, mxes := tabWf_clear _ _ (h.inv i).mxes,
    gates := tabWf_clear _ _ (h.inv i).gates, loads := tabWf_clear _ _ (h.inv i).loads }⟩

theorem tileReset_evolves {x0 : Nat} (h : r.Evolves s) :
    r.Evolves (tileReset x0 s) := by
  unfold tileReset
  repeat' first
    | with_reducible assumption
    | (intro _)
    | with_reducible apply forAll_evolves
    | with_reducible apply State.setQue_evolves
    | with_reducible apply abandonRemote_evolves
    | with_reducible apply abortLoader_evolves
    | with_reducible apply State.resetRegs_evolves
    | with_reducible apply State.wr_evolves
    | with_reducible apply setMeasurement_evolves
    | with_reducible apply loseSlots_evolves
    | with_reducible apply loseImem_evolves
    | with_reducible apply State.set_evolves
    | with_reducible apply State.Evolves.ite
    | with_reducible apply tileStores_evolves

theorem globalBlock_evolves {x0 : Nat} {x1 : Nat} {x2 : Nat} {x3 : Nat} (h : r.Evolves s) :
    r.Evolves (globalBlock x0 x1 x2 x3 s) := by
  unfold globalBlock
  repeat' first
    | with_reducible assumption
    | (intro _)
    | with_reducible apply commitSeed_evolves
    | with_reducible apply holdSeed_evolves
    | with_reducible apply event_evolves
    | with_reducible apply writeBits_evolves
    | with_reducible apply settleFab_evolves
    | with_reducible apply coordWrite_evolves
    | with_reducible apply glbReset_evolves
    | with_reducible apply forAll_evolves
    | with_reducible apply tileReset_evolves
    | with_reducible apply State.Evolves.ite

theorem queBlock_evolves {x0 : Nat} {x1 : Nat} {x2 : Nat} {x3 : Nat} {x4 : Nat} (h : r.Evolves s) :
    r.Evolves (queBlock x0 x1 x2 x3 x4 s) := by
  unfold queBlock
  repeat' first
    | with_reducible assumption
    | with_reducible apply settleFab_evolves
    | with_reducible apply queCtrl_evolves
    | with_reducible apply setDiscard_evolves
    | with_reducible apply writeBits_evolves
    | with_reducible apply State.Evolves.ite

theorem mxeStatWrite_evolves {x0 : Nat} {x1 : Nat} {x2 : Nat} {x3 : Nat} {x4 : Nat} (h : r.Evolves s) :
    r.Evolves (mxeStatWrite x0 x1 x2 x3 x4 s) := by
  unfold mxeStatWrite
  repeat' first
    | with_reducible assumption
    | with_reducible apply writeBits_evolves
    | with_reducible apply State.wr_evolves
    | with_reducible apply State.Evolves.ite

theorem ovfWrite_evolves {x0 : Nat} {x1 : Nat} {x2 : Nat} {x3 : Nat} (h : r.Evolves s) :
    r.Evolves (ovfWrite x0 x1 x2 x3 s) := by
  unfold ovfWrite
  repeat' first
    | with_reducible assumption
    | with_reducible apply clearOvf_evolves
    | with_reducible apply writeBits_evolves
    | with_reducible apply State.Evolves.ite

theorem keepField_evolves {x0 : FRef} {x1 : Nat} {x2 : Nat} {x3 : State} (h : r.Evolves s) :
    r.Evolves (keepField x0 x1 x2 x3 s) := by
  unfold keepField
  repeat' first
    | with_reducible assumption
    | with_reducible apply event_evolves
    | with_reducible apply State.set_evolves
    | with_reducible apply State.Evolves.ite

theorem flagLinkWrite_evolves {x0 : Nat} {x1 : Nat} {x2 : Nat} {x3 : Nat} {x4 : Nat} (h : r.Evolves s) :
    r.Evolves (flagLinkWrite x0 x1 x2 x3 x4 s) := by
  unfold flagLinkWrite
  repeat' first
    | with_reducible assumption
    | with_reducible apply writeBits_evolves
    | with_reducible apply setDiscard_evolves
    | with_reducible apply event_evolves
    | with_reducible apply State.Evolves.ite
    | extract_lets
    | split

theorem setBlock_evolves {x0 : Nat} {x1 : Nat} {x2 : Nat} {x3 : Nat} {x4 : Nat} (h : r.Evolves s) :
    r.Evolves (setBlock x0 x1 x2 x3 x4 s) := by
  unfold setBlock
  repeat' first
    | with_reducible assumption
    | with_reducible apply flagWrite_evolves
    | with_reducible apply addFlag_evolves
    | with_reducible apply flagLinkWrite_evolves
    | with_reducible apply ldCtrl_evolves
    | with_reducible apply setDiscard_evolves
    | with_reducible apply writeBits_evolves
    | with_reducible apply State.Evolves.ite

theorem latchGrind_evolves {x0 : Nat} {x1 : Nat} (h : r.Evolves s) :
    r.Evolves (latchGrind x0 x1 s) := by
  unfold latchGrind
  repeat' first
    | with_reducible assumption
    | with_reducible apply State.setMxe_evolves
    | (fail_if_no_progress with_reducible apply State.Evolves.keep)

theorem mxeDgctrlWrite_evolves {x0 : Nat} {x1 : Nat} {x2 : Nat} {x3 : Nat} {x4 : Nat} (h : r.Evolves s) :
    r.Evolves (mxeDgctrlWrite x0 x1 x2 x3 x4 s) := by
  unfold mxeDgctrlWrite
  repeat' first
    | with_reducible assumption
    | with_reducible apply writeBits_evolves
    | with_reducible apply latchGrind_evolves
    | with_reducible apply State.Evolves.ite
    | extract_lets
    | split

theorem tileBlock_evolves {x0 : Nat} {x1 : Nat} {x2 : Nat} {x3 : Nat} {x4 : Nat} {x5 : Nat} (h : r.Evolves s) :
    r.Evolves (tileBlock x0 x1 x2 x3 x4 x5 s) := by
  unfold tileBlock
  repeat' first
    | with_reducible assumption
    | with_reducible apply queBlock_evolves
    | with_reducible apply State.wr_evolves
    | with_reducible apply writeBits_evolves
    | with_reducible apply statusWrite_evolves
    | with_reducible apply event_evolves
    | with_reducible apply mxeStatWrite_evolves
    | with_reducible apply mxeDgctrlWrite_evolves
    | with_reducible apply ovfWrite_evolves
    | with_reducible apply wakeTile_evolves
    | with_reducible apply setBlock_evolves
    | with_reducible apply State.Evolves.ite
    | extract_lets
    | split

theorem frameCell_evolves {x0 : Nat} {x1 : Bool} {x2 : CellBits} (h : r.Evolves s) :
    r.Evolves (frameCell x0 x1 x2 s) := by
  unfold frameCell
  repeat' first
    | with_reducible assumption
    | with_reducible apply countDrop_evolves
    | with_reducible apply drainInbox_evolves
    | with_reducible apply refuseReserved_evolves
    | with_reducible apply deliver_evolves
    | with_reducible apply routeCell_evolves
    | with_reducible apply State.Evolves.ite

theorem frameArrives_evolves {x0 : Nat} {x1 : List Byte} (h : r.Evolves s) :
    r.Evolves (frameArrives x0 x1 s) := by
  unfold frameArrives
  repeat' first
    | with_reducible assumption
    | (intro _)
    | with_reducible apply frameDiscard_evolves
    | with_reducible apply forAll_evolves
    | with_reducible apply countDrop_evolves
    | with_reducible apply State.inc_evolves
    | with_reducible apply frameCell_evolves
    | with_reducible apply State.Evolves.ite

theorem countWaiting_evolves {x0 : Nat} {x1 : Nat} (h : r.Evolves s) :
    r.Evolves (countWaiting x0 x1 s) := by
  unfold countWaiting
  repeat' first
    | with_reducible assumption
    | (intro _)
    | with_reducible apply forAll_evolves
    | with_reducible apply State.inc_evolves
    | with_reducible apply State.Evolves.ite

theorem ageFlaps_evolves  (h : r.Evolves s) :
    r.Evolves (ageFlaps s) := by
  unfold ageFlaps
  repeat' first
    | with_reducible assumption
    | (intro _)
    | with_reducible apply forAll_evolves
    | with_reducible apply State.set_evolves

theorem State.advanceTo_evolves {x0 : Nat} (h : r.Evolves s) :
    r.Evolves (State.advanceTo s x0) := by
  unfold State.advanceTo
  repeat' first
    | with_reducible assumption
    | (intro _)
    | with_reducible apply countWaiting_evolves
    | with_reducible apply forAll_evolves
    | with_reducible apply State.inc_evolves
    | with_reducible apply State.wr_evolves
    | with_reducible apply ageFlaps_evolves
    | with_reducible apply State.set_evolves
    | with_reducible apply State.Evolves.ite
    | extract_lets
    | split

theorem wheelDark_evolves {x0 : Nat} (h : r.Evolves s) :
    r.Evolves (wheelDark x0 s) := by
  unfold wheelDark
  repeat' first
    | with_reducible assumption
    | (intro _)
    | with_reducible apply wheelFailBoth_evolves
    | with_reducible apply State.Evolves.ite
    | extract_lets
    | split

theorem wheelsDark_evolves  (h : r.Evolves s) :
    r.Evolves (wheelsDark s) := by
  unfold wheelsDark
  repeat' first
    | with_reducible assumption
    | (intro _)
    | with_reducible apply settleFab_evolves
    | with_reducible apply forAll_evolves
    | with_reducible apply wheelDark_evolves
    | with_reducible apply State.Evolves.ite
    | split

theorem idleTick_evolves  (h : r.Evolves s) :
    r.Evolves (idleTick s) := by
  unfold idleTick
  repeat' first
    | with_reducible assumption
    | with_reducible apply wheelsDark_evolves
    | with_reducible apply State.advanceTo_evolves
    | with_reducible apply State.set_evolves
    | with_reducible apply State.Evolves.ite
    | split

theorem tabWf_fold {α β : Type} [DecidableEq β] {d : Nat → β} (f : Tab β → α → Tab β) {l : List α} {t : Tab β} (h : tabWf d t = true)
    (hf : ∀ t x, tabWf d t = true → tabWf d (f t x) = true) : tabWf d (l.foldl f t) = true := by
  induction l generalizing t with
  | nil => exact h
  | cons x l ih => exact ih (hf _ _ h)

theorem loadImem_evolves {k : Nat} {l : List (CmdBits × Nat)} {f : CmdBits × Nat → Nat} {g : CmdBits × Nat → CmdBits} (h : r.Evolves s) :
    r.Evolves { s with imem := l.foldl (fun (t : Tab CmdBits) x => tabPut (fun _ => 0) t (f x) (g x)) (tabClear s.imem k 8192) } :=
  ⟨h.pending, h.out, h.nextUid, h.freeCtr, fun i => { h.inv i with
    imem := tabWf_fold _ (tabWf_clear _ _ (h.inv i).imem) (fun _ _ h => tabWf_put _ _ h) }⟩

theorem armPrograms_evolves {x0 : Nat} {x1 : Image} (h : r.Evolves s) :
    r.Evolves (armPrograms x0 x1 s) := by
  unfold armPrograms
  repeat' first
    | with_reducible assumption
    | (intro _)
    | with_reducible apply forAll_evolves
    | with_reducible apply State.set_evolves
    | with_reducible apply State.wr_evolves
    | with_reducible apply State.Evolves.ite
    | with_reducible apply State.Evolves.fold
    | with_reducible apply loadImem_evolves

theorem writeData_evolves {x0 : Block} {x1 : Nat} {x2 : List Byte} (h : r.Evolves s) :
    r.Evolves (writeData x0 x1 x2 s) := by
  unfold writeData
  repeat' first
    | with_reducible assumption
    | with_reducible apply coreWrite_evolves

theorem forwardSignal_evolves {x0 : Nat} {x1 : Nat} {x2 : Nat} {x3 : Nat} (h : r.Evolves s) :
    r.Evolves (forwardSignal x0 x1 x2 x3 s) := by
  unfold forwardSignal
  repeat' first
    | with_reducible assumption
    | with_reducible apply State.set_evolves
    | with_reducible apply addFlag_evolves
    | with_reducible apply accessSet_evolves
    | with_reducible apply freezeSoon_evolves
    | with_reducible apply event_evolves
    | with_reducible apply sendMessage_evolves
    | with_reducible apply State.Evolves.ite
    | extract_lets
    | split

theorem doSignal_evolves {x0 : Nat} {x1 : Issued} (h : r.Evolves s) :
    r.Evolves (doSignal x0 x1 s) := by
  unfold doSignal
  repeat' first
    | with_reducible assumption
    | with_reducible apply forwardSignal_evolves
    | with_reducible apply addFlag_evolves
    | with_reducible apply State.Evolves.ite

theorem retireOne_evolves {x0 : Nat} (h : r.Evolves s) :
    r.Evolves (retireOne x0 s) := by
  unfold retireOne
  repeat' first
    | with_reducible assumption
    | with_reducible apply State.write_evolves
    | with_reducible apply State.setQue_evolves
    | with_reducible apply State.inc_evolves
    | with_reducible apply showEngine_evolves
    | with_reducible apply doSignal_evolves
    | with_reducible apply freezeQueue_evolves
    | with_reducible apply State.set_evolves
    | with_reducible apply State.Evolves.ite
    | extract_lets
    | split

theorem reportExchange_evolves {x0 : Nat} {x1 : Int} {x2 : Int} (h : r.Evolves s) :
    r.Evolves (reportExchange x0 x1 x2 s) := by
  unfold reportExchange
  repeat' first
    | with_reducible assumption
    | with_reducible apply State.tick_evolves
    | with_reducible apply State.set_evolves

theorem carry_evolves {x0 : Nat} (h : r.Evolves s) :
    r.Evolves (carry x0 s) := by
  unfold carry
  repeat' first
    | with_reducible assumption
    | with_reducible apply State.advanceTo_evolves
    | with_reducible apply State.Evolves.ite

theorem wheelPlan_evolves {x0 : Nat} {x1 : Issued} {x2 : Nat} {x3 : Nat} {x4 : Nat} {x5 : Nat} (h : r.Evolves s) :
    r.Evolves (wheelPlan x0 x1 x2 x3 x4 x5 s).1 := by
  unfold wheelPlan
  repeat' first
    | with_reducible assumption
    | (intro _)
    | with_reducible apply wheelTouch_evolves
    | with_reducible apply carry_evolves
    | with_reducible apply State.Evolves.ite
    | with_reducible apply State.Evolves.fold
    | extract_lets
    | (dsimp +zetaDelta -failIfUnchanged only [] at ⊢; split)

theorem wheelStart_evolves {x0 : Nat} {x1 : WPlan} (h : r.Evolves s) :
    r.Evolves (wheelStart x0 x1 s) := by
  unfold wheelStart
  repeat' first
    | with_reducible assumption
    | (intro _)
    | with_reducible apply wheelTouch_evolves
    | with_reducible apply State.setWheel_evolves
    | with_reducible apply State.set_evolves
    | with_reducible apply forAll_evolves
    | with_reducible apply wheelCtl_evolves
    | with_reducible apply mergeClose_evolves
    | with_reducible apply wheelRun_evolves
    | with_reducible apply State.Evolves.ite
    | with_reducible apply State.Evolves.fold
    | (fail_if_no_progress with_reducible apply State.Evolves.keep)
    | extract_lets
    | split

theorem wheelIssue_evolves {x0 : Nat} {x1 : Issued} (h : r.Evolves s) :
    r.Evolves (wheelIssue x0 x1 s).1 := by
  unfold wheelIssue
  repeat' first
    | with_reducible assumption
    | with_reducible apply freezeHead_evolves
    | with_reducible apply wheelPlan_evolves
    | with_reducible apply State.set_evolves
    | with_reducible apply wheelTouch_evolves
    | with_reducible apply wheelStart_evolves
    | with_reducible apply endFailed_evolves
    | with_reducible apply abortBoth_evolves
    | with_reducible apply freezeQueue_evolves
    | with_reducible apply State.setQue_evolves
    | with_reducible apply State.Evolves.ite
    | (fail_if_no_progress with_reducible apply State.Evolves.keep)
    | extract_lets
    | split

theorem wheelRow_evolves {x0 : Fin 4} {x1 : Nat} (h : r.Evolves s) :
    r.Evolves (wheelRow x0 x1 s) := by
  unfold wheelRow
  repeat' first
    | with_reducible assumption
    | (intro _)
    | with_reducible apply settleFab_evolves
    | with_reducible apply runHead_evolves
    | with_reducible apply wheelIssue_evolves

theorem dropPosts_evolves {x0 : Nat} (h : r.Evolves s) :
    r.Evolves (dropPosts x0 s) := by
  unfold dropPosts
  repeat' first
    | with_reducible assumption
    | (intro _)
    | with_reducible apply State.setPort_evolves
    | with_reducible apply State.setFab_evolves
    | with_reducible apply forAll_evolves
    | with_reducible apply State.set_evolves

theorem routine_evolves {x0 : Nat} {x1 : Nat → Nat → Nat → State → State} (h1 : ∀ y0 y1 y2 s, r.Evolves s → r.Evolves (x1 y0 y1 y2 s)) (h : r.Evolves s) :
    r.Evolves (routine x0 x1 s) := by
  unfold routine
  repeat' first
    | with_reducible assumption
    | with_reducible apply h1
    | split

theorem routineEnd_evolves {x0 : Nat} (h : r.Evolves s) :
    r.Evolves (routineEnd x0 s) := by
  unfold routineEnd
  repeat' first
    | with_reducible assumption
    | with_reducible apply leaveRoutine_evolves

theorem writeShares_evolves {x0 : List Nat} (h : r.Evolves s) :
    r.Evolves (writeShares x0 s) := by
  unfold writeShares
  repeat' first
    | with_reducible assumption
    | (intro _)
    | with_reducible apply State.set_evolves
    | with_reducible apply forAll_evolves
    | with_reducible apply event_evolves
    | split

theorem evrCtrl_evolves {x0 : Nat} {x1 : Nat} {x2 : Nat} (h : r.Evolves s) :
    r.Evolves (evrCtrl x0 x1 x2 s) := by
  unfold evrCtrl
  repeat' first
    | with_reducible assumption
    | with_reducible apply writeBits_evolves
    | with_reducible apply State.wr_evolves
    | with_reducible apply State.Evolves.ite

theorem moveTimes_evolves {x0 : Int} (h : r.Evolves s) :
    r.Evolves (moveTimes x0 s) := by
  unfold moveTimes
  repeat' first
    | with_reducible assumption
    | (intro _)
    | with_reducible apply forAll_evolves
    | with_reducible apply State.setLink_evolves
    | with_reducible apply State.setFab_evolves
    | with_reducible apply State.setMxe_evolves
    | with_reducible apply State.setWheel_evolves
    | (fail_if_no_progress with_reducible apply State.Evolves.keep)
    | extract_lets

theorem stepTo_evolves {x0 : Nat} (h : r.Evolves s) :
    r.Evolves (stepTo x0 s) := by
  unfold stepTo
  repeat' first
    | with_reducible assumption
    | with_reducible apply eventD_evolves
    | with_reducible apply moveTimes_evolves
    | with_reducible apply State.wr_evolves
    | extract_lets

theorem ftmLoad_evolves  (h : r.Evolves s) :
    r.Evolves (ftmLoad s) := by
  unfold ftmLoad
  repeat' first
    | with_reducible assumption
    | with_reducible apply stepTo_evolves
    | with_reducible apply event_evolves
    | with_reducible apply State.Evolves.ite
    | (fail_if_no_progress with_reducible apply State.Evolves.keep)

theorem ftmCtrl_evolves {x0 : Nat} (h : r.Evolves s) :
    r.Evolves (ftmCtrl x0 s) := by
  unfold ftmCtrl
  repeat' first
    | with_reducible assumption
    | with_reducible apply State.wr_evolves
    | with_reducible apply ftmLoad_evolves
    | with_reducible apply State.Evolves.ite

theorem lnkCfgWrite_evolves {x0 : Nat} {x1 : Nat} {x2 : Nat} {x3 : Nat} (h : r.Evolves s) :
    r.Evolves (lnkCfgWrite x0 x1 x2 x3 s) := by
  unfold lnkCfgWrite
  repeat' first
    | with_reducible assumption
    | with_reducible apply writeBits_evolves
    | with_reducible apply State.set_evolves
    | with_reducible apply evaluate_evolves
    | with_reducible apply event_evolves
    | with_reducible apply State.Evolves.ite

theorem keepReserved_evolves {x0 : FRef} {x1 : Nat} {x2 : Nat} {x3 : Nat} {x4 : Nat} {x5 : Nat} {x6 : State} (h : r.Evolves s) :
    r.Evolves (keepReserved x0 x1 x2 x3 x4 x5 x6 s) := by
  unfold keepReserved
  repeat' first
    | with_reducible assumption
    | with_reducible apply State.set_evolves
    | with_reducible apply eventD_evolves
    | with_reducible apply State.Evolves.ite
    | extract_lets
    | split

theorem lnkVcthrWrite_evolves {x0 : Nat} {x1 : Nat} {x2 : Nat} {x3 : Nat} (h : r.Evolves s) :
    r.Evolves (lnkVcthrWrite x0 x1 x2 x3 s) := by
  unfold lnkVcthrWrite
  repeat' first
    | with_reducible assumption
    | with_reducible apply event_evolves
    | with_reducible apply writeBits_evolves
    | with_reducible apply keepReserved_evolves
    | with_reducible apply State.Evolves.ite
    | extract_lets
    | split

theorem planEntryWrite_evolves {x0 : Nat} {x1 : Nat} {x2 : Nat} {x3 : Nat} {x4 : Nat} (h : r.Evolves s) :
    r.Evolves (planEntryWrite x0 x1 x2 x3 x4 s) := by
  unfold planEntryWrite
  repeat' first
    | with_reducible assumption
    | with_reducible apply evaluate_evolves
    | with_reducible apply writeBits_evolves

theorem hostEqWrite_evolves {x0 : Nat} {x1 : Nat} {x2 : Nat} {x3 : Nat} {x4 : Nat} (h : r.Evolves s) :
    r.Evolves (hostEqWrite x0 x1 x2 x3 x4 s) := by
  unfold hostEqWrite
  repeat' first
    | with_reducible assumption
    | with_reducible apply writeBits_evolves
    | with_reducible apply eventD_evolves
    | with_reducible apply State.set_evolves
    | with_reducible apply State.Evolves.ite

theorem linkBlock_evolves {x0 : Nat} {x1 : Nat} {x2 : Nat} {x3 : Nat} {x4 : Nat} (h : r.Evolves s) :
    r.Evolves (linkBlock x0 x1 x2 x3 x4 s) := by
  unfold linkBlock
  repeat' first
    | with_reducible assumption
    | with_reducible apply settleFab_evolves
    | with_reducible apply lnkCtrl_evolves
    | with_reducible apply lnkCfgWrite_evolves
    | with_reducible apply lnkVcthrWrite_evolves
    | with_reducible apply lnkTestWrite_evolves
    | with_reducible apply planEntryWrite_evolves
    | with_reducible apply hostEqWrite_evolves
    | with_reducible apply writeBits_evolves
    | with_reducible apply State.Evolves.ite

theorem planCheck_evolves  (h : r.Evolves s) :
    r.Evolves (planCheck s).1 := by
  unfold planCheck
  repeat' first
    | with_reducible assumption
    | with_reducible apply State.set_evolves
    | split

theorem planCtl_evolves {x0 : Nat} (h : r.Evolves s) :
    r.Evolves (planCtl x0 s) := by
  unfold planCtl
  repeat' first
    | with_reducible assumption
    | with_reducible apply writeReg_evolves
    | with_reducible apply event_evolves
    | with_reducible apply State.set_evolves
    | with_reducible apply planCheck_evolves
    | with_reducible apply State.Evolves.ite

theorem protoWrite_evolves {x0 : Nat} {x1 : Nat} {x2 : Nat} (h : r.Evolves s) :
    r.Evolves (protoWrite x0 x1 x2 s) := by
  unfold protoWrite
  repeat' first
    | with_reducible assumption
    | with_reducible apply evaluateAll_evolves
    | with_reducible apply writeBits_evolves

theorem prtCfgWrite_evolves {x0 : Nat} {x1 : Nat} {x2 : Nat} {x3 : Nat} (h : r.Evolves s) :
    r.Evolves (prtCfgWrite x0 x1 x2 x3 s) := by
  unfold prtCfgWrite
  repeat' first
    | with_reducible assumption
    | with_reducible apply writeBits_evolves
    | with_reducible apply keepField_evolves
    | with_reducible apply evaluateAll_evolves
    | with_reducible apply updatePort_evolves
    | with_reducible apply State.Evolves.ite
    | extract_lets
    | split

theorem portBlock_evolves {x0 : Nat} {x1 : Nat} {x2 : Nat} {x3 : Nat} (h : r.Evolves s) :
    r.Evolves (portBlock x0 x1 x2 x3 s) := by
  unfold portBlock
  repeat' first
    | with_reducible assumption
    | with_reducible apply settleFab_evolves
    | with_reducible apply planCtl_evolves
    | with_reducible apply protoWrite_evolves
    | with_reducible apply prtCfgWrite_evolves
    | with_reducible apply State.Evolves.ite

theorem openShade_evolves  (h : r.Evolves s) :
    r.Evolves (openShade s) := by
  unfold openShade
  repeat' first
    | with_reducible assumption
    | (intro _)
    | with_reducible apply forAll_evolves
    | with_reducible apply State.wr_evolves
    | with_reducible apply State.set_evolves
    | with_reducible apply routeDiscard_evolves
    | split

theorem rteCntClr_evolves  (h : r.Evolves s) :
    r.Evolves (rteCntClr s) := by
  unfold rteCntClr
  repeat' first
    | with_reducible assumption
    | (intro _)
    | with_reducible apply forAll_evolves
    | with_reducible apply State.wr_evolves

theorem flushClear_evolves  (h : r.Evolves s) :
    r.Evolves (flushClear s) := by
  unfold flushClear
  repeat' first
    | with_reducible assumption
    | (intro _)
    | with_reducible apply State.set_evolves
    | with_reducible apply forAll_evolves
    | with_reducible apply State.wr_evolves
    | with_reducible apply State.setFab_evolves

theorem stampShade_evolves {x0 : Nat} (h : r.Evolves s) :
    r.Evolves (stampShade x0 s) := by
  unfold stampShade
  repeat' first
    | with_reducible assumption
    | with_reducible apply State.set_evolves
    | with_reducible apply routeDiscard_evolves
    | with_reducible apply State.Evolves.ite

theorem flushReport_evolves  (h : r.Evolves s) :
    r.Evolves (flushReport s) := by
  unfold flushReport
  repeat' first
    | with_reducible assumption
    | with_reducible apply sendCell_evolves
    | with_reducible apply State.setFab_evolves
    | with_reducible apply State.Evolves.ite
    | split

theorem setFlrep_evolves {x0 : Bool} (h : r.Evolves s) :
    r.Evolves (setFlrep x0 s) := by
  unfold setFlrep
  repeat' first
    | with_reducible assumption
    | with_reducible apply flushReport_evolves
    | with_reducible apply State.set_evolves
    | with_reducible apply State.setFab_evolves
    | with_reducible apply State.Evolves.ite

theorem rteCtrlWrite_evolves {x0 : Nat} (h : r.Evolves s) :
    r.Evolves (rteCtrlWrite x0 s) := by
  unfold rteCtrlWrite
  repeat' first
    | with_reducible assumption
    | with_reducible apply openShade_evolves
    | with_reducible apply rteCntClr_evolves
    | with_reducible apply flushClear_evolves
    | with_reducible apply retireShade_evolves
    | with_reducible apply stampShade_evolves
    | with_reducible apply setFlrep_evolves
    | with_reducible apply State.Evolves.ite

theorem rteWinWrite_evolves {x0 : Nat} {x1 : Nat} {x2 : Nat} (h : r.Evolves s) :
    r.Evolves (rteWinWrite x0 x1 x2 s) := by
  unfold rteWinWrite
  repeat' first
    | with_reducible assumption
    | with_reducible apply writeBits_evolves
    | with_reducible apply keepReserved_evolves
    | with_reducible apply State.Evolves.ite
    | extract_lets
    | split

theorem ethWrite_evolves {x0 : Nat} {x1 : Nat} {x2 : Nat} {x3 : Nat} (h : r.Evolves s) :
    r.Evolves (ethWrite x0 x1 x2 x3 s) := by
  unfold ethWrite
  repeat' first
    | with_reducible assumption
    | with_reducible apply writeBits_evolves
    | with_reducible apply event_evolves
    | with_reducible apply evaluateAll_evolves
    | with_reducible apply State.Evolves.ite

theorem routeBlock_evolves {x0 : Nat} {x1 : Nat} {x2 : Nat} {x3 : Nat} (h : r.Evolves s) :
    r.Evolves (routeBlock x0 x1 x2 x3 s) := by
  unfold routeBlock
  repeat' first
    | with_reducible assumption
    | with_reducible apply settleFab_evolves
    | with_reducible apply rteCtrlWrite_evolves
    | with_reducible apply rteWinWrite_evolves
    | with_reducible apply event_evolves
    | with_reducible apply writeBits_evolves
    | with_reducible apply tableWrite_evolves
    | with_reducible apply ethWrite_evolves
    | with_reducible apply State.Evolves.ite

theorem wheelAbort_evolves {x0 : Nat} (h : r.Evolves s) :
    r.Evolves (wheelAbort x0 s) := by
  unfold wheelAbort
  repeat' first
    | with_reducible assumption
    | with_reducible apply wheelFailBoth_evolves
    | split

theorem wheelCntClr_evolves {x0 : Nat} (h : r.Evolves s) :
    r.Evolves (wheelCntClr x0 s) := by
  unfold wheelCntClr
  repeat' first
    | with_reducible assumption
    | (intro _)
    | with_reducible apply forAll_evolves
    | with_reducible apply State.wr_evolves

theorem wheelDiscard_evolves {x0 : Nat} (h : r.Evolves s) :
    r.Evolves (wheelDiscard x0 s) := by
  unfold wheelDiscard
  repeat' first
    | with_reducible assumption
    | with_reducible apply eventD_evolves

theorem wheelBlock_evolves {x0 : Nat} {x1 : Nat} {x2 : Nat} {x3 : Nat} {x4 : Nat} (h : r.Evolves s) :
    r.Evolves (wheelBlock x0 x1 x2 x3 x4 s) := by
  unfold wheelBlock
  repeat' first
    | with_reducible assumption
    | with_reducible apply wheelDiscard_evolves
    | with_reducible apply settleFab_evolves
    | with_reducible apply wheelAbort_evolves
    | with_reducible apply wheelCntClr_evolves
    | with_reducible apply State.wr_evolves
    | with_reducible apply writeBits_evolves
    | with_reducible apply ovfWrite_evolves
    | with_reducible apply State.Evolves.ite
    | extract_lets
    | split

theorem svnCommit_evolves {x0 : Nat} (h : r.Evolves s) :
    r.Evolves (svnCommit x0 s) := by
  unfold svnCommit
  repeat' first
    | with_reducible assumption
    | with_reducible apply event_evolves
    | with_reducible apply State.Evolves.ite
    | (fail_if_no_progress with_reducible apply State.Evolves.keep)

theorem securityBlock_evolves {x0 : Nat} {x1 : Nat} {x2 : Nat} {x3 : Nat} (h : r.Evolves s) :
    r.Evolves (securityBlock x0 x1 x2 x3 s) := by
  unfold securityBlock
  repeat' first
    | with_reducible assumption
    | with_reducible apply svnCommit_evolves
    | with_reducible apply event_evolves
    | with_reducible apply writeBits_evolves
    | with_reducible apply State.Evolves.ite

theorem registerEffect_evolves {x0 : Nat} {x1 : Nat} {x2 : Nat} {x3 : Nat} (h : r.Evolves s) :
    r.Evolves (registerEffect x0 x1 x2 x3 s) := by
  unfold registerEffect
  repeat' first
    | with_reducible assumption
    | with_reducible apply globalBlock_evolves
    | with_reducible apply writeBits_evolves
    | with_reducible apply consTake_evolves
    | with_reducible apply queBlock_evolves
    | with_reducible apply evrCtrl_evolves
    | with_reducible apply ftmCtrl_evolves
    | with_reducible apply linkBlock_evolves
    | with_reducible apply portBlock_evolves
    | with_reducible apply routeBlock_evolves
    | with_reducible apply wheelBlock_evolves
    | with_reducible apply setBlock_evolves
    | with_reducible apply tileBlock_evolves
    | with_reducible apply memoryBlock_evolves
    | with_reducible apply powerBlock_evolves
    | with_reducible apply securityBlock_evolves
    | with_reducible apply hostBlock_evolves
    | with_reducible apply State.Evolves.ite

theorem writeHalf_evolves {x0 : Nat} {x1 : Nat} {x2 : Nat} {x3 : Nat} {x4 : Nat} {x5 : Nat} {x6 : Nat} (h : r.Evolves s) :
    r.Evolves (writeHalf x0 x1 x2 x3 x4 x5 x6 s) := by
  unfold writeHalf
  repeat' first
    | with_reducible assumption
    | with_reducible apply State.incSat_evolves
    | with_reducible apply wakeByAccess_evolves
    | with_reducible apply registerEffect_evolves
    | with_reducible apply violation_evolves
    | split

theorem dmaKickAll_evolves {x0 : Nat} (h : r.Evolves s) :
    r.Evolves (dmaKickAll x0 s) := by
  unfold dmaKickAll
  repeat' first
    | with_reducible assumption
    | (intro _)
    | with_reducible apply forAll_evolves
    | with_reducible apply dmaKick_evolves

theorem busMaster_evolves {x0 : Nat} {x1 : Bool} (h : r.Evolves s) :
    r.Evolves (busMaster x0 x1 s) := by
  unfold busMaster
  repeat' first
    | with_reducible assumption
    | (intro _)
    | with_reducible apply State.set_evolves
    | with_reducible apply dmaKickAll_evolves
    | with_reducible apply forAll_evolves
    | with_reducible apply dmaStop_evolves
    | with_reducible apply State.Evolves.ite

theorem bar4Resize_evolves {x0 : Nat} {x1 : Nat} (h : r.Evolves s) :
    r.Evolves (bar4Resize x0 x1 s) := by
  unfold bar4Resize
  repeat' first
    | with_reducible assumption
    | with_reducible apply State.setPort_evolves

theorem configWrite_evolves {x0 : Nat} {x1 : Sys2Proof.ConfigWrite} (h : r.Evolves s) :
    r.Evolves (configWrite x0 x1 s) := by
  unfold configWrite
  repeat' first
    | with_reducible assumption
    | with_reducible apply busMaster_evolves
    | with_reducible apply State.set_evolves
    | with_reducible apply dmaKickAll_evolves
    | with_reducible apply flushVectors_evolves
    | with_reducible apply State.setPort_evolves
    | with_reducible apply bar4Resize_evolves
    | split

theorem preWakeTiles_evolves {x0 : Nat} {x1 : CmdBits} (h : r.Evolves s) :
    r.Evolves (preWakeTiles x0 x1 s) := by
  unfold preWakeTiles
  repeat' first
    | with_reducible assumption
    | with_reducible apply State.setQue_evolves
    | (intro _)
    | with_reducible apply forAll_evolves
    | with_reducible apply State.set_evolves
    | with_reducible apply State.setMxe_evolves
    | with_reducible apply wakeTile_evolves
    | with_reducible apply State.Evolves.ite
    | (fail_if_no_progress with_reducible apply State.Evolves.keep)
    | extract_lets
    | split

theorem launchArrives_evolves {x0 : Nat} {x1 : Issued} (h : r.Evolves s) :
    r.Evolves (launchArrives x0 x1 s).1 := by
  unfold launchArrives
  repeat' first
    | with_reducible assumption
    | with_reducible apply eventD_evolves
    | with_reducible apply releasePreWake_evolves
    | with_reducible apply preWakeTiles_evolves
    | with_reducible apply doSignal_evolves
    | with_reducible apply freezeHead_evolves
    | with_reducible apply State.setQue_evolves
    | with_reducible apply waitFor_evolves
    | with_reducible apply State.Evolves.ite
    | extract_lets
    | split

theorem readClear_evolves {x0 : Nat} {x1 : Nat} {x2 : FRef} (h : r.Evolves s) :
    r.Evolves (readClear x0 x1 x2 s) := by
  unfold readClear
  repeat' first
    | with_reducible assumption
    | with_reducible apply State.set_evolves
    | with_reducible apply readReply_evolves

theorem flumeCopy_evolves {x0 : Nat} {x1 : Issued} (h : r.Evolves s) :
    r.Evolves (flumeCopy x0 x1 s).1 := by
  unfold flumeCopy
  repeat' first
    | with_reducible assumption
    | (intro _)
    | with_reducible apply holdHead_evolves
    | with_reducible apply freezeHead_evolves
    | with_reducible apply freezeEngine_evolves
    | with_reducible apply touch_evolves
    | with_reducible apply flumeGather_evolves
    | with_reducible apply accessRange_evolves
    | with_reducible apply FlmJob.version_evolves
    | with_reducible apply freezeEngineD_evolves
    | with_reducible apply requestPiece_evolves
    | with_reducible apply State.Evolves.ite
    | (fail_if_no_progress with_reducible apply State.Evolves.keep)
    | extract_lets
    | split

theorem resend_evolves {x0 : Nat} (h : r.Evolves s) :
    r.Evolves (resend x0 s) := by
  unfold resend
  repeat' first
    | with_reducible assumption
    | with_reducible apply State.inc_evolves
    | with_reducible apply setWin_evolves
    | with_reducible apply pump_evolves
    | with_reducible apply setSend_evolves
    | split

theorem takeSample_evolves {x0 : List (BitVec 32)} (h : r.Evolves s) :
    r.Evolves (takeSample x0 s) := by
  unfold takeSample
  repeat' first
    | with_reducible assumption
    | (intro _)
    | with_reducible apply forAll_evolves
    | with_reducible apply State.set_evolves
    | (fail_if_no_progress with_reducible apply State.Evolves.keepFree (Nat.le_add_right _ _))

theorem rteCtrl_evolves {x0 : Sys2Proof.PortId} {x1 : State → State} (h1 : ∀ s, r.Evolves s → r.Evolves (x1 s)) (h : r.Evolves s) :
    r.Evolves (rteCtrl x0 x1 s) := by
  unfold rteCtrl
  repeat' first
    | with_reducible assumption
    | with_reducible apply settleFab_evolves
    | with_reducible apply ownerWrite_evolves

theorem newParent_evolves {x0 : Nat} (h : r.Evolves s) :
    r.Evolves (newParent x0 s) := by
  unfold newParent
  repeat' first
    | with_reducible assumption
    | with_reducible apply State.set_evolves
    | (fail_if_no_progress with_reducible apply State.Evolves.keep)

theorem adoptRole_evolves  (h : r.Evolves s) :
    r.Evolves (adoptRole s) := by
  unfold adoptRole
  repeat' first
    | with_reducible assumption
    | with_reducible apply newParent_evolves
    | with_reducible apply State.set_evolves
    | with_reducible apply State.Evolves.ite
    | (fail_if_no_progress with_reducible apply State.Evolves.keep)

theorem sendSequenced_evolves {x0 : Nat} {x1 : CellBits} (h : r.Evolves s) :
    r.Evolves (sendSequenced x0 x1 s) := by
  unfold sendSequenced
  repeat' first
    | with_reducible assumption
    | with_reducible apply State.emit_evolves
    | with_reducible apply State.inc_evolves
    | with_reducible apply State.setLink_evolves

theorem sendChosen_evolves {x0 : Nat} {x1 : Nat} {x2 : Nat} {x3 : QCell} {x4 : Nat} {x5 : Nat} {x6 : Nat} (h : r.Evolves s) :
    r.Evolves (sendChosen x0 x1 x2 x3 x4 x5 x6 s) := by
  unfold sendChosen
  repeat' first
    | with_reducible assumption
    | with_reducible apply State.setLink_evolves
    | with_reducible apply sendSequenced_evolves
    | with_reducible apply giveRoom_evolves

theorem cellSlot_evolves {x0 : Nat} (h : r.Evolves s) :
    r.Evolves (cellSlot x0 s) := by
  unfold cellSlot
  repeat' first
    | with_reducible assumption
    | with_reducible apply sendIdle_evolves
    | with_reducible apply sendChosen_evolves
    | (dsimp +zetaDelta -failIfUnchanged only [] at ⊢; split)

theorem applyAdd_evolves {x0 : Reasm} (h : r.Evolves s) :
    r.Evolves (applyAdd x0 s).1 := by
  unfold applyAdd
  repeat' first
    | with_reducible assumption
    | with_reducible apply touch_evolves
    | with_reducible apply writeServed_evolves
    | with_reducible apply State.Evolves.ite
    | (fail_if_no_progress with_reducible apply State.Evolves.keepFree (Nat.le_add_right _ _))

theorem tapPut_evolves {x0 : TapInstr} {x1 : Option (BitVec 32)} (h : r.Evolves s) :
    r.Evolves (tapPut x0 x1 s) := by
  unfold tapPut
  repeat' first
    | with_reducible assumption
    | with_reducible apply State.Evolves.ite
    | (fail_if_no_progress with_reducible apply State.Evolves.keep)

theorem tapBypass_evolves  (h : r.Evolves s) :
    r.Evolves (tapBypass s) := by
  unfold tapBypass
  repeat' first
    | with_reducible assumption
    | with_reducible apply tapPut_evolves

theorem tapDrive_evolves {x0 : TapInstr} (h : r.Evolves s) :
    r.Evolves (tapDrive x0 s) := by
  unfold tapDrive
  repeat' first
    | with_reducible assumption
    | with_reducible apply tapBypass_evolves
    | with_reducible apply tapPut_evolves
    | with_reducible apply State.Evolves.ite

theorem writeCopy_evolves {x0 : Nat} (h : r.Evolves s) :
    r.Evolves (writeCopy x0 s) := by
  unfold writeCopy
  repeat' first
    | with_reducible assumption
    | with_reducible apply State.set_evolves
    | with_reducible apply State.Evolves.ite
    | (fail_if_no_progress with_reducible apply State.Evolves.keep)

theorem loadFlashRing_evolves  (h : r.Evolves s) :
    r.Evolves (loadFlashRing s) := by
  unfold loadFlashRing
  repeat' first
    | with_reducible assumption
    | (intro _)
    | with_reducible apply State.resetRegs_evolves
    | with_reducible apply forAll_evolves
    | with_reducible apply State.wr_evolves
    | with_reducible apply State.set_evolves

theorem recovery_evolves {x0 : Nat} (h : r.Evolves s) :
    r.Evolves (recovery x0 s) := by
  unfold recovery
  repeat' first
    | with_reducible assumption
    | with_reducible apply eventD_evolves
    | with_reducible apply setPhaseBoot_evolves
    | with_reducible apply State.set_evolves

theorem changeOwner_evolves {x0 : Nat} (h : r.Evolves s) :
    r.Evolves (changeOwner x0 s) := by
  unfold changeOwner
  repeat' first
    | with_reducible assumption
    | with_reducible apply State.inc_evolves
    | with_reducible apply State.set_evolves
    | with_reducible apply raiseBoth_evolves
    | with_reducible apply eventD_evolves

theorem portConfigReset_evolves {x0 : Nat} (h : r.Evolves s) :
    r.Evolves (portConfigReset x0 s) := by
  unfold portConfigReset
  repeat' first
    | with_reducible assumption
    | with_reducible apply State.setPort_evolves
    | with_reducible apply State.wr_evolves
    | with_reducible apply State.set_evolves
    | with_reducible apply State.resetRegs_evolves

theorem releaseFreeze_evolves {x0 : Nat} (h : r.Evolves s) :
    r.Evolves (releaseFreeze x0 s) := by
  unfold releaseFreeze
  repeat' first
    | with_reducible assumption
    | with_reducible apply State.set_evolves
    | with_reducible apply State.setPort_evolves

theorem portReset_evolves {x0 : Nat} {x1 : Nat} (h : r.Evolves s) :
    r.Evolves (portReset x0 x1 s) := by
  unfold portReset
  repeat' first
    | with_reducible assumption
    | (intro _)
    | with_reducible apply changeOwner_evolves
    | with_reducible apply portConfigReset_evolves
    | with_reducible apply dropPosts_evolves
    | with_reducible apply State.wr_evolves
    | with_reducible apply releaseFreeze_evolves
    | with_reducible apply forAll_evolves
    | with_reducible apply dmaResetStop_evolves
    | with_reducible apply failIssued_evolves
    | with_reducible apply event_evolves
    | with_reducible apply State.inc_evolves
    | with_reducible apply clearMailboxes_evolves
    | with_reducible apply settleFab_evolves
    | with_reducible apply raiseVector_evolves
    | with_reducible apply State.Evolves.ite

theorem rejectImage_evolves {x0 : Nat} {x1 : Rej} (h : r.Evolves s) :
    r.Evolves (rejectImage x0 x1 s) := by
  unfold rejectImage
  repeat' first
    | with_reducible assumption
    | with_reducible apply loseSlots_evolves
    | with_reducible apply loseImem_evolves
    | with_reducible apply State.tick_evolves
    | with_reducible apply State.set_evolves
    | with_reducible apply event_evolves
    | with_reducible apply State.wr_evolves
    | with_reducible apply State.Evolves.ite

theorem measured_evolves {x0 : Nat} {x1 : List Nat} (h : r.Evolves s) :
    r.Evolves (measured x0 x1 s) := by
  unfold measured
  repeat' first
    | with_reducible assumption
    | (intro _)
    | with_reducible apply forAll_evolves
    | with_reducible apply State.wr_evolves
    | with_reducible apply setMeasurement_evolves
    | with_reducible apply State.set_evolves

theorem armPeriods_evolves {x0 : Nat} {x1 : Image} (h : r.Evolves s) :
    r.Evolves (armPeriods x0 x1 s) := by
  unfold armPeriods
  repeat' first
    | with_reducible assumption
    | (intro _)
    | with_reducible apply forAll_evolves
    | with_reducible apply State.set_evolves
    | with_reducible apply State.resetRegs_evolves

theorem armQueue_evolves {x0 : Nat} {x1 : Nat} (h : r.Evolves s) :
    r.Evolves (armQueue x0 x1 s) := by
  unfold armQueue
  repeat' first
    | with_reducible assumption
    | (intro _)
    | with_reducible apply State.set_evolves
    | with_reducible apply State.wr_evolves
    | with_reducible apply forAll_evolves
    | with_reducible apply State.setQue_evolves

theorem resumeQueue_evolves {x0 : Nat} {x1 : Nat} {x2 : Nat} (h : r.Evolves s) :
    r.Evolves (resumeQueue x0 x1 x2 s) := by
  unfold resumeQueue
  repeat' first
    | with_reducible assumption
    | (intro _)
    | with_reducible apply armQueue_evolves
    | with_reducible apply State.set_evolves
    | with_reducible apply forAll_evolves
    | with_reducible apply State.wr_evolves
    | with_reducible apply State.setQue_evolves

theorem resumeSet_evolves {x0 : Nat} {x1 : Nat} (h : r.Evolves s) :
    r.Evolves (resumeSet x0 x1 s) := by
  unfold resumeSet
  repeat' first
    | with_reducible assumption
    | (intro _)
    | with_reducible apply State.wr_evolves
    | with_reducible apply State.set_evolves
    | with_reducible apply forAll_evolves
    | with_reducible apply State.Evolves.fold

theorem armData_evolves {x0 : Nat} {x1 : Image} (h : r.Evolves s) :
    r.Evolves (armData x0 x1 s) := by
  unfold armData
  repeat' first
    | with_reducible assumption
    | (intro _)
    | with_reducible apply forAll_evolves
    | with_reducible apply State.write_evolves

theorem armFlags_evolves {x0 : Nat} {x1 : Image} (h : r.Evolves s) :
    r.Evolves (armFlags x0 x1 s) := by
  unfold armFlags
  repeat' first
    | with_reducible assumption
    | (intro _)
    | with_reducible apply forAll_evolves
    | with_reducible apply State.set_evolves
    | with_reducible apply State.resetRegs_evolves
    | with_reducible apply State.wr_evolves

theorem armSet_evolves {x0 : Nat} {x1 : Image} {x2 : LoadJob} (h : r.Evolves s) :
    r.Evolves (armSet x0 x1 x2 s) := by
  unfold armSet
  repeat' first
    | with_reducible assumption
    | (intro _)
    | with_reducible apply armBases_evolves
    | with_reducible apply armPeriods_evolves
    | with_reducible apply armPrograms_evolves
    | with_reducible apply forAll_evolves
    | with_reducible apply resumeQueue_evolves
    | with_reducible apply resumeSet_evolves
    | with_reducible apply touch_evolves
    | with_reducible apply armQueue_evolves
    | with_reducible apply armData_evolves
    | with_reducible apply armFlags_evolves
    | with_reducible apply State.inc_evolves
    | with_reducible apply State.set_evolves
    | with_reducible apply runAgain_evolves
    | with_reducible apply State.Evolves.ite

theorem endLoad_evolves {x0 : Nat} (h : r.Evolves s) :
    r.Evolves (endLoad x0 s) := by
  unfold endLoad
  repeat' first
    | with_reducible assumption
    | with_reducible apply touch_evolves
    | with_reducible apply State.setLoad_evolves
    | with_reducible apply setMeasurement_evolves
    | with_reducible apply rejectImage_evolves
    | with_reducible apply measured_evolves
    | with_reducible apply armSet_evolves
    | with_reducible apply State.Evolves.ite
    | extract_lets
    | split

theorem consWrite_evolves {x0 : Nat} {x1 : Nat} {x2 : Nat} (h : r.Evolves s) :
    r.Evolves (consWrite x0 x1 x2 s) := by
  unfold consWrite
  repeat' first
    | with_reducible assumption
    | (intro _)
    | with_reducible apply hostWrite_evolves
    | with_reducible apply violation_evolves
    | with_reducible apply State.set_evolves
    | with_reducible apply State.Evolves.ite

theorem write32_evolves {x0 : Nat} {x1 : Nat} {x2 : Nat} {x3 : Nat} (h : r.Evolves s) :
    r.Evolves (write32 x0 x1 x2 x3 s) := by
  unfold write32
  repeat' first
    | with_reducible assumption
    | (intro _)
    | with_reducible apply hostWrite_evolves
    | with_reducible apply addFlag_evolves
    | with_reducible apply accessSet_evolves
    | with_reducible apply consWrite_evolves
    | with_reducible apply writeHalf_evolves
    | with_reducible apply State.Evolves.ite
    | extract_lets
    | split

theorem write64_evolves {x0 : Nat} {x1 : Nat} {x2 : Nat} {x3 : Nat} (h : r.Evolves s) :
    r.Evolves (write64 x0 x1 x2 x3 s) := by
  unfold write64
  repeat' first
    | with_reducible assumption
    | with_reducible apply writeHalf_evolves
    | with_reducible apply write32_evolves
    | with_reducible apply State.Evolves.ite

theorem slew_evolves  (h : r.Evolves s) :
    r.Evolves (slew s) := by
  unfold slew
  repeat' first
    | with_reducible assumption
    | with_reducible apply State.tick_evolves
    | with_reducible apply State.set_evolves

theorem fecCount_evolves {x0 : Nat} {x1 : Sys2Proof.Fec} (h : r.Evolves s) :
    r.Evolves (fecCount x0 x1 s) := by
  unfold fecCount
  repeat' first
    | with_reducible assumption
    | with_reducible apply State.inc_evolves
    | with_reducible apply State.setLink_evolves
    | with_reducible apply event_evolves
    | with_reducible apply failLink_evolves
    | with_reducible apply State.Evolves.ite

theorem planCtlBit_evolves {x0 : Sys2Proof.PortId} {x1 : Nat} (h : r.Evolves s) :
    r.Evolves (planCtlBit x0 x1 s) := by
  unfold planCtlBit
  repeat' first
    | with_reducible assumption
    | (intro _)
    | with_reducible apply settleFab_evolves
    | with_reducible apply ownerWrite_evolves
    | with_reducible apply planCtl_evolves

theorem loadTile_evolves {x0 : Nat} {x1 : MxCmd} {x2 : MxRep} (h : r.Evolves s) :
    r.Evolves (loadTile x0 x1 x2 s) := by
  unfold loadTile
  repeat' first
    | with_reducible assumption
    | with_reducible apply State.setMxe_evolves

theorem ppsLost_evolves  (h : r.Evolves s) :
    r.Evolves (ppsLost s) := by
  unfold ppsLost
  repeat' first
    | with_reducible assumption
    | with_reducible apply event_evolves
    | with_reducible apply State.set_evolves

theorem coldStores_evolves {p0 p1 : PortSt} {m : MgtSt} {e : EvrSt} {b : BootSt} {t : TapSt} (h : r.Evolves s) :
    r.Evolves { State.reset with
      mem := s.mem, poison := s.poison, errs := s.errs, nextUid := s.nextUid,
      ports := tabPut (fun _ => {}) (tabPut (fun _ => {}) [] 0 p0) 1 p1, mgt := m, evr := e, boot := b, tap := t,
      out := s.out, freeCtr := s.freeCtr, pending := s.pending } :=
  ⟨h.pending, h.out, h.nextUid, h.freeCtr, fun i => {
    regs := rfl, mem := (h.inv i).mem, poison := (h.inv i).poison, errs := (h.inv i).errs, imem := rfl, ques := rfl, banks := rfl,
    landings := rfl, mxes := rfl, gates := rfl, links := rfl, dmas := rfl, wheels := rfl, loads := rfl,
    ports := tabWf_put _ _ (tabWf_put _ _ rfl) }⟩

theorem coldReset_evolves  (h : r.Evolves s) :
    r.Evolves (coldReset s) := by
  unfold coldReset
  repeat' first
    | with_reducible assumption
    | with_reducible apply interruptCommit_evolves
    | with_reducible apply State.reset_evolves
    | with_reducible apply State.set_evolves
    | with_reducible apply State.wr_evolves
    | with_reducible apply coldStores_evolves

theorem pldmData_evolves {x0 : Sys2Proof.Binding} {x1 : Bool} {x2 : State → List Byte} (h : r.Evolves s) :
    r.Evolves (pldmData x0 x1 x2 s) := by
  unfold pldmData
  repeat' first
    | with_reducible assumption
    | (intro _)
    | with_reducible apply pldmAnswer_evolves

theorem takeOffset_evolves {x0 : Int} (h : r.Evolves s) :
    r.Evolves (takeOffset x0 s) := by
  unfold takeOffset
  repeat' first
    | with_reducible assumption
    | with_reducible apply State.tick_evolves
    | with_reducible apply State.set_evolves
    | with_reducible apply State.Evolves.ite
    | (fail_if_no_progress with_reducible apply State.Evolves.keep)

theorem stepBack_evolves {x0 : Int} (h : r.Evolves s) :
    r.Evolves (stepBack x0 s) := by
  unfold stepBack
  repeat' first
    | with_reducible assumption
    | with_reducible apply stepTo_evolves
    | with_reducible apply State.tick_evolves
    | (fail_if_no_progress with_reducible apply State.Evolves.keep)

theorem discipline_evolves {x0 : Int} (h : r.Evolves s) :
    r.Evolves (discipline x0 s) := by
  unfold discipline
  repeat' first
    | with_reducible assumption
    | with_reducible apply takeOffset_evolves
    | with_reducible apply State.set_evolves
    | with_reducible apply stepBack_evolves
    | with_reducible apply event_evolves
    | with_reducible apply slew_evolves
    | with_reducible apply State.Evolves.ite
    | (fail_if_no_progress with_reducible apply State.Evolves.keep)

theorem helloArrives_evolves {x0 : Nat} {x1 : CellBits} (h : r.Evolves s) :
    r.Evolves (helloArrives x0 x1 s) := by
  unfold helloArrives
  repeat' first
    | with_reducible assumption
    | with_reducible apply storeHello_evolves
    | with_reducible apply evaluate_evolves
    | with_reducible apply State.setLink_evolves

theorem takeAlternate_evolves {x0 : Nat} (h : r.Evolves s) :
    r.Evolves (takeAlternate x0 s) := by
  unfold takeAlternate
  repeat' first
    | with_reducible assumption
    | (intro _)
    | with_reducible apply eventD_evolves
    | with_reducible apply newParent_evolves
    | with_reducible apply State.Evolves.ite
    | (fail_if_no_progress with_reducible apply State.Evolves.keep)
    | extract_lets
    | split

theorem followReply_evolves {x0 : Nat} {x1 : TimeHeard} {x2 : Int} (h : r.Evolves s) :
    r.Evolves (followReply x0 x1 x2 s) := by
  unfold followReply
  repeat' first
    | with_reducible assumption
    | with_reducible apply takeAlternate_evolves
    | with_reducible apply event_evolves
    | with_reducible apply newParent_evolves
    | with_reducible apply State.set_evolves
    | with_reducible apply State.inc_evolves
    | with_reducible apply discipline_evolves
    | with_reducible apply State.Evolves.ite
    | (fail_if_no_progress with_reducible apply State.Evolves.keep)

theorem bar4Write_evolves {x0 : Nat} {x1 : Nat} {x2 : List Byte} {x3 : Bool} (h : r.Evolves s) :
    r.Evolves (bar4Write x0 x1 x2 x3 s) := by
  unfold bar4Write
  repeat' first
    | with_reducible assumption
    | (intro _)
    | with_reducible apply event_evolves
    | with_reducible apply accessRange_evolves
    | with_reducible apply countUnmirrored_evolves
    | with_reducible apply writeServed_evolves
    | with_reducible apply State.Evolves.ite
    | extract_lets
    | split

theorem parentLost_evolves  (h : r.Evolves s) :
    r.Evolves (parentLost s) := by
  unfold parentLost
  repeat' first
    | with_reducible assumption
    | with_reducible apply newParent_evolves
    | with_reducible apply State.set_evolves
    | with_reducible apply eventD_evolves
    | with_reducible apply State.Evolves.ite
    | (fail_if_no_progress with_reducible apply State.Evolves.keep)

theorem pldmServed_evolves {x0 : Sys2Proof.Binding} {x1 : State → State × MctpMsg} (h1 : ∀ s, r.Evolves s → r.Evolves (x1 s).1) (h : r.Evolves s) :
    r.Evolves (pldmServed x0 x1 s) := by
  unfold pldmServed
  repeat' first
    | with_reducible assumption
    | (intro _)
    | with_reducible apply pldmAnswer_evolves
    | with_reducible apply h1
    | split

theorem tagWrite_evolves {x0 : List Byte} {x1 : Bool} (h : r.Evolves s) :
    r.Evolves (tagWrite x0 x1 s) := by
  unfold tagWrite
  repeat' first
    | with_reducible assumption
    | with_reducible apply State.incSat_evolves
    | with_reducible apply event_evolves
    | with_reducible apply State.Evolves.ite
    | (fail_if_no_progress with_reducible apply State.Evolves.keep)

theorem elementStamp_evolves {x0 : Nat} {x1 : Issued} (h : r.Evolves s) :
    r.Evolves (elementStamp x0 x1 s).1 := by
  unfold elementStamp
  repeat' first
    | with_reducible assumption
    | with_reducible apply freezeEngine_evolves
    | with_reducible apply touch_evolves
    | with_reducible apply State.write_evolves
    | with_reducible apply freezeHead_evolves
    | extract_lets
    | split

theorem answerBlock_evolves {x0 : UpdateJob} {x1 : Nat} (h : r.Evolves s) :
    r.Evolves (answerBlock x0 x1 s) := by
  unfold answerBlock
  repeat' first
    | with_reducible assumption
    | with_reducible apply complete_evolves
    | split

theorem freezeEvent_evolves {x0 : Nat} {x1 : Nat} {x2 : Nat} {x3 : Nat} {x4 : Nat} {x5 : Nat} (h : r.Evolves s) :
    r.Evolves (freezeEvent x0 x1 x2 x3 x4 x5 s) := by
  unfold freezeEvent
  repeat' first
    | with_reducible assumption
    | with_reducible apply freezeQueue_evolves
    | with_reducible apply eventD_evolves

theorem capChange_evolves {x0 : Nat} {x1 : DomSt} (h : r.Evolves s) :
    r.Evolves (capChange x0 x1 s) := by
  unfold capChange
  repeat' first
    | with_reducible assumption
    | with_reducible apply setRequests_evolves
    | with_reducible apply event_evolves
    | with_reducible apply State.setDom_evolves
    | with_reducible apply released_evolves
    | with_reducible apply State.Evolves.ite

theorem dmaComplete_evolves {x0 : Nat} {x1 : Nat} {x2 : Nat} (h : r.Evolves s) :
    r.Evolves (dmaComplete x0 x1 x2 s) := by
  unfold dmaComplete
  repeat' first
    | with_reducible assumption
    | with_reducible apply State.setDma_evolves
    | with_reducible apply State.inc_evolves
    | with_reducible apply addFlag_evolves
    | with_reducible apply accessSet_evolves
    | with_reducible apply dmaKick_evolves
    | with_reducible apply raiseVector_evolves
    | with_reducible apply State.Evolves.ite
    | extract_lets
    | split

theorem adaptiveFallback_evolves  (h : r.Evolves s) :
    r.Evolves (adaptiveFallback s) := by
  unfold adaptiveFallback
  repeat' first
    | with_reducible assumption
    | with_reducible apply State.setFab_evolves
    | with_reducible apply routeHeld_evolves
    | with_reducible apply routeEscape_evolves
    | split

theorem bar4Read_evolves {x0 : Nat} {x1 : Nat} {x2 : Nat} (h : r.Evolves s) :
    r.Evolves (bar4Read x0 x1 x2 s) := by
  unfold bar4Read
  repeat' first
    | with_reducible assumption
    | with_reducible apply State.emit_evolves
    | with_reducible apply event_evolves
    | with_reducible apply touch_evolves
    | with_reducible apply accessRange_evolves
    | with_reducible apply State.Evolves.ite
    | extract_lets
    | split

theorem answerRead_evolves {x0 : Reasm} (h : r.Evolves s) :
    r.Evolves (answerRead x0 s) := by
  unfold answerRead
  repeat' first
    | with_reducible assumption
    | with_reducible apply touch_evolves
    | with_reducible apply sendMessage_evolves

theorem noteGroup_evolves {g : Nat} {o : MxRun} (h : r.Evolves o.s) : r.Evolves (noteGroup g o).s := by
  unfold noteGroup
  split <;> exact h

theorem writeRow_evolves {x0 : Nat} {x1 : Nat} {x2 : Nat} {x3 : Nat} {x4 : List (BitVec 32)} (h : r.Evolves s) :
    r.Evolves (writeRow x0 x1 x2 x3 x4 s) :=
  landings_evolves (fun i => tabWf_put _ _ i.landings)
    (State.Evolves.ite (State.Evolves.fold h fun _ _ h => State.setEntry_evolves h) h)

theorem mxRow_evolves {t m : Nat} {c : MxCmd} {p : MxRep} {past pass start f x : Nat} {mk : Bool} {sid idx : Nat} {o : MxRun} (h : r.Evolves o.s) :
    r.Evolves (mxRow t m c p past pass start f x mk sid idx o).s := by
  unfold mxRow
  repeat' first
    | with_reducible assumption
    | (intro _)
    | with_reducible apply noteGroup_evolves
    | with_reducible apply State.write_evolves
    | with_reducible apply recordHazard_evolves
    | with_reducible apply State.setGroup_evolves
    | with_reducible apply writeRow_evolves
    | with_reducible apply State.Evolves.ite
    | extract_lets
    | split

theorem mxRepetition_evolves {t m : Nat} {c : MxCmd} {p : MxRep} {past mk sid idx fill : Nat} {o : MxRun} (h : r.Evolves o.s) :
    r.Evolves (mxRepetition t m c p past mk sid idx fill o).s := by
  unfold mxRepetition
  repeat' first
    | with_reducible assumption
    | (intro _)
    | with_reducible apply revalidate_evolves
    | with_reducible apply State.set_evolves
    | with_reducible apply loadTile_evolves
    | with_reducible apply touch_evolves
    | with_reducible apply forAll_evolves
    | with_reducible apply State.setMxe_evolves
    | with_reducible apply mxRow_evolves
    | with_reducible apply State.Evolves.ite
    | with_reducible apply State.Evolves.foldl MxRun.s
    | extract_lets
    | split

theorem matrixIssue_evolves {x0 : Nat} {x1 : Nat} {x2 : Nat} {x3 : Nat} {x4 : Issued} (h : r.Evolves s) :
    r.Evolves (matrixIssue x0 x1 x2 x3 x4 s).1 := by
  unfold matrixIssue
  repeat' first
    | with_reducible assumption
    | (intro _)
    | with_reducible apply freezeEngine_evolves
    | with_reducible apply touch_evolves
    | with_reducible apply grind_evolves
    | with_reducible apply State.inc_evolves
    | with_reducible apply applyTally_evolves
    | with_reducible apply latchGrind_evolves
    | with_reducible apply State.set_evolves
    | with_reducible apply State.setMxe_evolves
    | with_reducible apply event_evolves
    | with_reducible apply freezeHead_evolves
    | with_reducible apply State.Evolves.ite
    | with_reducible apply State.Evolves.fold
    | (fail_if_no_progress with_reducible apply State.Evolves.keep)
    | with_reducible apply mxRepetition_evolves
    | with_reducible apply State.Evolves.foldl MxRun.s
    | extract_lets
    | split

theorem sensorAnswer_evolves {x0 : Nat} {x1 : Nat} {x2 : Nat} (h : r.Evolves s) :
    r.Evolves (sensorAnswer x0 x1 x2 s).1 := by
  unfold sensorAnswer
  repeat' first
    | with_reducible assumption
    | with_reducible apply spend_evolves
    | split

theorem hostPost_evolves {x0 : Nat} {x1 : Nat} (h : r.Evolves s) :
    r.Evolves (hostPost x0 x1 s) := by
  unfold hostPost
  repeat' first
    | with_reducible assumption
    | with_reducible apply State.set_evolves
    | with_reducible apply readReply_evolves
    | with_reducible apply State.setPort_evolves
    | with_reducible apply acceptNotice_evolves
    | with_reducible apply hostPostOutcome_evolves
    | with_reducible apply settleFab_evolves
    | with_reducible apply sendMessage_evolves
    | with_reducible apply State.Evolves.ite

theorem poisonFar_evolves {x0 : Nat} {x1 : Nat} {x2 : Bool} {x3 : Nat × Nat × List Byte} (h : r.Evolves s) :
    r.Evolves (poisonFar x0 x1 x2 x3 s) := by
  unfold poisonFar
  repeat' first
    | with_reducible assumption
    | (intro _)
    | with_reducible apply sendMessage_evolves
    | with_reducible apply State.Evolves.ite
    | extract_lets
    | split

theorem undoLines_evolves {x0 : Nat} {x1 : Issued} (h : r.Evolves s) :
    r.Evolves (undoLines x0 x1 s) := by
  unfold undoLines
  repeat' first
    | with_reducible assumption
    | (intro _)
    | with_reducible apply poisonLines_evolves
    | with_reducible apply forAll_evolves
    | with_reducible apply restoreLine_evolves
    | with_reducible apply mirrorOut_evolves
    | with_reducible apply dropSends_evolves
    | extract_lets

theorem flumeUndo_evolves {x0 : Nat} {x1 : Nat} {x2 : Issued} (h : r.Evolves s) :
    r.Evolves (flumeUndo x0 x1 x2 s) := by
  unfold flumeUndo
  repeat' first
    | with_reducible assumption
    | (intro _)
    | with_reducible apply forAll_evolves
    | with_reducible apply poisonFar_evolves
    | with_reducible apply undoLines_evolves

theorem flumeTintOpen_evolves {x0 : Nat} {x1 : Nat} {x2 : Nat} {x3 : Issued} (h : r.Evolves s) :
    r.Evolves (flumeTintOpen x0 x1 x2 x3 s) := by
  unfold flumeTintOpen
  repeat' first
    | with_reducible assumption
    | with_reducible apply State.wr_evolves
    | with_reducible apply State.tick_evolves
    | with_reducible apply State.Evolves.ite
    | extract_lets
    | split

theorem writeSaved_evolves {x0 : Nat} {x1 : Nat} {x2 : List Byte} (h : r.Evolves s) :
    r.Evolves (writeSaved x0 x1 x2 s) := by
  unfold writeSaved
  repeat' first
    | with_reducible assumption
    | (intro _)
    | with_reducible apply countUnmirrored_evolves
    | with_reducible apply writeServed_evolves
    | with_reducible apply State.Evolves.ite
    | split

theorem claimRead_evolves {x0 : Nat} (h : r.Evolves s) :
    r.Evolves (claimRead x0 s) := by
  unfold claimRead
  repeat' first
    | with_reducible assumption
    | with_reducible apply ownReply_evolves
    | with_reducible apply changeOwner_evolves
    | with_reducible apply State.Evolves.ite
    | split

theorem releaseRead_evolves {x0 : Nat} (h : r.Evolves s) :
    r.Evolves (releaseRead x0 s) := by
  unfold releaseRead
  repeat' first
    | with_reducible assumption
    | with_reducible apply ownReply_evolves
    | with_reducible apply changeOwner_evolves
    | with_reducible apply State.Evolves.ite
    | split

theorem seizeRead_evolves {x0 : Nat} (h : r.Evolves s) :
    r.Evolves (seizeRead x0 s) := by
  unfold seizeRead
  repeat' first
    | with_reducible assumption
    | with_reducible apply ownReply_evolves
    | with_reducible apply changeOwner_evolves
    | with_reducible apply State.Evolves.ite
    | split

theorem violSeen_evolves {x0 : Nat} {x1 : Nat} (h : r.Evolves s) :
    r.Evolves (violSeen x0 x1 s) := by
  unfold violSeen
  repeat' first
    | with_reducible assumption
    | with_reducible apply State.setPort_evolves
    | with_reducible apply State.Evolves.ite
    | (fail_if_no_progress with_reducible apply State.Evolves.keep)
    | split

theorem thawRead_evolves {x0 : Nat} (h : r.Evolves s) :
    r.Evolves (thawRead x0 s) := by
  unfold thawRead
  repeat' first
    | with_reducible assumption
    | with_reducible apply readReply_evolves
    | with_reducible apply releaseFreeze_evolves
    | with_reducible apply State.Evolves.ite
    | extract_lets
    | split

theorem imemFails_evolves {x0 : Nat} (h : r.Evolves s) :
    r.Evolves (imemFails x0 s) := by
  unfold imemFails
  repeat' first
    | with_reducible assumption
    | with_reducible apply State.setQue_evolves
    | with_reducible apply freezeQueue_evolves
    | with_reducible apply State.Evolves.ite
    | (fail_if_no_progress with_reducible apply State.Evolves.keep)
    | extract_lets
    | split

theorem storeFails_evolves {x0 : Nat} (h : r.Evolves s) :
    r.Evolves (storeFails x0 s) := by
  unfold storeFails
  repeat' first
    | with_reducible assumption
    | with_reducible apply showEngine_evolves
    | with_reducible apply freezeQueue_evolves
    | with_reducible apply abortWork_evolves
    | with_reducible apply State.tick_evolves
    | split

theorem stagingFails_evolves {x0 : Nat} (h : r.Evolves s) :
    r.Evolves (stagingFails x0 s) := by
  unfold stagingFails
  repeat' first
    | with_reducible assumption
    | (intro _)
    | with_reducible apply endQuietly_evolves
    | with_reducible apply abortBoth_evolves
    | with_reducible apply settleFab_evolves
    | with_reducible apply freezeQueue_evolves
    | with_reducible apply setIssued_evolves
    | (fail_if_no_progress with_reducible apply State.Evolves.keep)
    | extract_lets
    | split

theorem bankFails_evolves {x0 : Nat} (h : r.Evolves s) :
    r.Evolves (bankFails x0 s) := by
  unfold bankFails
  repeat' first
    | with_reducible assumption
    | with_reducible apply State.setGroup_evolves
    | with_reducible apply State.tick_evolves

theorem unitEffect_evolves {x0 : Nat} {x1 : Nat} {x2 : Word} (h : r.Evolves s) :
    r.Evolves (unitEffect x0 x1 x2 s) := by
  unfold unitEffect
  repeat' first
    | with_reducible assumption
    | (intro _)
    | with_reducible apply imemFails_evolves
    | with_reducible apply storeFails_evolves
    | with_reducible apply stagingFails_evolves
    | with_reducible apply bankFails_evolves
    | with_reducible apply State.Evolves.ite
    | (fail_if_no_progress with_reducible apply State.Evolves.keep)
    | split

theorem voidRecord_evolves {x0 : Nat} (h : r.Evolves s) :
    r.Evolves (voidRecord x0 s) := by
  unfold voidRecord
  repeat' first
    | with_reducible assumption
    | with_reducible apply State.set_evolves

end Sys2Proof.Machine
end

