-- ==== Sys2Proof/Laws/Commands.lean ====
section
/-! SUPPORT. What no command undoes, command by command (`State.Evolves`). -/

namespace Sys2Proof.Machine

variable {r s : State}

/-- An answer that goes on only to states that evolve from `r`. -/
def Evolving (r : State) : Res → Prop
  | .next t => r.Evolves t
  | _ => True

theorem Evolving.next {t : State} (h : r.Evolves t) : Evolving r (.next t) := h

theorem noMemory_evolves {b : BootSt} (h : r.Evolves s) :
    r.Evolves { s with mem := [], poison := [], errs := [], boot := b } :=
  ⟨h.pending, h.out, h.nextUid, h.freeCtr, fun i => { h.inv i with mem := rfl, poison := rfl, errs := rfl }⟩

theorem Evolving.of {t : State} {x : Res} (h : Evolving r x) (e : x = .next t) : r.Evolves t := by subst e; exact h

theorem execRegisterWrite_evolves {x0 : PortId} {x1 : Bool} {x2 : BitVec 26} {x3 : Nat} {x4 : BitVec 64} : Evolving s (execRegisterWrite x0 x1 x2 x3 x4 s) := by
  unfold execRegisterWrite
  have h := State.Evolves.refl s
  repeat' first
    | with_reducible assumption
    | with_reducible apply Evolving.next
    | with_reducible apply write32_evolves
    | with_reducible apply write64_evolves
    | with_reducible apply State.incSat_evolves
    | with_reducible apply event_evolves
    | with_reducible apply State.Evolves.ite

theorem execEleCntClr_evolves {x0 : PortId} {x1 : TileId} : Evolving s (execEleCntClr x0 x1 s) := by
  unfold execEleCntClr
  have h := State.Evolves.refl s
  repeat' first
    | with_reducible assumption
    | (intro _)
    | with_reducible apply Evolving.next
    | with_reducible apply ownerWrite_evolves
    | with_reducible apply State.wr_evolves

theorem execElementParityFault_evolves {x0 : TileId} {x1 : Nat} : Evolving s (execElementParityFault x0 x1 s) := by
  unfold execElementParityFault
  have h := State.Evolves.refl s
  repeat' first
    | with_reducible assumption
    | with_reducible apply Evolving.next
    | with_reducible apply abortCommand_evolves

theorem execErun_evolves {x0 : TileId} {x1 : Nat} : Evolving s (execErun x0 x1 s) := by
  unfold execErun
  have h := State.Evolves.refl s
  repeat' first
    | with_reducible assumption
    | (intro _)
    | with_reducible apply Evolving.next
    | with_reducible apply showEngine_evolves
    | with_reducible apply runHead_evolves
    | with_reducible apply elementRun_evolves

theorem execEstamp_evolves {x0 : TileId} : Evolving s (execEstamp x0 s) := by
  unfold execEstamp
  have h := State.Evolves.refl s
  repeat' first
    | with_reducible assumption
    | (intro _)
    | with_reducible apply Evolving.next
    | with_reducible apply showEngine_evolves
    | with_reducible apply runHead_evolves
    | with_reducible apply elementStamp_evolves

theorem execEthFrameReceive_evolves {x0 : LinkId} {x1 : List (BitVec 8)} : Evolving s (execEthFrameReceive x0 x1 s) := by
  unfold execEthFrameReceive
  have h := State.Evolves.refl s
  repeat' first
    | with_reducible assumption
    | with_reducible apply Evolving.next
    | with_reducible apply frameArrives_evolves
    | with_reducible apply State.Evolves.ite
    | with_reducible apply settleFab_evolves
    | split

theorem execEthFrameSend_evolves {x0 : LinkId} {x1 : Nat} {x2 : BitVec 8} : Evolving s (execEthFrameSend x0 x1 x2 s) := by
  unfold execEthFrameSend
  have h := State.Evolves.refl s
  repeat' first
    | with_reducible assumption
    | (intro _)
    | with_reducible apply Evolving.next
    | with_reducible apply State.setLink_evolves
    | with_reducible apply forAll_evolves
    | with_reducible apply giveRoom_evolves
    | with_reducible apply State.emit_evolves
    | with_reducible apply State.Evolves.ite
    | with_reducible apply settleFab_evolves
    | (fail_if_no_progress with_reducible apply State.Evolves.keep)
    | extract_lets
    | split

theorem execLldpReceive_evolves {x0 : LinkId} {x1 : List (BitVec 8)} : Evolving s (execLldpReceive x0 x1 s) := by
  unfold execLldpReceive
  have h := State.Evolves.refl s
  repeat' first
    | with_reducible assumption
    | with_reducible apply Evolving.next
    | with_reducible apply lldpArrives_evolves
    | with_reducible apply State.Evolves.ite
    | with_reducible apply settleFab_evolves
    | split

theorem execLldpSend_evolves {x0 : LinkId} : Evolving s (execLldpSend x0 s) := by
  unfold execLldpSend
  have h := State.Evolves.refl s
  repeat' first
    | with_reducible assumption
    | with_reducible apply Evolving.next
    | with_reducible apply State.emit_evolves
    | with_reducible apply State.setLink_evolves
    | with_reducible apply State.Evolves.ite

theorem execPfcFrameReceive_evolves {x0 : LinkId} {x1 : Fin 8} {x2 : BitVec 16} : Evolving s (execPfcFrameReceive x0 x1 x2 s) := by
  unfold execPfcFrameReceive
  have h := State.Evolves.refl s
  repeat' first
    | with_reducible assumption
    | with_reducible apply Evolving.next
    | with_reducible apply State.inc_evolves
    | with_reducible apply State.setLink_evolves
    | with_reducible apply State.Evolves.ite

theorem execPfcRepeat_evolves {x0 : LinkId} {x1 : Nat} : Evolving s (execPfcRepeat x0 x1 s) := by
  unfold execPfcRepeat
  have h := State.Evolves.refl s
  repeat' first
    | with_reducible assumption
    | with_reducible apply Evolving.next
    | with_reducible apply State.emit_evolves
    | with_reducible apply State.Evolves.ite

theorem execAdaptiveFallback_evolves  : Evolving s (execAdaptiveFallback s) := by
  unfold execAdaptiveFallback
  have h := State.Evolves.refl s
  repeat' first
    | with_reducible assumption
    | with_reducible apply Evolving.next
    | with_reducible apply settleFab_evolves
    | with_reducible apply adaptiveFallback_evolves

theorem execDuplicateKeyExpiry_evolves {x0 : BitVec 16} {x1 : Nat} {x2 : BitVec 10} : Evolving s (execDuplicateKeyExpiry x0 x1 x2 s) := by
  unfold execDuplicateKeyExpiry
  have h := State.Evolves.refl s
  repeat' first
    | with_reducible assumption
    | with_reducible apply Evolving.next
    | with_reducible apply State.setFab_evolves

theorem execFlclr_evolves {x0 : PortId} : Evolving s (execFlclr x0 s) := by
  unfold execFlclr
  have h := State.Evolves.refl s
  repeat' first
    | with_reducible assumption
    | with_reducible apply Evolving.next
    | with_reducible apply rteCtrl_evolves
    | with_reducible apply flushClear_evolves

theorem execFlrep_evolves {x0 : PortId} {x1 : Bool} : Evolving s (execFlrep x0 x1 s) := by
  unfold execFlrep
  have h := State.Evolves.refl s
  repeat' first
    | with_reducible assumption
    | (intro _)
    | with_reducible apply Evolving.next
    | with_reducible apply rteCtrl_evolves
    | with_reducible apply setFlrep_evolves

theorem execFlush_evolves {x0 : LinkId} {x1 : BitVec 640} : Evolving s (execFlush x0 x1 s) := by
  unfold execFlush
  have h := State.Evolves.refl s
  repeat' first
    | with_reducible assumption
    | with_reducible apply Evolving.next
    | with_reducible apply settleFab_evolves
    | with_reducible apply routedIn_evolves
    | with_reducible apply State.Evolves.ite

theorem execFlushGuardExpiry_evolves  : Evolving s (execFlushGuardExpiry s) := by
  unfold execFlushGuardExpiry
  have h := State.Evolves.refl s
  repeat' first
    | with_reducible assumption
    | with_reducible apply Evolving.next
    | with_reducible apply State.setFab_evolves
    | with_reducible apply event_evolves
    | with_reducible apply State.set_evolves
    | with_reducible apply State.Evolves.ite

theorem execFlushReportSend_evolves  : Evolving s (execFlushReportSend s) := by
  unfold execFlushReportSend
  have h := State.Evolves.refl s
  repeat' first
    | with_reducible assumption
    | with_reducible apply Evolving.next
    | with_reducible apply settleFab_evolves
    | with_reducible apply flushReport_evolves

theorem execGrant_evolves {x0 : LinkId} {x1 : BitVec 640} : Evolving s (execGrant x0 x1 s) := by
  unfold execGrant
  have h := State.Evolves.refl s
  repeat' first
    | with_reducible assumption
    | with_reducible apply Evolving.next
    | with_reducible apply settleFab_evolves
    | with_reducible apply routedIn_evolves
    | with_reducible apply State.Evolves.ite

theorem execNotice_evolves {x0 : LinkId} {x1 : BitVec 640} : Evolving s (execNotice x0 x1 s) := by
  unfold execNotice
  have h := State.Evolves.refl s
  repeat' first
    | with_reducible assumption
    | with_reducible apply Evolving.next
    | with_reducible apply settleFab_evolves
    | with_reducible apply routedIn_evolves
    | with_reducible apply State.Evolves.ite

theorem execNoticeAborted_evolves {x0 : LinkId} {x1 : BitVec 640} : Evolving s (execNoticeAborted x0 x1 s) := by
  unfold execNoticeAborted
  have h := State.Evolves.refl s
  repeat' first
    | with_reducible assumption
    | with_reducible apply Evolving.next
    | with_reducible apply settleFab_evolves
    | with_reducible apply routedIn_evolves
    | with_reducible apply State.Evolves.ite

theorem execNoticeFull_evolves {x0 : LinkId} {x1 : BitVec 640} : Evolving s (execNoticeFull x0 x1 s) := by
  unfold execNoticeFull
  have h := State.Evolves.refl s
  repeat' first
    | with_reducible assumption
    | with_reducible apply Evolving.next
    | with_reducible apply settleFab_evolves
    | with_reducible apply routedIn_evolves
    | with_reducible apply State.Evolves.ite

theorem execOpen_evolves {x0 : PortId} : Evolving s (execOpen x0 s) := by
  unfold execOpen
  have h := State.Evolves.refl s
  repeat' first
    | with_reducible assumption
    | with_reducible apply Evolving.next
    | with_reducible apply rteCtrl_evolves
    | with_reducible apply openShade_evolves

theorem execRefuse_evolves {x0 : LinkId} {x1 : BitVec 640} : Evolving s (execRefuse x0 x1 s) := by
  unfold execRefuse
  have h := State.Evolves.refl s
  repeat' first
    | with_reducible assumption
    | with_reducible apply Evolving.next
    | with_reducible apply settleFab_evolves
    | with_reducible apply routedIn_evolves
    | with_reducible apply State.Evolves.ite

theorem execRetire_evolves {x0 : PortId} : Evolving s (execRetire x0 s) := by
  unfold execRetire
  have h := State.Evolves.refl s
  repeat' first
    | with_reducible assumption
    | with_reducible apply Evolving.next
    | with_reducible apply rteCtrl_evolves
    | with_reducible apply retireShade_evolves

theorem execRteCntClr_evolves {x0 : PortId} : Evolving s (execRteCntClr x0 s) := by
  unfold execRteCntClr
  have h := State.Evolves.refl s
  repeat' first
    | with_reducible assumption
    | with_reducible apply Evolving.next
    | with_reducible apply rteCtrl_evolves
    | with_reducible apply rteCntClr_evolves

theorem execSeg_evolves {x0 : LinkId} {x1 : Fec} {x2 : BitVec 640} : Evolving s (execSeg x0 x1 x2 s) := by
  unfold execSeg
  have h := State.Evolves.refl s
  repeat' first
    | with_reducible assumption
    | with_reducible apply Evolving.next
    | with_reducible apply settleFab_evolves
    | with_reducible apply routedIn_evolves
    | with_reducible apply fecCount_evolves
    | with_reducible apply State.Evolves.ite

theorem execSegAdd_evolves {x0 : BitVec 16} {x1 : Nat} {x2 : BitVec 10} : Evolving s (execSegAdd x0 x1 x2 s) := by
  unfold execSegAdd
  have h := State.Evolves.refl s
  repeat' first
    | with_reducible assumption
    | (intro _)
    | with_reducible apply Evolving.next
    | with_reducible apply serveSegment_evolves
    | with_reducible apply finalGrant_evolves
    | with_reducible apply applyAdd_evolves

theorem execSegMirror_evolves {x0 : BitVec 16} {x1 : Nat} {x2 : BitVec 10} : Evolving s (execSegMirror x0 x1 x2 s) := by
  unfold execSegMirror
  have h := State.Evolves.refl s
  repeat' first
    | with_reducible assumption
    | (intro _)
    | with_reducible apply Evolving.next
    | with_reducible apply settleFab_evolves
    | with_reducible apply dropReasm_evolves
    | with_reducible apply deliverOnce_evolves
    | with_reducible apply finalGrant_evolves
    | with_reducible apply writeServed_evolves
    | with_reducible apply event_evolves
    | with_reducible apply State.set_evolves
    | with_reducible apply refuseSeg_evolves
    | extract_lets
    | split

theorem execSegRdata_evolves {x0 : BitVec 16} {x1 : Nat} {x2 : BitVec 10} : Evolving s (execSegRdata x0 x1 x2 s) := by
  unfold execSegRdata
  have h := State.Evolves.refl s
  repeat' first
    | with_reducible assumption
    | (intro _)
    | with_reducible apply Evolving.next
    | with_reducible apply settleFab_evolves
    | with_reducible apply dropReasm_evolves
    | with_reducible apply deliverOnce_evolves
    | with_reducible apply finalGrant_evolves
    | with_reducible apply flumePart_evolves
    | with_reducible apply finishSend_evolves
    | split

theorem execSegRead_evolves {x0 : BitVec 16} {x1 : Nat} {x2 : BitVec 10} : Evolving s (execSegRead x0 x1 x2 s) := by
  unfold execSegRead
  have h := State.Evolves.refl s
  repeat' first
    | with_reducible assumption
    | (intro _)
    | with_reducible apply Evolving.next
    | with_reducible apply serveSegment_evolves
    | with_reducible apply answerRead_evolves

theorem execSegWrite_evolves {x0 : BitVec 16} {x1 : Nat} {x2 : BitVec 10} : Evolving s (execSegWrite x0 x1 x2 s) := by
  unfold execSegWrite
  have h := State.Evolves.refl s
  repeat' first
    | with_reducible assumption
    | (intro _)
    | with_reducible apply Evolving.next
    | with_reducible apply serveSegment_evolves
    | with_reducible apply finalGrant_evolves
    | with_reducible apply writeServed_evolves

theorem execSegf_evolves {x0 : LinkId} {x1 : Fec} {x2 : BitVec 640} : Evolving s (execSegf x0 x1 x2 s) := by
  unfold execSegf
  have h := State.Evolves.refl s
  repeat' first
    | with_reducible assumption
    | with_reducible apply Evolving.next
    | with_reducible apply settleFab_evolves
    | with_reducible apply routedIn_evolves
    | with_reducible apply fecCount_evolves
    | with_reducible apply State.Evolves.ite

theorem execSignal_evolves {x0 : LinkId} {x1 : BitVec 640} : Evolving s (execSignal x0 x1 s) := by
  unfold execSignal
  have h := State.Evolves.refl s
  repeat' first
    | with_reducible assumption
    | with_reducible apply Evolving.next
    | with_reducible apply settleFab_evolves
    | with_reducible apply routedIn_evolves
    | with_reducible apply State.Evolves.ite

theorem execStamp_evolves {x0 : PortId} {x1 : Bool} : Evolving s (execStamp x0 x1 s) := by
  unfold execStamp
  have h := State.Evolves.refl s
  repeat' first
    | with_reducible assumption
    | (intro _)
    | with_reducible apply Evolving.next
    | with_reducible apply rteCtrl_evolves
    | with_reducible apply stampShade_evolves

theorem execTransportGiveUp_evolves {x0 : BitVec 16} {x1 : Nat} {x2 : BitVec 10} : Evolving s (execTransportGiveUp x0 x1 x2 s) := by
  unfold execTransportGiveUp
  have h := State.Evolves.refl s
  repeat' first
    | with_reducible assumption
    | with_reducible apply Evolving.next
    | with_reducible apply settleFab_evolves
    | with_reducible apply finishSend_evolves
    | with_reducible apply eventD_evolves
    | with_reducible apply State.inc_evolves
    | split

theorem execTransportResend_evolves {x0 : BitVec 16} {x1 : Nat} {x2 : BitVec 10} : Evolving s (execTransportResend x0 x1 x2 s) := by
  unfold execTransportResend
  have h := State.Evolves.refl s
  repeat' first
    | with_reducible assumption
    | with_reducible apply Evolving.next
    | with_reducible apply settleFab_evolves
    | with_reducible apply resend_evolves
    | split

theorem execFcopy_evolves {x0 : TileId} {x1 : Fin 2} : Evolving s (execFcopy x0 x1 s) := by
  unfold execFcopy
  have h := State.Evolves.refl s
  repeat' first
    | with_reducible assumption
    | (intro _)
    | with_reducible apply Evolving.next
    | with_reducible apply showEngine_evolves
    | with_reducible apply runHead_evolves
    | with_reducible apply flumeCopy_evolves
    | with_reducible apply State.Evolves.ite

theorem execFlmCntClr_evolves {x0 : PortId} {x1 : TileId} {x2 : Fin 2} : Evolving s (execFlmCntClr x0 x1 x2 s) := by
  unfold execFlmCntClr
  have h := State.Evolves.refl s
  repeat' first
    | with_reducible assumption
    | (intro _)
    | with_reducible apply Evolving.next
    | with_reducible apply ownerWrite_evolves
    | with_reducible apply State.wr_evolves

theorem execFlumeParityFault_evolves {x0 : TileId} {x1 : Fin 2} {x2 : Nat} : Evolving s (execFlumeParityFault x0 x1 x2 s) := by
  unfold execFlumeParityFault
  have h := State.Evolves.refl s
  repeat' first
    | with_reducible assumption
    | (intro _)
    | with_reducible apply Evolving.next
    | with_reducible apply forAll_evolves
    | with_reducible apply restoreLine_evolves
    | with_reducible apply poisonLines_evolves
    | with_reducible apply State.tick_evolves
    | with_reducible apply State.wr_evolves
    | with_reducible apply dropSends_evolves
    | with_reducible apply State.setFab_evolves
    | with_reducible apply mapIssued_evolves
    | with_reducible apply showEngine_evolves
    | with_reducible apply freezeQueue_evolves
    | with_reducible apply event_evolves
    | with_reducible apply markAbort_evolves
    | with_reducible apply State.Evolves.ite
    | (dsimp +zetaDelta only; split)
    | with_reducible apply flumeTintOpen_evolves
    | with_reducible apply flumeUndo_evolves
    | (fail_if_no_progress with_reducible apply State.Evolves.keep)
    | extract_lets
    | split

theorem execFmirsync_evolves {x0 : TileId} {x1 : Fin 2} : Evolving s (execFmirsync x0 x1 s) := by
  unfold execFmirsync
  have h := State.Evolves.refl s
  repeat' first
    | with_reducible assumption
    | (intro _)
    | with_reducible apply Evolving.next
    | with_reducible apply showEngine_evolves
    | with_reducible apply runHead_evolves
    | with_reducible apply flumeMirsync_evolves

theorem execFmove_evolves {x0 : TileId} {x1 : Fin 2} : Evolving s (execFmove x0 x1 s) := by
  unfold execFmove
  have h := State.Evolves.refl s
  repeat' first
    | with_reducible assumption
    | (intro _)
    | with_reducible apply Evolving.next
    | with_reducible apply showEngine_evolves
    | with_reducible apply runHead_evolves
    | with_reducible apply flumeCopy_evolves
    | with_reducible apply State.Evolves.ite

theorem execFtint_evolves {x0 : TileId} {x1 : Fin 2} : Evolving s (execFtint x0 x1 s) := by
  unfold execFtint
  have h := State.Evolves.refl s
  repeat' first
    | with_reducible assumption
    | (intro _)
    | with_reducible apply Evolving.next
    | with_reducible apply showEngine_evolves
    | with_reducible apply runHead_evolves
    | with_reducible apply flumeTint_evolves

theorem execBar4Access_evolves {x0 : PortId} {x1 : BitVec 42} {x2 : Bool} {x3 : Nat} {x4 : List (BitVec 8)} {x5 : Bool} : Evolving s (execBar4Access x0 x1 x2 x3 x4 x5 s) := by
  unfold execBar4Access
  have h := State.Evolves.refl s
  repeat' first
    | with_reducible assumption
    | (intro _)
    | with_reducible apply Evolving.next
    | with_reducible apply hostWrite_evolves
    | with_reducible apply bar4Write_evolves
    | with_reducible apply bar4Read_evolves
    | with_reducible apply State.emit_evolves
    | with_reducible apply State.Evolves.ite

theorem execCompletionTimeout_evolves {x0 : PortId} {x1 : Nat} : Evolving s (execCompletionTimeout x0 x1 s) := by
  unfold execCompletionTimeout
  have h := State.Evolves.refl s
  repeat' first
    | with_reducible assumption
    | with_reducible apply Evolving.next
    | with_reducible apply settleFab_evolves
    | with_reducible apply hostReadFails_evolves
    | with_reducible apply event_evolves
    | with_reducible apply State.Evolves.ite

theorem execConfigurationRequest_evolves {x0 : PortId} {x1 : ConfigWrite} : Evolving s (execConfigurationRequest x0 x1 s) := by
  unfold execConfigurationRequest
  have h := State.Evolves.refl s
  repeat' first
    | with_reducible assumption
    | with_reducible apply Evolving.next
    | with_reducible apply configWrite_evolves
    | with_reducible apply State.Evolves.ite

theorem execDbl_evolves {x0 : PortId} {x1 : SetId} {x2 : Fin 512} {x3 : BitVec 32} : Evolving s (execDbl x0 x1 x2 x3 s) := by
  unfold execDbl
  have h := State.Evolves.refl s
  repeat' first
    | with_reducible assumption
    | (intro _)
    | with_reducible apply Evolving.next
    | with_reducible apply hostWrite_evolves
    | with_reducible apply addFlag_evolves
    | with_reducible apply wakeSet_evolves
    | with_reducible apply accessSet_evolves

theorem execDmaCfgEn_evolves {x0 : PortId} {x1 : PortId} {x2 : Fin 16} {x3 : BitVec 32} : Evolving s (execDmaCfgEn x0 x1 x2 x3 s) := by
  unfold execDmaCfgEn
  have h := State.Evolves.refl s
  repeat' first
    | with_reducible assumption
    | (intro _)
    | with_reducible apply Evolving.next
    | with_reducible apply ownerWrite_evolves
    | with_reducible apply dmaCfgWrite_evolves

theorem execDmaDescriptorComplete_evolves {x0 : PortId} {x1 : Fin 16} : Evolving s (execDmaDescriptorComplete x0 x1 s) := by
  unfold execDmaDescriptorComplete
  have h := State.Evolves.refl s
  repeat' first
    | with_reducible assumption
    | with_reducible apply Evolving.next
    | with_reducible apply dmaComplete_evolves
    | split

theorem execDmaProd_evolves {x0 : PortId} {x1 : PortId} {x2 : Fin 16} {x3 : BitVec 16} : Evolving s (execDmaProd x0 x1 x2 x3 s) := by
  unfold execDmaProd
  have h := State.Evolves.refl s
  repeat' first
    | with_reducible assumption
    | (intro _)
    | with_reducible apply Evolving.next
    | with_reducible apply ownerWrite_evolves
    | with_reducible apply dmaProdWrite_evolves

theorem execFunctionLevelReset_evolves {x0 : PortId} : Evolving s (execFunctionLevelReset x0 s) := by
  unfold execFunctionLevelReset
  have h := State.Evolves.refl s
  repeat' first
    | with_reducible assumption
    | with_reducible apply Evolving.next
    | with_reducible apply portReset_evolves
    | with_reducible apply State.Evolves.ite

theorem execHostPortLinkUp_evolves {x0 : PortId} : Evolving s (execHostPortLinkUp x0 s) := by
  unfold execHostPortLinkUp
  have h := State.Evolves.refl s
  repeat' first
    | with_reducible assumption
    | with_reducible apply Evolving.next
    | with_reducible apply dmaKickAll_evolves
    | with_reducible apply State.set_evolves
    | with_reducible apply State.Evolves.ite

theorem execHostReadCompletion_evolves {x0 : PortId} {x1 : Nat} {x2 : Bool} {x3 : List (BitVec 8)} {x4 : Bool} : Evolving s (execHostReadCompletion x0 x1 x2 x3 x4 s) := by
  unfold execHostReadCompletion
  have h := State.Evolves.refl s
  repeat' first
    | with_reducible assumption
    | with_reducible apply Evolving.next
    | with_reducible apply settleFab_evolves
    | with_reducible apply hostReadFails_evolves
    | with_reducible apply hostReadArrives_evolves
    | with_reducible apply event_evolves
    | with_reducible apply State.Evolves.ite

theorem execHstClaim_evolves {x0 : PortId} : Evolving s (execHstClaim x0 s) := by
  unfold execHstClaim
  have h := State.Evolves.refl s
  repeat' first
    | with_reducible assumption
    | with_reducible apply Evolving.next
    | with_reducible apply ownReply_evolves
    | with_reducible apply changeOwner_evolves
    | with_reducible apply State.Evolves.ite
    | with_reducible apply claimRead_evolves

theorem execHstFwatchArm_evolves {x0 : PortId} {x1 : Fin 1984} {x2 : BitVec 64} : Evolving s (execHstFwatchArm x0 x1 x2 s) := by
  unfold execHstFwatchArm
  have h := State.Evolves.refl s
  repeat' first
    | with_reducible assumption
    | (intro _)
    | with_reducible apply Evolving.next
    | with_reducible apply hostWrite_evolves
    | with_reducible apply fwatchWrite_evolves

theorem execHstPortthaw_evolves {x0 : PortId} : Evolving s (execHstPortthaw x0 s) := by
  unfold execHstPortthaw
  have h := State.Evolves.refl s
  repeat' first
    | with_reducible assumption
    | with_reducible apply Evolving.next
    | with_reducible apply readReply_evolves
    | with_reducible apply releaseFreeze_evolves
    | with_reducible apply State.Evolves.ite
    | with_reducible apply thawRead_evolves

theorem execHstPostrecRead_evolves {x0 : PortId} {x1 : PortId} : Evolving s (execHstPostrecRead x0 x1 s) := by
  unfold execHstPostrecRead
  have h := State.Evolves.refl s
  repeat' first
    | with_reducible assumption
    | with_reducible apply Evolving.next
    | with_reducible apply readClear_evolves

theorem execHstRelease_evolves {x0 : PortId} : Evolving s (execHstRelease x0 s) := by
  unfold execHstRelease
  have h := State.Evolves.refl s
  repeat' first
    | with_reducible assumption
    | with_reducible apply Evolving.next
    | with_reducible apply ownReply_evolves
    | with_reducible apply changeOwner_evolves
    | with_reducible apply State.Evolves.ite
    | with_reducible apply releaseRead_evolves

theorem execHstSeize_evolves {x0 : PortId} : Evolving s (execHstSeize x0 s) := by
  unfold execHstSeize
  have h := State.Evolves.refl s
  repeat' first
    | with_reducible assumption
    | with_reducible apply Evolving.next
    | with_reducible apply ownReply_evolves
    | with_reducible apply changeOwner_evolves
    | with_reducible apply State.Evolves.ite
    | with_reducible apply seizeRead_evolves

theorem execHstViolrecRead_evolves {x0 : PortId} {x1 : PortId} : Evolving s (execHstViolrecRead x0 x1 s) := by
  unfold execHstViolrecRead
  have h := State.Evolves.refl s
  repeat' first
    | with_reducible assumption
    | with_reducible apply Evolving.next
    | with_reducible apply readReply_evolves
    | with_reducible apply State.setPort_evolves
    | with_reducible apply State.Evolves.ite
    | with_reducible apply violSeen_evolves

theorem execMbxCons_evolves {x0 : PortId} {x1 : Fin 48} {x2 : BitVec 16} : Evolving s (execMbxCons x0 x1 x2 s) := by
  unfold execMbxCons
  have h := State.Evolves.refl s
  repeat' first
    | with_reducible assumption
    | with_reducible apply Evolving.next
    | with_reducible apply consWrite_evolves

theorem execMbxPost_evolves {x0 : PortId} {x1 : Fin 8} : Evolving s (execMbxPost x0 x1 s) := by
  unfold execMbxPost
  have h := State.Evolves.refl s
  repeat' first
    | with_reducible assumption
    | with_reducible apply Evolving.next
    | with_reducible apply hostPost_evolves
    | with_reducible apply readReply_evolves
    | with_reducible apply State.Evolves.ite

theorem execMbxclr_evolves {x0 : PortId} : Evolving s (execMbxclr x0 s) := by
  unfold execMbxclr
  have h := State.Evolves.refl s
  repeat' first
    | with_reducible assumption
    | (intro _)
    | with_reducible apply Evolving.next
    | with_reducible apply hostWrite_evolves
    | with_reducible apply settleFab_evolves
    | with_reducible apply clearMailboxes_evolves

theorem execMgtRepdropRead_evolves {x0 : PortId} : Evolving s (execMgtRepdropRead x0 s) := by
  unfold execMgtRepdropRead
  have h := State.Evolves.refl s
  repeat' first
    | with_reducible assumption
    | with_reducible apply Evolving.next
    | with_reducible apply State.wr_evolves
    | with_reducible apply readReply_evolves
    | with_reducible apply State.Evolves.ite

theorem execPerst_evolves {x0 : PortId} : Evolving s (execPerst x0 s) := by
  unfold execPerst
  have h := State.Evolves.refl s
  repeat' first
    | with_reducible assumption
    | with_reducible apply Evolving.next
    | with_reducible apply portReset_evolves
    | with_reducible apply State.set_evolves
    | with_reducible apply State.setPort_evolves
    | with_reducible apply State.Evolves.ite

theorem execPerstDeassertion_evolves {x0 : PortId} : Evolving s (execPerstDeassertion x0 s) := by
  unfold execPerstDeassertion
  have h := State.Evolves.refl s
  repeat' first
    | with_reducible assumption
    | with_reducible apply Evolving.next
    | with_reducible apply State.setPort_evolves

theorem execPostwaitExpiry_evolves {x0 : PortId} {x1 : Fin 8} : Evolving s (execPostwaitExpiry x0 x1 s) := by
  unfold execPostwaitExpiry
  have h := State.Evolves.refl s
  repeat' first
    | with_reducible assumption
    | with_reducible apply Evolving.next
    | with_reducible apply State.setPort_evolves
    | with_reducible apply State.set_evolves
    | with_reducible apply readReply_evolves
    | with_reducible apply State.Evolves.ite

theorem execQuePostrecRead_evolves {x0 : PortId} {x1 : QId} : Evolving s (execQuePostrecRead x0 x1 s) := by
  unfold execQuePostrecRead
  have h := State.Evolves.refl s
  repeat' first
    | with_reducible assumption
    | with_reducible apply Evolving.next
    | with_reducible apply readClear_evolves
    | with_reducible apply wakeByAccess_evolves
    | with_reducible apply readReply_evolves
    | with_reducible apply State.Evolves.ite

theorem execSurpriseRemoval_evolves {x0 : PortId} : Evolving s (execSurpriseRemoval x0 s) := by
  unfold execSurpriseRemoval
  have h := State.Evolves.refl s
  repeat' first
    | with_reducible assumption
    | with_reducible apply Evolving.next
    | with_reducible apply portReset_evolves
    | with_reducible apply State.set_evolves
    | with_reducible apply State.Evolves.ite

theorem execBypass_evolves  : Evolving s (execBypass s) := by
  unfold execBypass
  have h := State.Evolves.refl s
  repeat' first
    | with_reducible assumption
    | with_reducible apply Evolving.next
    | with_reducible apply tapBypass_evolves

theorem execExtest_evolves  : Evolving s (execExtest s) := by
  unfold execExtest
  have h := State.Evolves.refl s
  repeat' first
    | with_reducible assumption
    | with_reducible apply Evolving.next
    | with_reducible apply tapDrive_evolves

theorem execExtestPulse_evolves  : Evolving s (execExtestPulse s) := by
  unfold execExtestPulse
  have h := State.Evolves.refl s
  repeat' first
    | with_reducible assumption
    | with_reducible apply Evolving.next
    | with_reducible apply tapDrive_evolves

theorem execExtestTrain_evolves  : Evolving s (execExtestTrain s) := by
  unfold execExtestTrain
  have h := State.Evolves.refl s
  repeat' first
    | with_reducible assumption
    | with_reducible apply Evolving.next
    | with_reducible apply tapDrive_evolves

theorem execIdcode_evolves  : Evolving s (execIdcode s) := by
  unfold execIdcode
  have h := State.Evolves.refl s
  repeat' first
    | with_reducible assumption
    | with_reducible apply Evolving.next
    | with_reducible apply tapPut_evolves

theorem execSamplePreload_evolves {x0 : BitVec 64} : Evolving s (execSamplePreload x0 s) := by
  unfold execSamplePreload
  have h := State.Evolves.refl s
  repeat' first
    | with_reducible assumption
    | with_reducible apply Evolving.next
    | with_reducible apply tapPut_evolves
    | with_reducible apply State.Evolves.ite
    | (fail_if_no_progress with_reducible apply State.Evolves.keep)

theorem execAbsentRetry_evolves {x0 : LinkId} : Evolving s (execAbsentRetry x0 s) := by
  unfold execAbsentRetry
  have h := State.Evolves.refl s
  repeat' first
    | with_reducible assumption
    | with_reducible apply Evolving.next
    | with_reducible apply startTraining_evolves
    | with_reducible apply State.Evolves.ite

theorem execArm_evolves {x0 : PortId} : Evolving s (execArm x0 s) := by
  unfold execArm
  have h := State.Evolves.refl s
  repeat' first
    | with_reducible assumption
    | with_reducible apply Evolving.next
    | with_reducible apply planCtlBit_evolves

theorem execCellSend_evolves {x0 : LinkId} : Evolving s (execCellSend x0 s) := by
  unfold execCellSend
  have h := State.Evolves.refl s
  repeat' first
    | with_reducible assumption
    | with_reducible apply Evolving.next
    | with_reducible apply settleFab_evolves
    | with_reducible apply cellSlot_evolves

theorem execCheck_evolves {x0 : PortId} : Evolving s (execCheck x0 s) := by
  unfold execCheck
  have h := State.Evolves.refl s
  repeat' first
    | with_reducible assumption
    | with_reducible apply Evolving.next
    | with_reducible apply planCtlBit_evolves

theorem execDisarm_evolves {x0 : PortId} : Evolving s (execDisarm x0 s) := by
  unfold execDisarm
  have h := State.Evolves.refl s
  repeat' first
    | with_reducible assumption
    | with_reducible apply Evolving.next
    | with_reducible apply planCtlBit_evolves

theorem execDiscardedCell_evolves {x0 : LinkId} {x1 : BitVec 640} {x2 : Bool} : Evolving s (execDiscardedCell x0 x1 x2 s) := by
  unfold execDiscardedCell
  have h := State.Evolves.refl s
  repeat' first
    | with_reducible assumption
    | with_reducible apply Evolving.next
    | with_reducible apply settleFab_evolves
    | with_reducible apply discardCell_evolves
    | with_reducible apply receive_evolves
    | with_reducible apply State.Evolves.ite

theorem execFailedHoldExpiry_evolves {x0 : LinkId} : Evolving s (execFailedHoldExpiry x0 s) := by
  unfold execFailedHoldExpiry
  have h := State.Evolves.refl s
  repeat' first
    | with_reducible assumption
    | with_reducible apply Evolving.next
    | with_reducible apply startTraining_evolves
    | with_reducible apply State.Evolves.ite

theorem execGlbCoordWrite_evolves {x0 : PortId} {x1 : BitVec 32} : Evolving s (execGlbCoordWrite x0 x1 s) := by
  unfold execGlbCoordWrite
  have h := State.Evolves.refl s
  repeat' first
    | with_reducible assumption
    | (intro _)
    | with_reducible apply Evolving.next
    | with_reducible apply settleFab_evolves
    | with_reducible apply ownerWrite_evolves
    | with_reducible apply coordWrite_evolves

theorem execHello_evolves {x0 : LinkId} {x1 : BitVec 640} : Evolving s (execHello x0 x1 s) := by
  unfold execHello
  have h := State.Evolves.refl s
  repeat' first
    | with_reducible assumption
    | with_reducible apply Evolving.next
    | with_reducible apply settleFab_evolves
    | with_reducible apply receive_evolves
    | with_reducible apply helloArrives_evolves
    | with_reducible apply State.Evolves.ite

theorem execHelloSend_evolves {x0 : LinkId} : Evolving s (execHelloSend x0 s) := by
  unfold execHelloSend
  have h := State.Evolves.refl s
  repeat' first
    | with_reducible assumption
    | with_reducible apply Evolving.next
    | with_reducible apply sendLocal_evolves
    | with_reducible apply State.setLink_evolves
    | with_reducible apply State.Evolves.ite

theorem execHelloTimeout_evolves {x0 : LinkId} : Evolving s (execHelloTimeout x0 s) := by
  unfold execHelloTimeout
  have h := State.Evolves.refl s
  repeat' first
    | with_reducible assumption
    | with_reducible apply Evolving.next
    | with_reducible apply becomeAbsent_evolves
    | with_reducible apply State.Evolves.ite

theorem execIdle_evolves {x0 : LinkId} {x1 : Fec} {x2 : BitVec 640} : Evolving s (execIdle x0 x1 x2 s) := by
  unfold execIdle
  have h := State.Evolves.refl s
  repeat' first
    | with_reducible assumption
    | with_reducible apply Evolving.next
    | with_reducible apply settleFab_evolves
    | with_reducible apply receive_evolves
    | with_reducible apply fecCount_evolves
    | with_reducible apply State.Evolves.ite

theorem execLink_evolves {x0 : LinkId} {x1 : BitVec 640} : Evolving s (execLink x0 x1 s) := by
  unfold execLink
  have h := State.Evolves.refl s
  repeat' first
    | with_reducible assumption
    | with_reducible apply Evolving.next
    | with_reducible apply settleFab_evolves
    | with_reducible apply receive_evolves
    | with_reducible apply replay_evolves
    | with_reducible apply applyAck_evolves
    | with_reducible apply State.Evolves.ite

theorem execLinkEn_evolves {x0 : PortId} {x1 : LinkId} {x2 : Bool} : Evolving s (execLinkEn x0 x1 x2 s) := by
  unfold execLinkEn
  have h := State.Evolves.refl s
  repeat' first
    | with_reducible assumption
    | with_reducible apply Evolving.next
    | with_reducible apply lnkCtrlBit_evolves

theorem execLinkTrained_evolves {x0 : LinkId} : Evolving s (execLinkTrained x0 s) := by
  unfold execLinkTrained
  have h := State.Evolves.refl s
  repeat' first
    | with_reducible assumption
    | with_reducible apply Evolving.next
    | with_reducible apply settleFab_evolves
    | with_reducible apply evaluate_evolves
    | with_reducible apply State.set_evolves
    | with_reducible apply setLinkState_evolves
    | with_reducible apply State.Evolves.ite

theorem execLnkCntClr_evolves {x0 : PortId} {x1 : LinkId} : Evolving s (execLnkCntClr x0 x1 s) := by
  unfold execLnkCntClr
  have h := State.Evolves.refl s
  repeat' first
    | with_reducible assumption
    | with_reducible apply Evolving.next
    | with_reducible apply lnkCtrlBit_evolves

theorem execLnkPlanWrite_evolves {x0 : PortId} {x1 : LinkId} {x2 : BitVec 64} : Evolving s (execLnkPlanWrite x0 x1 x2 s) := by
  unfold execLnkPlanWrite
  have h := State.Evolves.refl s
  repeat' first
    | with_reducible assumption
    | (intro _)
    | with_reducible apply Evolving.next
    | with_reducible apply settleFab_evolves
    | with_reducible apply ownerWrite_evolves
    | with_reducible apply planEntryWrite_evolves

theorem execLnkTest_evolves {x0 : PortId} {x1 : LinkId} {x2 : BitVec 32} {x3 : Nat} : Evolving s (execLnkTest x0 x1 x2 x3 s) := by
  unfold execLnkTest
  have h := State.Evolves.refl s
  repeat' first
    | with_reducible assumption
    | (intro _)
    | with_reducible apply Evolving.next
    | with_reducible apply ownerWrite_evolves
    | with_reducible apply lnkTestWrite_evolves
    | with_reducible apply State.inc_evolves
    | with_reducible apply State.Evolves.ite

theorem execLockLost_evolves {x0 : LinkId} : Evolving s (execLockLost x0 s) := by
  unfold execLockLost
  have h := State.Evolves.refl s
  repeat' first
    | with_reducible assumption
    | with_reducible apply Evolving.next
    | with_reducible apply settleFab_evolves
    | with_reducible apply failLink_evolves
    | with_reducible apply startTraining_evolves
    | with_reducible apply State.Evolves.ite

theorem execLpm_evolves {x0 : PortId} {x1 : LinkId} {x2 : Bool} : Evolving s (execLpm x0 x1 x2 s) := by
  unfold execLpm
  have h := State.Evolves.refl s
  repeat' first
    | with_reducible assumption
    | with_reducible apply Evolving.next
    | with_reducible apply lnkCtrlBit_evolves

theorem execPark_evolves {x0 : PortId} {x1 : LinkId} {x2 : Bool} : Evolving s (execPark x0 x1 x2 s) := by
  unfold execPark
  have h := State.Evolves.refl s
  repeat' first
    | with_reducible assumption
    | with_reducible apply Evolving.next
    | with_reducible apply lnkCtrlBit_evolves

theorem execPrtProtoWrite_evolves {x0 : PortId} {x1 : BitVec 32} : Evolving s (execPrtProtoWrite x0 x1 s) := by
  unfold execPrtProtoWrite
  have h := State.Evolves.refl s
  repeat' first
    | with_reducible assumption
    | (intro _)
    | with_reducible apply Evolving.next
    | with_reducible apply settleFab_evolves
    | with_reducible apply ownerWrite_evolves
    | with_reducible apply protoWrite_evolves

theorem execReplayTimeout_evolves {x0 : LinkId} : Evolving s (execReplayTimeout x0 s) := by
  unfold execReplayTimeout
  have h := State.Evolves.refl s
  repeat' first
    | with_reducible assumption
    | with_reducible apply Evolving.next
    | with_reducible apply settleFab_evolves
    | with_reducible apply replay_evolves
    | with_reducible apply State.Evolves.ite

theorem execRetrain_evolves {x0 : PortId} {x1 : LinkId} : Evolving s (execRetrain x0 x1 s) := by
  unfold execRetrain
  have h := State.Evolves.refl s
  repeat' first
    | with_reducible assumption
    | with_reducible apply Evolving.next
    | with_reducible apply lnkCtrlBit_evolves

theorem execRoutingTableWrite_evolves {x0 : PortId} {x1 : Bool} {x2 : Fin 65536} {x3 : BitVec 32} : Evolving s (execRoutingTableWrite x0 x1 x2 x3 s) := by
  unfold execRoutingTableWrite
  have h := State.Evolves.refl s
  repeat' first
    | with_reducible assumption
    | (intro _)
    | with_reducible apply Evolving.next
    | with_reducible apply settleFab_evolves
    | with_reducible apply ownerWrite_evolves
    | with_reducible apply tableWrite_evolves

theorem execTrainingTimeout_evolves {x0 : LinkId} : Evolving s (execTrainingTimeout x0 s) := by
  unfold execTrainingTimeout
  have h := State.Evolves.refl s
  repeat' first
    | with_reducible assumption
    | with_reducible apply Evolving.next
    | with_reducible apply becomeAbsent_evolves
    | with_reducible apply State.Evolves.ite

theorem execGo_evolves {x0 : PortId} {x1 : SetId} {x2 : BitVec 32} : Evolving s (execGo x0 x1 x2 s) := by
  unfold execGo
  have h := State.Evolves.refl s
  repeat' first
    | with_reducible assumption
    | (intro _)
    | with_reducible apply Evolving.next
    | with_reducible apply ownerWrite_evolves
    | with_reducible apply ldCtrl_evolves

theorem execLoadDone_evolves {x0 : SetId} : Evolving s (execLoadDone x0 s) := by
  unfold execLoadDone
  have h := State.Evolves.refl s
  repeat' first
    | with_reducible assumption
    | with_reducible apply Evolving.next
    | with_reducible apply endLoad_evolves
    | with_reducible apply State.Evolves.ite

theorem execParkall_evolves {x0 : PortId} {x1 : SetId} : Evolving s (execParkall x0 x1 s) := by
  unfold execParkall
  have h := State.Evolves.refl s
  repeat' first
    | with_reducible assumption
    | (intro _)
    | with_reducible apply Evolving.next
    | with_reducible apply ownerWrite_evolves
    | with_reducible apply ldCtrl_evolves

theorem execSave_evolves {x0 : PortId} {x1 : SetId} {x2 : BitVec 32} : Evolving s (execSave x0 x1 x2 s) := by
  unfold execSave
  have h := State.Evolves.refl s
  repeat' first
    | with_reducible assumption
    | (intro _)
    | with_reducible apply Evolving.next
    | with_reducible apply ownerWrite_evolves
    | with_reducible apply ldCtrl_evolves

theorem execSaveDone_evolves {x0 : SetId} : Evolving s (execSaveDone x0 s) := by
  unfold execSaveDone
  have h := State.Evolves.refl s
  repeat' first
    | with_reducible assumption
    | with_reducible apply Evolving.next
    | with_reducible apply State.set_evolves
    | with_reducible apply State.write_evolves
    | with_reducible apply State.setLoad_evolves
    | with_reducible apply State.Evolves.ite
    | with_reducible apply writeSaved_evolves
    | extract_lets
    | split

theorem execTilFlagWrite_evolves {x0 : PortId} {x1 : SetId} {x2 : Fin 512} {x3 : BitVec 16} : Evolving s (execTilFlagWrite x0 x1 x2 x3 s) := by
  unfold execTilFlagWrite
  have h := State.Evolves.refl s
  repeat' first
    | with_reducible assumption
    | (intro _)
    | with_reducible apply Evolving.next
    | with_reducible apply ownerWrite_evolves
    | with_reducible apply flagWrite_evolves

theorem execTilFlagadd_evolves {x0 : PortId} {x1 : SetId} {x2 : Fin 512} {x3 : BitVec 8} : Evolving s (execTilFlagadd x0 x1 x2 x3 s) := by
  unfold execTilFlagadd
  have h := State.Evolves.refl s
  repeat' first
    | with_reducible assumption
    | (intro _)
    | with_reducible apply Evolving.next
    | with_reducible apply ownerWrite_evolves
    | with_reducible apply addFlag_evolves

theorem execBallastRampDown_evolves {x0 : TileId} {x1 : Fin 2} : Evolving s (execBallastRampDown x0 x1 s) := by
  unfold execBallastRampDown
  have h := State.Evolves.refl s
  repeat' first
    | with_reducible assumption
    | with_reducible apply Evolving.next
    | with_reducible apply State.setMxe_evolves
    | with_reducible apply State.set_evolves
    | with_reducible apply State.Evolves.ite
    | with_reducible apply rampDown_evolves
    | split

theorem execMatrixParityFault_evolves {x0 : TileId} {x1 : Fin 2} {x2 : Nat} : Evolving s (execMatrixParityFault x0 x1 x2 s) := by
  unfold execMatrixParityFault
  have h := State.Evolves.refl s
  repeat' first
    | with_reducible assumption
    | with_reducible apply Evolving.next
    | with_reducible apply abortCommand_evolves

theorem execMmbi_evolves {x0 : TileId} {x1 : Fin 2} {x2 : Nat} {x3 : Nat} : Evolving s (execMmbi x0 x1 x2 x3 s) := by
  unfold execMmbi
  have h := State.Evolves.refl s
  repeat' first
    | with_reducible assumption
    | (intro _)
    | with_reducible apply Evolving.next
    | with_reducible apply runHead_evolves
    | with_reducible apply matrixIssue_evolves

theorem execMmbw_evolves {x0 : TileId} {x1 : Fin 2} {x2 : Nat} {x3 : Nat} : Evolving s (execMmbw x0 x1 x2 x3 s) := by
  unfold execMmbw
  have h := State.Evolves.refl s
  repeat' first
    | with_reducible assumption
    | (intro _)
    | with_reducible apply Evolving.next
    | with_reducible apply runHead_evolves
    | with_reducible apply matrixIssue_evolves

theorem execMmf_evolves {x0 : TileId} {x1 : Fin 2} {x2 : Nat} {x3 : Nat} : Evolving s (execMmf x0 x1 x2 x3 s) := by
  unfold execMmf
  have h := State.Evolves.refl s
  repeat' first
    | with_reducible assumption
    | (intro _)
    | with_reducible apply Evolving.next
    | with_reducible apply runHead_evolves
    | with_reducible apply matrixIssue_evolves

theorem execMxeCntClr_evolves {x0 : PortId} {x1 : TileId} {x2 : Fin 2} : Evolving s (execMxeCntClr x0 x1 x2 s) := by
  unfold execMxeCntClr
  have h := State.Evolves.refl s
  repeat' first
    | with_reducible assumption
    | (intro _)
    | with_reducible apply Evolving.next
    | with_reducible apply ownerWrite_evolves
    | with_reducible apply State.wr_evolves

theorem execActivatefirmware_evolves {x0 : Binding} : Evolving s (execActivatefirmware x0 s) := by
  unfold execActivatefirmware
  have h := State.Evolves.refl s
  repeat' first
    | with_reducible assumption
    | (intro _)
    | with_reducible apply Evolving.next
    | with_reducible apply pldmAnswer_evolves
    | split

theorem execChallenge_evolves {x0 : Binding} {x1 : List (BitVec 8)} : Evolving s (execChallenge x0 x1 s) := by
  unfold execChallenge
  have h := State.Evolves.refl s
  repeat' first
    | with_reducible assumption
    | with_reducible apply Evolving.next
    | with_reducible apply State.tick_evolves
    | with_reducible apply spdmAnswer_evolves

theorem execGetCapabilities_evolves {x0 : Binding} {x1 : List (BitVec 8)} : Evolving s (execGetCapabilities x0 x1 s) := by
  unfold execGetCapabilities
  have h := State.Evolves.refl s
  repeat' first
    | with_reducible assumption
    | with_reducible apply Evolving.next
    | with_reducible apply spdmAnswer_evolves

theorem execGetCertificate_evolves {x0 : Binding} {x1 : List (BitVec 8)} : Evolving s (execGetCertificate x0 x1 s) := by
  unfold execGetCertificate
  have h := State.Evolves.refl s
  repeat' first
    | with_reducible assumption
    | with_reducible apply Evolving.next
    | with_reducible apply spdmAnswer_evolves

theorem execGetDigests_evolves {x0 : Binding} {x1 : List (BitVec 8)} : Evolving s (execGetDigests x0 x1 s) := by
  unfold execGetDigests
  have h := State.Evolves.refl s
  repeat' first
    | with_reducible assumption
    | with_reducible apply Evolving.next
    | with_reducible apply spdmAnswer_evolves

theorem execGetMeasurements_evolves {x0 : Binding} {x1 : List (BitVec 8)} : Evolving s (execGetMeasurements x0 x1 s) := by
  unfold execGetMeasurements
  have h := State.Evolves.refl s
  repeat' first
    | with_reducible assumption
    | with_reducible apply Evolving.next
    | with_reducible apply State.tick_evolves
    | with_reducible apply spdmAnswer_evolves

theorem execGetVersion_evolves {x0 : Binding} {x1 : List (BitVec 8)} : Evolving s (execGetVersion x0 x1 s) := by
  unfold execGetVersion
  have h := State.Evolves.refl s
  repeat' first
    | with_reducible assumption
    | with_reducible apply Evolving.next
    | with_reducible apply spdmAnswer_evolves

theorem execGetpldmcommands_evolves {x0 : Binding} {x1 : BitVec 8} : Evolving s (execGetpldmcommands x0 x1 s) := by
  unfold execGetpldmcommands
  have h := State.Evolves.refl s
  repeat' first
    | with_reducible assumption
    | (intro _)
    | with_reducible apply Evolving.next
    | with_reducible apply pldmAnswer_evolves
    | split

theorem execGetpldmtypes_evolves {x0 : Binding} : Evolving s (execGetpldmtypes x0 s) := by
  unfold execGetpldmtypes
  have h := State.Evolves.refl s
  repeat' first
    | with_reducible assumption
    | with_reducible apply Evolving.next
    | with_reducible apply pldmData_evolves

theorem execGetpldmversion_evolves {x0 : Binding} {x1 : BitVec 8} : Evolving s (execGetpldmversion x0 x1 s) := by
  unfold execGetpldmversion
  have h := State.Evolves.refl s
  repeat' first
    | with_reducible assumption
    | (intro _)
    | with_reducible apply Evolving.next
    | with_reducible apply pldmAnswer_evolves
    | with_reducible apply spend_evolves
    | split

theorem execGetsensorreading_evolves {x0 : Binding} {x1 : BitVec 16} : Evolving s (execGetsensorreading x0 x1 s) := by
  unfold execGetsensorreading
  have h := State.Evolves.refl s
  repeat' first
    | with_reducible assumption
    | (intro _)
    | with_reducible apply Evolving.next
    | with_reducible apply pldmServed_evolves
    | with_reducible apply sensorAnswer_evolves

theorem execGetstatesensorreadings_evolves {x0 : Binding} {x1 : BitVec 16} : Evolving s (execGetstatesensorreadings x0 x1 s) := by
  unfold execGetstatesensorreadings
  have h := State.Evolves.refl s
  repeat' first
    | with_reducible assumption
    | (intro _)
    | with_reducible apply Evolving.next
    | with_reducible apply pldmServed_evolves
    | with_reducible apply sensorAnswer_evolves

theorem execGettid_evolves {x0 : Binding} : Evolving s (execGettid x0 s) := by
  unfold execGettid
  have h := State.Evolves.refl s
  repeat' first
    | with_reducible assumption
    | with_reducible apply Evolving.next
    | with_reducible apply pldmData_evolves

theorem execMbxCertificates_evolves  : Evolving s (execMbxCertificates s) := by
  unfold execMbxCertificates
  have h := State.Evolves.refl s
  repeat' first
    | with_reducible assumption
    | (intro _)
    | with_reducible apply Evolving.next
    | with_reducible apply settleFab_evolves
    | with_reducible apply serve_evolves
    | with_reducible apply complete_evolves
    | with_reducible apply writeData_evolves
    | with_reducible apply State.Evolves.ite

theorem execMbxMeasurements_evolves  : Evolving s (execMbxMeasurements s) := by
  unfold execMbxMeasurements
  have h := State.Evolves.refl s
  repeat' first
    | with_reducible assumption
    | (intro _)
    | with_reducible apply Evolving.next
    | with_reducible apply settleFab_evolves
    | with_reducible apply serve_evolves
    | with_reducible apply touch_evolves
    | with_reducible apply malformed_evolves
    | with_reducible apply complete_evolves
    | with_reducible apply spend_evolves
    | with_reducible apply writeData_evolves
    | with_reducible apply State.Evolves.ite

theorem execMbxReservedService_evolves {x0 : Fin 11} : Evolving s (execMbxReservedService x0 s) := by
  unfold execMbxReservedService
  have h := State.Evolves.refl s
  repeat' first
    | with_reducible assumption
    | (intro _)
    | with_reducible apply Evolving.next
    | with_reducible apply settleFab_evolves
    | with_reducible apply serve_evolves
    | with_reducible apply malformed_evolves

theorem execMbxTagArea_evolves {x0 : Bool} : Evolving s (execMbxTagArea x0 s) := by
  unfold execMbxTagArea
  have h := State.Evolves.refl s
  repeat' first
    | with_reducible assumption
    | (intro _)
    | with_reducible apply Evolving.next
    | with_reducible apply settleFab_evolves
    | with_reducible apply serve_evolves
    | with_reducible apply touch_evolves
    | with_reducible apply complete_evolves
    | with_reducible apply writeData_evolves
    | with_reducible apply malformed_evolves
    | with_reducible apply tagWrite_evolves
    | with_reducible apply State.Evolves.ite

theorem execMbxTelemetry_evolves  : Evolving s (execMbxTelemetry s) := by
  unfold execMbxTelemetry
  have h := State.Evolves.refl s
  repeat' first
    | with_reducible assumption
    | (intro _)
    | with_reducible apply Evolving.next
    | with_reducible apply settleFab_evolves
    | with_reducible apply serve_evolves
    | with_reducible apply complete_evolves
    | with_reducible apply spend_evolves
    | with_reducible apply writeData_evolves

theorem execMbxUpdate_evolves  : Evolving s (execMbxUpdate s) := by
  unfold execMbxUpdate
  have h := State.Evolves.refl s
  repeat' first
    | with_reducible assumption
    | (intro _)
    | with_reducible apply Evolving.next
    | with_reducible apply settleFab_evolves
    | with_reducible apply serve_evolves
    | with_reducible apply complete_evolves
    | with_reducible apply touch_evolves
    | with_reducible apply updateRejected_evolves
    | with_reducible apply malformed_evolves
    | with_reducible apply showProgress_evolves
    | with_reducible apply State.set_evolves
    | with_reducible apply State.Evolves.ite
    | (fail_if_no_progress with_reducible apply State.Evolves.keep)

theorem execNegotiateAlgorithms_evolves {x0 : Binding} {x1 : List (BitVec 8)} : Evolving s (execNegotiateAlgorithms x0 x1 s) := by
  unfold execNegotiateAlgorithms
  have h := State.Evolves.refl s
  repeat' first
    | with_reducible assumption
    | with_reducible apply Evolving.next
    | with_reducible apply spdmAnswer_evolves

theorem execPdrRepository_evolves {x0 : Binding} {x1 : List (BitVec 8)} : Evolving s (execPdrRepository x0 x1 s) := by
  unfold execPdrRepository
  have h := State.Evolves.refl s
  repeat' first
    | with_reducible assumption
    | (intro _)
    | with_reducible apply Evolving.next
    | with_reducible apply pldmServed_evolves

theorem execPldmFruData_evolves {x0 : Binding} {x1 : Bool} {x2 : List (BitVec 8)} {x3 : Bool} : Evolving s (execPldmFruData x0 x1 x2 x3 s) := by
  unfold execPldmFruData
  have h := State.Evolves.refl s
  repeat' first
    | with_reducible assumption
    | (intro _)
    | with_reducible apply Evolving.next
    | with_reducible apply pldmServed_evolves
    | with_reducible apply tagWrite_evolves
    | split

theorem execPldmInvalidType_evolves {x0 : Binding} {x1 : BitVec 8} : Evolving s (execPldmInvalidType x0 x1 s) := by
  unfold execPldmInvalidType
  have h := State.Evolves.refl s
  repeat' first
    | with_reducible assumption
    | (intro _)
    | with_reducible apply Evolving.next
    | with_reducible apply pldmAnswer_evolves
    | split

theorem execRecoveryUpdateTimeout_evolves  : Evolving s (execRecoveryUpdateTimeout s) := by
  unfold execRecoveryUpdateTimeout
  have h := State.Evolves.refl s
  repeat' first
    | with_reducible assumption
    | with_reducible apply Evolving.next
    | with_reducible apply State.set_evolves
    | (fail_if_no_progress with_reducible apply State.Evolves.keep)
    | split

theorem execReplyRetry_evolves  : Evolving s (execReplyRetry s) := by
  unfold execReplyRetry
  have h := State.Evolves.refl s
  repeat' first
    | with_reducible assumption
    | with_reducible apply Evolving.next
    | with_reducible apply postReply_evolves
    | (fail_if_no_progress with_reducible apply State.Evolves.keep)
    | split

theorem execRequestupdate_evolves {x0 : Binding} {x1 : Nat} : Evolving s (execRequestupdate x0 x1 s) := by
  unfold execRequestupdate
  have h := State.Evolves.refl s
  repeat' first
    | with_reducible assumption
    | (intro _)
    | with_reducible apply Evolving.next
    | with_reducible apply pldmAnswer_evolves
    | with_reducible apply showProgress_evolves
    | with_reducible apply State.set_evolves
    | (fail_if_no_progress with_reducible apply State.Evolves.keep)
    | extract_lets
    | split

theorem execRespondIfReady_evolves {x0 : Binding} {x1 : List (BitVec 8)} : Evolving s (execRespondIfReady x0 x1 s) := by
  unfold execRespondIfReady
  have h := State.Evolves.refl s
  repeat' first
    | with_reducible assumption
    | with_reducible apply Evolving.next
    | with_reducible apply State.emit_evolves
    | (fail_if_no_progress with_reducible apply State.Evolves.keep)
    | split

theorem execSecSvncommit_evolves {x0 : PortId} {x1 : BitVec 8} : Evolving s (execSecSvncommit x0 x1 s) := by
  unfold execSecSvncommit
  have h := State.Evolves.refl s
  repeat' first
    | with_reducible assumption
    | (intro _)
    | with_reducible apply Evolving.next
    | with_reducible apply ownerWrite_evolves
    | with_reducible apply svnCommit_evolves

theorem execSetEndpointId_evolves {x0 : Binding} {x1 : BitVec 8} : Evolving s (execSetEndpointId x0 x1 s) := by
  unfold execSetEndpointId
  have h := State.Evolves.refl s
  repeat' first
    | with_reducible assumption
    | with_reducible apply Evolving.next
    | with_reducible apply State.emit_evolves
    | with_reducible apply State.set_evolves
    | with_reducible apply State.Evolves.ite

theorem execSeteventreceiver_evolves {x0 : Binding} {x1 : BitVec 8} : Evolving s (execSeteventreceiver x0 x1 s) := by
  unfold execSeteventreceiver
  have h := State.Evolves.refl s
  repeat' first
    | with_reducible assumption
    | (intro _)
    | with_reducible apply Evolving.next
    | with_reducible apply pldmServed_evolves
    | (fail_if_no_progress with_reducible apply State.Evolves.keep)

theorem execSettid_evolves {x0 : Binding} {x1 : BitVec 8} : Evolving s (execSettid x0 x1 s) := by
  unfold execSettid
  have h := State.Evolves.refl s
  repeat' first
    | with_reducible assumption
    | (intro _)
    | with_reducible apply Evolving.next
    | with_reducible apply pldmAnswer_evolves
    | (fail_if_no_progress with_reducible apply State.Evolves.keep)

theorem execSpdmUnsupportedRequest_evolves {x0 : Binding} {x1 : List (BitVec 8)} : Evolving s (execSpdmUnsupportedRequest x0 x1 s) := by
  unfold execSpdmUnsupportedRequest
  have h := State.Evolves.refl s
  repeat' first
    | with_reducible assumption
    | with_reducible apply Evolving.next
    | with_reducible apply spdmAnswer_evolves

theorem execSvnFuseDone_evolves  : Evolving s (execSvnFuseDone s) := by
  unfold execSvnFuseDone
  have h := State.Evolves.refl s
  repeat' first
    | with_reducible assumption
    | with_reducible apply Evolving.next
    | with_reducible apply event_evolves
    | with_reducible apply State.set_evolves
    | (fail_if_no_progress with_reducible apply State.Evolves.keep)
    | split

theorem execTelemetrySample_evolves {x0 : Fin 101} {x1 : List (BitVec 32)} : Evolving s (execTelemetrySample x0 x1 s) := by
  unfold execTelemetrySample
  have h := State.Evolves.refl s
  repeat' first
    | with_reducible assumption
    | with_reducible apply Evolving.next
    | with_reducible apply State.set_evolves
    | with_reducible apply takeSample_evolves
    | with_reducible apply State.inc_evolves
    | with_reducible apply event_evolves
    | with_reducible apply State.Evolves.ite
    | (fail_if_no_progress with_reducible apply State.Evolves.keep)

theorem execUpdateFlashDone_evolves {x0 : Bool} : Evolving s (execUpdateFlashDone x0 s) := by
  unfold execUpdateFlashDone
  have h := State.Evolves.refl s
  repeat' first
    | with_reducible assumption
    | with_reducible apply Evolving.next
    | with_reducible apply deviceReset_evolves
    | with_reducible apply State.tick_evolves
    | with_reducible apply spend_evolves
    | with_reducible apply recovery_evolves
    | with_reducible apply updateFailed_evolves
    | with_reducible apply State.set_evolves
    | with_reducible apply State.wr_evolves
    | with_reducible apply settleFab_evolves
    | with_reducible apply answerBlock_evolves
    | with_reducible apply event_evolves
    | with_reducible apply State.Evolves.ite
    | (fail_if_no_progress with_reducible apply State.Evolves.keep)
    | split

theorem execUpdateImageData_evolves {x0 : Nat} {x1 : List (BitVec 8)} : Evolving s (execUpdateImageData x0 x1 s) := by
  unfold execUpdateImageData
  have h := State.Evolves.refl s
  repeat' first
    | with_reducible assumption
    | with_reducible apply Evolving.next
    | with_reducible apply updateRejected_evolves
    | with_reducible apply showProgress_evolves
    | with_reducible apply countUnmirrored_evolves
    | with_reducible apply State.write_evolves
    | with_reducible apply imageWhole_evolves
    | with_reducible apply State.Evolves.ite
    | (fail_if_no_progress with_reducible apply State.Evolves.keep)
    | with_reducible apply coreWrite_evolves
    | extract_lets
    | split

theorem execWatchdogReset_evolves  : Evolving s (execWatchdogReset s) := by
  unfold execWatchdogReset
  have h := State.Evolves.refl s
  repeat' first
    | with_reducible assumption
    | with_reducible apply Evolving.next
    | with_reducible apply State.incSat_evolves
    | with_reducible apply event_evolves
    | with_reducible apply clearMailboxes_evolves
    | with_reducible apply State.set_evolves
    | with_reducible apply State.setMgt_evolves
    | with_reducible apply State.tick_evolves
    | with_reducible apply State.Evolves.ite

theorem execLpcMirunmirRead_evolves {x0 : PortId} : Evolving s (execLpcMirunmirRead x0 s) := by
  unfold execLpcMirunmirRead
  have h := State.Evolves.refl s
  repeat' first
    | with_reducible assumption
    | with_reducible apply Evolving.next
    | with_reducible apply readReply_evolves
    | with_reducible apply State.wr_evolves
    | with_reducible apply State.Evolves.ite

theorem execMirRegionEnable_evolves {x0 : PortId} {x1 : Fin 16} : Evolving s (execMirRegionEnable x0 x1 s) := by
  unfold execMirRegionEnable
  have h := State.Evolves.refl s
  repeat' first
    | with_reducible assumption
    | (intro _)
    | with_reducible apply Evolving.next
    | with_reducible apply ownerWrite_evolves
    | with_reducible apply mirBaseWrite_evolves

theorem execMirctlEn_evolves {x0 : PortId} {x1 : Bool} : Evolving s (execMirctlEn x0 x1 s) := by
  unfold execMirctlEn
  have h := State.Evolves.refl s
  repeat' first
    | with_reducible assumption
    | (intro _)
    | with_reducible apply Evolving.next
    | with_reducible apply ownerWrite_evolves
    | with_reducible apply mirCtlWrite_evolves

theorem execAvsCurrentRead_evolves {x0 : Fin 2} {x1 : Option (List (BitVec 16))} : Evolving s (execAvsCurrentRead x0 x1 s) := by
  unfold execAvsCurrentRead
  have h := State.Evolves.refl s
  repeat' first
    | with_reducible assumption
    | (intro _)
    | with_reducible apply Evolving.next
    | with_reducible apply forAll_evolves
    | with_reducible apply State.set_evolves
    | with_reducible apply setRequests_evolves
    | with_reducible apply State.incSat_evolves
    | with_reducible apply event_evolves
    | with_reducible apply State.Evolves.ite
    | (fail_if_no_progress with_reducible apply State.Evolves.keep)
    | split

theorem execAvsStatusAlert_evolves {x0 : Fin 5} {x1 : AvsStatus} : Evolving s (execAvsStatusAlert x0 x1 s) := by
  unfold execAvsStatusAlert
  have h := State.Evolves.refl s
  repeat' first
    | with_reducible assumption
    | with_reducible apply Evolving.next
    | with_reducible apply event_evolves
    | with_reducible apply capChange_evolves
    | with_reducible apply eventD_evolves
    | with_reducible apply writeSetpoint_evolves
    | split

theorem execAvsWriteRetry_evolves {x0 : Fin 5} {x1 : Nat} {x2 : Bool} : Evolving s (execAvsWriteRetry x0 x1 x2 s) := by
  unfold execAvsWriteRetry
  have h := State.Evolves.refl s
  repeat' first
    | with_reducible assumption
    | with_reducible apply Evolving.next
    | with_reducible apply writeSetpoint_evolves
    | with_reducible apply eventD_evolves
    | with_reducible apply State.Evolves.ite
    | (fail_if_no_progress with_reducible apply State.Evolves.keep)

theorem execCurrentCap_evolves {x0 : Domain} {x1 : BitVec 16} : Evolving s (execCurrentCap x0 x1 s) := by
  unfold execCurrentCap
  have h := State.Evolves.refl s
  repeat' first
    | with_reducible assumption
    | with_reducible apply Evolving.next
    | with_reducible apply capChange_evolves
    | with_reducible apply State.setDom_evolves
    | with_reducible apply State.Evolves.ite

theorem execDoubledRefresh_evolves {x0 : Fin 16} {x1 : BitVec 16} : Evolving s (execDoubledRefresh x0 x1 s) := by
  unfold execDoubledRefresh
  have h := State.Evolves.refl s
  repeat' first
    | with_reducible assumption
    | with_reducible apply Evolving.next
    | with_reducible apply State.set_evolves
    | (fail_if_no_progress with_reducible apply State.Evolves.keep)

theorem execJunctionThrottle_evolves {x0 : Domain} {x1 : BitVec 16} : Evolving s (execJunctionThrottle x0 x1 s) := by
  unfold execJunctionThrottle
  have h := State.Evolves.refl s
  repeat' first
    | with_reducible assumption
    | with_reducible apply Evolving.next
    | with_reducible apply State.set_evolves
    | with_reducible apply setRequests_evolves
    | with_reducible apply event_evolves
    | with_reducible apply released_evolves
    | with_reducible apply State.Evolves.ite

theorem execMemoryOvertemp_evolves {x0 : Fin 20} {x1 : BitVec 16} : Evolving s (execMemoryOvertemp x0 x1 s) := by
  unfold execMemoryOvertemp
  have h := State.Evolves.refl s
  repeat' first
    | with_reducible assumption
    | with_reducible apply Evolving.next
    | with_reducible apply State.set_evolves
    | with_reducible apply event_evolves
    | with_reducible apply State.Evolves.ite
    | (fail_if_no_progress with_reducible apply State.Evolves.keep)

theorem execProchotNAssert_evolves  : Evolving s (execProchotNAssert s) := by
  unfold execProchotNAssert
  have h := State.Evolves.refl s
  repeat' first
    | with_reducible assumption
    | (intro _)
    | with_reducible apply Evolving.next
    | with_reducible apply event_evolves
    | with_reducible apply forAll_evolves
    | with_reducible apply showCauses_evolves
    | with_reducible apply State.set_evolves
    | with_reducible apply State.Evolves.ite

theorem execProchotNRelease_evolves  : Evolving s (execProchotNRelease s) := by
  unfold execProchotNRelease
  have h := State.Evolves.refl s
  repeat' first
    | with_reducible assumption
    | (intro _)
    | with_reducible apply Evolving.next
    | with_reducible apply released_evolves
    | with_reducible apply forAll_evolves
    | with_reducible apply showCauses_evolves
    | with_reducible apply State.set_evolves
    | with_reducible apply State.Evolves.ite

theorem execPwrCntClr_evolves {x0 : PortId} : Evolving s (execPwrCntClr x0 s) := by
  unfold execPwrCntClr
  have h := State.Evolves.refl s
  repeat' first
    | with_reducible assumption
    | (intro _)
    | with_reducible apply Evolving.next
    | with_reducible apply ownerWrite_evolves
    | with_reducible apply pwrCtrl_evolves

theorem execPwrForce_evolves {x0 : PortId} {x1 : Domain} {x2 : BitVec 4} : Evolving s (execPwrForce x0 x1 x2 s) := by
  unfold execPwrForce
  have h := State.Evolves.refl s
  repeat' first
    | with_reducible assumption
    | (intro _)
    | with_reducible apply Evolving.next
    | with_reducible apply ownerWrite_evolves
    | with_reducible apply stretchWrite_evolves

theorem execThermalTrip_evolves {x0 : Fin 6} : Evolving s (execThermalTrip x0 s) := by
  unfold execThermalTrip
  have h := State.Evolves.refl s
  repeat' first
    | with_reducible assumption
    | (intro _)
    | with_reducible apply Evolving.next
    | with_reducible apply State.set_evolves
    | with_reducible apply eventD_evolves
    | with_reducible apply forAll_evolves
    | with_reducible apply setPhase_evolves
    | with_reducible apply loseArrays_evolves

theorem execThrottleStep_evolves {x0 : Domain} : Evolving s (execThrottleStep x0 s) := by
  unfold execThrottleStep
  have h := State.Evolves.refl s
  repeat' first
    | with_reducible assumption
    | with_reducible apply Evolving.next
    | with_reducible apply setRequests_evolves
    | with_reducible apply State.set_evolves

theorem execBaseadd_evolves {x0 : QId} : Evolving s (execBaseadd x0 s) := by
  unfold execBaseadd
  have h := State.Evolves.refl s
  repeat' first
    | with_reducible assumption
    | (intro _)
    | with_reducible apply Evolving.next
    | with_reducible apply runHead_evolves
    | with_reducible apply baseAdd_evolves

theorem execCall_evolves {x0 : QId} : Evolving s (execCall x0 s) := by
  unfold execCall
  have h := State.Evolves.refl s
  repeat' first
    | with_reducible assumption
    | (intro _)
    | with_reducible apply Evolving.next
    | with_reducible apply runHead_evolves
    | with_reducible apply State.setQue_evolves
    | with_reducible apply State.set_evolves
    | extract_lets
    | split

theorem execCommandRetire_evolves {x0 : QId} : Evolving s (execCommandRetire x0 s) := by
  unfold execCommandRetire
  have h := State.Evolves.refl s
  repeat' first
    | with_reducible assumption
    | with_reducible apply Evolving.next
    | with_reducible apply retireOne_evolves

theorem execLaunch_evolves {x0 : QId} : Evolving s (execLaunch x0 s) := by
  unfold execLaunch
  have h := State.Evolves.refl s
  repeat' first
    | with_reducible assumption
    | (intro _)
    | with_reducible apply Evolving.next
    | with_reducible apply runHead_evolves
    | with_reducible apply launchArrives_evolves

theorem execNop_evolves {x0 : QId} : Evolving s (execNop x0 s) := by
  unfold execNop
  have h := State.Evolves.refl s
  repeat' first
    | with_reducible assumption
    | (intro _)
    | with_reducible apply Evolving.next
    | with_reducible apply runHead_evolves
    | with_reducible apply quickly_evolves

theorem execParkpoint_evolves {x0 : QId} : Evolving s (execParkpoint x0 s) := by
  unfold execParkpoint
  have h := State.Evolves.refl s
  repeat' first
    | with_reducible assumption
    | (intro _)
    | with_reducible apply Evolving.next
    | with_reducible apply runHead_evolves
    | with_reducible apply quickly_evolves

theorem execParkreq_evolves {x0 : PortId} {x1 : QId} {x2 : Bool} : Evolving s (execParkreq x0 x1 x2 s) := by
  unfold execParkreq
  have h := State.Evolves.refl s
  repeat' first
    | with_reducible assumption
    | (intro _)
    | with_reducible apply Evolving.next
    | with_reducible apply ownerWrite_evolves
    | with_reducible apply queCtrl_evolves

theorem execPost_evolves {x0 : QId} : Evolving s (execPost x0 s) := by
  unfold execPost
  have h := State.Evolves.refl s
  repeat' first
    | with_reducible assumption
    | (intro _)
    | with_reducible apply Evolving.next
    | with_reducible apply runHead_evolves
    | with_reducible apply freezeHead_evolves
    | with_reducible apply waitFor_evolves
    | with_reducible apply acceptNotice_evolves
    | with_reducible apply postOutcome_evolves
    | with_reducible apply sendMessage_evolves
    | with_reducible apply State.Evolves.ite
    | extract_lets
    | split

theorem execPreWake_evolves {x0 : QId} : Evolving s (execPreWake x0 s) := by
  unfold execPreWake
  have h := State.Evolves.refl s
  repeat' first
    | with_reducible assumption
    | with_reducible apply Evolving.next
    | with_reducible apply preWakeTiles_evolves
    | with_reducible apply State.advanceTo_evolves
    | with_reducible apply State.Evolves.ite
    | split

theorem execQreset_evolves {x0 : PortId} {x1 : QId} : Evolving s (execQreset x0 x1 s) := by
  unfold execQreset
  have h := State.Evolves.refl s
  repeat' first
    | with_reducible assumption
    | with_reducible apply Evolving.next
    | with_reducible apply queCtrlWrite_evolves

theorem execQueuePark_evolves {x0 : QId} : Evolving s (execQueuePark x0 s) := by
  unfold execQueuePark
  have h := State.Evolves.refl s
  repeat' first
    | with_reducible assumption
    | with_reducible apply Evolving.next
    | with_reducible apply freezeQueue_evolves
    | with_reducible apply State.setQue_evolves
    | with_reducible apply State.set_evolves
    | with_reducible apply State.Evolves.ite
    | with_reducible apply restTile_evolves
    | (fail_if_no_progress with_reducible apply State.Evolves.keep)
    | extract_lets
    | split

theorem execResume_evolves {x0 : PortId} {x1 : QId} : Evolving s (execResume x0 x1 s) := by
  unfold execResume
  have h := State.Evolves.refl s
  repeat' first
    | with_reducible assumption
    | with_reducible apply Evolving.next
    | with_reducible apply queCtrlWrite_evolves

theorem execSetpred_evolves {x0 : QId} : Evolving s (execSetpred x0 s) := by
  unfold execSetpred
  have h := State.Evolves.refl s
  repeat' first
    | with_reducible assumption
    | (intro _)
    | with_reducible apply Evolving.next
    | with_reducible apply runHead_evolves
    | with_reducible apply setPred_evolves

theorem execSluiceOpen_evolves {x0 : QId} : Evolving s (execSluiceOpen x0 s) := by
  unfold execSluiceOpen
  have h := State.Evolves.refl s
  repeat' first
    | with_reducible assumption
    | with_reducible apply Evolving.next
    | with_reducible apply State.advanceTo_evolves
    | with_reducible apply releasePreWake_evolves
    | with_reducible apply runAgain_evolves
    | with_reducible apply State.setQue_evolves
    | with_reducible apply issue_evolves
    | with_reducible apply doSignal_evolves
    | with_reducible apply bumpUid_evolves
    | split

theorem execStart_evolves {x0 : PortId} {x1 : QId} : Evolving s (execStart x0 x1 s) := by
  unfold execStart
  have h := State.Evolves.refl s
  repeat' first
    | with_reducible assumption
    | with_reducible apply Evolving.next
    | with_reducible apply queCtrlWrite_evolves

theorem execStepAdvance_evolves {x0 : SetId} : Evolving s (execStepAdvance x0 s) := by
  unfold execStepAdvance
  have h := State.Evolves.refl s
  repeat' first
    | with_reducible assumption
    | (intro _)
    | with_reducible apply Evolving.next
    | with_reducible apply autoClear_evolves
    | with_reducible apply State.inc_evolves
    | with_reducible apply forAll_evolves
    | with_reducible apply issue_evolves
    | with_reducible apply bumpUid_evolves
    | with_reducible apply runAgain_evolves
    | with_reducible apply State.Evolves.ite

theorem execStepend_evolves {x0 : QId} : Evolving s (execStepend x0 s) := by
  unfold execStepend
  have h := State.Evolves.refl s
  repeat' first
    | with_reducible assumption
    | (intro _)
    | with_reducible apply Evolving.next
    | with_reducible apply runHead_evolves
    | with_reducible apply waitFor_evolves
    | with_reducible apply State.setQue_evolves

theorem execThaw_evolves {x0 : PortId} {x1 : QId} : Evolving s (execThaw x0 x1 s) := by
  unfold execThaw
  have h := State.Evolves.refl s
  repeat' first
    | with_reducible assumption
    | with_reducible apply Evolving.next
    | with_reducible apply queCtrlWrite_evolves

theorem execThawnext_evolves {x0 : PortId} {x1 : QId} : Evolving s (execThawnext x0 x1 s) := by
  unfold execThawnext
  have h := State.Evolves.refl s
  repeat' first
    | with_reducible assumption
    | with_reducible apply Evolving.next
    | with_reducible apply queCtrlWrite_evolves

theorem execWaitLimitExpiry_evolves {x0 : QId} : Evolving s (execWaitLimitExpiry x0 s) := by
  unfold execWaitLimitExpiry
  have h := State.Evolves.refl s
  repeat' first
    | with_reducible assumption
    | with_reducible apply Evolving.next
    | with_reducible apply State.setQue_evolves
    | with_reducible apply freezeQueue_evolves
    | with_reducible apply eventD_evolves
    | with_reducible apply event_evolves
    | with_reducible apply State.Evolves.ite
    | with_reducible apply restTile_evolves
    | (fail_if_no_progress with_reducible apply State.Evolves.keep)
    | extract_lets
    | split

theorem execWaitMet_evolves {x0 : QId} : Evolving s (execWaitMet x0 s) := by
  unfold execWaitMet
  have h := State.Evolves.refl s
  repeat' first
    | with_reducible assumption
    | with_reducible apply Evolving.next
    | with_reducible apply runAgain_evolves
    | with_reducible apply State.setQue_evolves
    | with_reducible apply State.Evolves.ite

theorem execBootRomCheck_evolves  : Evolving s (execBootRomCheck s) := by
  unfold execBootRomCheck
  have h := State.Evolves.refl s
  repeat' first
    | with_reducible assumption
    | with_reducible apply Evolving.next
    | with_reducible apply loadFlashRing_evolves
    | with_reducible apply setPhaseBoot_evolves
    | with_reducible apply State.set_evolves
    | with_reducible apply recovery_evolves
    | with_reducible apply State.tick_evolves
    | with_reducible apply State.Evolves.ite

theorem execBridgeError_evolves {x0 : Fin 8} : Evolving s (execBridgeError x0 s) := by
  unfold execBridgeError
  have h := State.Evolves.refl s
  repeat' first
    | with_reducible assumption
    | with_reducible apply Evolving.next
    | with_reducible apply eventD_evolves
    | (fail_if_no_progress with_reducible apply State.Evolves.keep)

theorem execColdReset_evolves  : Evolving s (execColdReset s) := by
  unfold execColdReset
  have h := State.Evolves.refl s
  repeat' first
    | with_reducible assumption
    | with_reducible apply Evolving.next
    | with_reducible apply coldReset_evolves
    | (fail_if_no_progress with_reducible apply State.Evolves.keep)

theorem execDeviceReady_evolves {x0 : BitVec 16} : Evolving s (execDeviceReady x0 s) := by
  unfold execDeviceReady
  have h := State.Evolves.refl s
  repeat' first
    | with_reducible assumption
    | (intro _)
    | with_reducible apply Evolving.next
    | with_reducible apply setPhaseBoot_evolves
    | with_reducible apply State.set_evolves
    | with_reducible apply eventD_evolves
    | with_reducible apply forAll_evolves
    | with_reducible apply startTraining_evolves
    | with_reducible apply State.Evolves.ite

theorem execDeviceReset_evolves {x0 : PortId} {x1 : BitVec 8} : Evolving s (execDeviceReset x0 x1 s) := by
  unfold execDeviceReset
  have h := State.Evolves.refl s
  repeat' first
    | with_reducible assumption
    | (intro _)
    | with_reducible apply Evolving.next
    | with_reducible apply ownerWrite_evolves
    | with_reducible apply glbReset_evolves

theorem execEventRecord_evolves {x0 : BitVec 16} {x1 : BitVec 16} {x2 : BitVec 64} : Evolving s (execEventRecord x0 x1 x2 s) := by
  unfold execEventRecord
  have h := State.Evolves.refl s
  repeat' first
    | with_reducible assumption
    | with_reducible apply Evolving.next
    | with_reducible apply recordEvent_evolves
    | with_reducible apply State.Evolves.ite
    | (fail_if_no_progress with_reducible apply State.Evolves.keep)
    | with_reducible apply voidRecord_evolves
    | with_reducible apply unitEffect_evolves
    | split

theorem execEvrCntClr_evolves {x0 : PortId} : Evolving s (execEvrCntClr x0 s) := by
  unfold execEvrCntClr
  have h := State.Evolves.refl s
  repeat' first
    | with_reducible assumption
    | (intro _)
    | with_reducible apply Evolving.next
    | with_reducible apply ownerWrite_evolves
    | with_reducible apply evrCtrl_evolves

theorem execEvrFaultClear_evolves {x0 : PortId} : Evolving s (execEvrFaultClear x0 s) := by
  unfold execEvrFaultClear
  have h := State.Evolves.refl s
  repeat' first
    | with_reducible assumption
    | (intro _)
    | with_reducible apply Evolving.next
    | with_reducible apply ownerWrite_evolves
    | with_reducible apply writeReg_evolves

theorem execFirmwareStart_evolves  : Evolving s (execFirmwareStart s) := by
  unfold execFirmwareStart
  have h := State.Evolves.refl s
  repeat' first
    | with_reducible assumption
    | (intro _)
    | with_reducible apply Evolving.next
    | with_reducible apply State.set_evolves
    | with_reducible apply State.wr_evolves
    | with_reducible apply setPhaseBoot_evolves
    | with_reducible apply forAll_evolves
    | with_reducible apply writeSetpoint_evolves
    | with_reducible apply State.Evolves.ite
    | (fail_if_no_progress with_reducible apply State.Evolves.keep)

theorem execMemoryClear_evolves  : Evolving s (execMemoryClear s) := by
  unfold execMemoryClear
  have h := State.Evolves.refl s
  repeat' first
    | with_reducible assumption
    | with_reducible apply Evolving.next
    | with_reducible apply setPhaseBoot_evolves
    | with_reducible apply State.Evolves.ite
    | with_reducible apply noMemory_evolves

theorem execMemoryInitialisation_evolves {x0 : List (Fin 20)} : Evolving s (execMemoryInitialisation x0 s) := by
  unfold execMemoryInitialisation
  have h := State.Evolves.refl s
  repeat' first
    | with_reducible assumption
    | (intro _)
    | with_reducible apply Evolving.next
    | with_reducible apply State.wr_evolves
    | with_reducible apply State.set_evolves
    | with_reducible apply event_evolves
    | with_reducible apply forAll_evolves
    | with_reducible apply setPhaseBoot_evolves
    | with_reducible apply State.Evolves.ite

theorem execPatrolScrub_evolves {x0 : BitVec 48} {x1 : List (Fin 68 × BitVec 8)} : Evolving s (execPatrolScrub x0 x1 s) := by
  unfold execPatrolScrub
  have h := State.Evolves.refl s
  repeat' first
    | with_reducible assumption
    | (intro _)
    | with_reducible apply Evolving.next
    | with_reducible apply forAll_evolves
    | with_reducible apply State.setErr_evolves
    | with_reducible apply readLine_evolves
    | with_reducible apply State.Evolves.ite

theorem execRedEscalation_evolves  : Evolving s (execRedEscalation s) := by
  unfold execRedEscalation
  have h := State.Evolves.refl s
  repeat' first
    | with_reducible assumption
    | with_reducible apply Evolving.next
    | with_reducible apply deviceReset_evolves
    | with_reducible apply State.set_evolves
    | with_reducible apply event_evolves
    | with_reducible apply State.Evolves.ite
    | (fail_if_no_progress with_reducible apply State.Evolves.keep)
    | split

theorem execRedFlashCopy_evolves {x0 : Bool} : Evolving s (execRedFlashCopy x0 s) := by
  unfold execRedFlashCopy
  have h := State.Evolves.refl s
  repeat' first
    | with_reducible assumption
    | with_reducible apply Evolving.next
    | with_reducible apply writeCopy_evolves
    | with_reducible apply event_evolves
    | with_reducible apply deviceReset_evolves
    | with_reducible apply State.Evolves.ite
    | (fail_if_no_progress with_reducible apply State.Evolves.keep)
    | split

theorem execResetNRise_evolves {x0 : BitVec 3} : Evolving s (execResetNRise x0 s) := by
  unfold execResetNRise
  have h := State.Evolves.refl s
  repeat' first
    | with_reducible assumption
    | with_reducible apply Evolving.next
    | with_reducible apply tryStart_evolves
    | with_reducible apply State.Evolves.ite
    | (fail_if_no_progress with_reducible apply State.Evolves.keep)

theorem execSupplyDip_evolves {x0 : Rail} : Evolving s (execSupplyDip x0 s) := by
  unfold execSupplyDip
  have h := State.Evolves.refl s
  repeat' first
    | with_reducible assumption
    | with_reducible apply Evolving.next
    | with_reducible apply event_evolves
    | with_reducible apply State.Evolves.ite

theorem execSupplyLoss_evolves {x0 : Rail} : Evolving s (execSupplyLoss x0 s) := by
  unfold execSupplyLoss
  have h := State.Evolves.refl s
  repeat' first
    | with_reducible assumption
    | with_reducible apply Evolving.next
    | with_reducible apply State.set_evolves
    | with_reducible apply coldReset_evolves
    | with_reducible apply eventD_evolves
    | with_reducible apply setPhaseBoot_evolves
    | with_reducible apply State.Evolves.ite
    | (fail_if_no_progress with_reducible apply State.Evolves.keep)

theorem execSupplyValid_evolves {x0 : Rail} : Evolving s (execSupplyValid x0 s) := by
  unfold execSupplyValid
  have h := State.Evolves.refl s
  repeat' first
    | with_reducible assumption
    | with_reducible apply Evolving.next
    | with_reducible apply tryStart_evolves
    | with_reducible apply State.set_evolves

theorem execTileReset_evolves {x0 : PortId} {x1 : TileId} : Evolving s (execTileReset x0 x1 s) := by
  unfold execTileReset
  have h := State.Evolves.refl s
  repeat' first
    | with_reducible assumption
    | (intro _)
    | with_reducible apply Evolving.next
    | with_reducible apply ownerWrite_evolves
    | with_reducible apply tileReset_evolves

theorem execTokenRefill_evolves  : Evolving s (execTokenRefill s) := by
  unfold execTokenRefill
  have h := State.Evolves.refl s
  repeat' first
    | with_reducible assumption
    | with_reducible apply Evolving.next
    | (fail_if_no_progress with_reducible apply State.Evolves.keep)

theorem execEventMark_evolves  : Evolving s (execEventMark s) := by
  unfold execEventMark
  have h := State.Evolves.refl s
  repeat' first
    | with_reducible assumption
    | (intro _)
    | with_reducible apply Evolving.next
    | with_reducible apply routine_evolves
    | with_reducible apply routineEnd_evolves
    | with_reducible apply recordEvent_evolves

theorem execGateSet_evolves  : Evolving s (execGateSet s) := by
  unfold execGateSet
  have h := State.Evolves.refl s
  repeat' first
    | with_reducible assumption
    | (intro _)
    | with_reducible apply Evolving.next
    | with_reducible apply routine_evolves
    | with_reducible apply routineEnd_evolves
    | with_reducible apply forAll_evolves
    | with_reducible apply State.set_evolves
    | with_reducible apply State.Evolves.ite

theorem execOvfClr_evolves  : Evolving s (execOvfClr s) := by
  unfold execOvfClr
  have h := State.Evolves.refl s
  repeat' first
    | with_reducible assumption
    | (intro _)
    | with_reducible apply Evolving.next
    | with_reducible apply routine_evolves
    | with_reducible apply routineEnd_evolves
    | with_reducible apply forAll_evolves
    | with_reducible apply clearOvf_evolves
    | with_reducible apply State.Evolves.ite

theorem execShareSet_evolves  : Evolving s (execShareSet s) := by
  unfold execShareSet
  have h := State.Evolves.refl s
  repeat' first
    | with_reducible assumption
    | (intro _)
    | with_reducible apply Evolving.next
    | with_reducible apply routine_evolves
    | with_reducible apply routineOutside_evolves
    | with_reducible apply touch_evolves
    | with_reducible apply freezeRoutine_evolves
    | with_reducible apply routineEnd_evolves
    | with_reducible apply writeShares_evolves
    | with_reducible apply State.Evolves.ite
    | with_reducible apply accessRange_evolves
    | extract_lets
    | split

theorem execTelemSnap_evolves  : Evolving s (execTelemSnap s) := by
  unfold execTelemSnap
  have h := State.Evolves.refl s
  repeat' first
    | with_reducible assumption
    | (intro _)
    | with_reducible apply Evolving.next
    | with_reducible apply routine_evolves
    | with_reducible apply routineEnd_evolves
    | with_reducible apply spend_evolves
    | with_reducible apply State.write_evolves
    | with_reducible apply routineOutside_evolves
    | with_reducible apply coreWrite_evolves
    | with_reducible apply State.Evolves.ite
    | split

theorem execWhlseqSet_evolves  : Evolving s (execWhlseqSet s) := by
  unfold execWhlseqSet
  have h := State.Evolves.refl s
  repeat' first
    | with_reducible assumption
    | (intro _)
    | with_reducible apply Evolving.next
    | with_reducible apply routine_evolves
    | with_reducible apply routineEnd_evolves
    | with_reducible apply event_evolves
    | with_reducible apply State.set_evolves
    | with_reducible apply State.Evolves.ite
    | with_reducible apply wheelDiscard_evolves
    | extract_lets
    | split

theorem execGlbJobseedCommit_evolves {x0 : PortId} {x1 : BitVec 32} : Evolving s (execGlbJobseedCommit x0 x1 s) := by
  unfold execGlbJobseedCommit
  have h := State.Evolves.refl s
  repeat' first
    | with_reducible assumption
    | (intro _)
    | with_reducible apply Evolving.next
    | with_reducible apply ownerWrite_evolves
    | with_reducible apply commitSeed_evolves

theorem execHbcCntClr_evolves {x0 : PortId} {x1 : Bool} : Evolving s (execHbcCntClr x0 x1 s) := by
  unfold execHbcCntClr
  have h := State.Evolves.refl s
  repeat' first
    | with_reducible assumption
    | (intro _)
    | with_reducible apply Evolving.next
    | with_reducible apply ownerWrite_evolves
    | with_reducible apply clearErrCounts_evolves

theorem execTilGateWake_evolves {x0 : PortId} {x1 : TileId} : Evolving s (execTilGateWake x0 x1 s) := by
  unfold execTilGateWake
  have h := State.Evolves.refl s
  repeat' first
    | with_reducible assumption
    | (intro _)
    | with_reducible apply Evolving.next
    | with_reducible apply ownerWrite_evolves
    | with_reducible apply wakeTile_evolves

theorem execTilOvfClr_evolves {x0 : PortId} {x1 : TileId} {x2 : Fin 64} : Evolving s (execTilOvfClr x0 x1 x2 s) := by
  unfold execTilOvfClr
  have h := State.Evolves.refl s
  repeat' first
    | with_reducible assumption
    | (intro _)
    | with_reducible apply Evolving.next
    | with_reducible apply ownerWrite_evolves
    | with_reducible apply clearOvf_evolves

theorem execTileClockGate_evolves {x0 : TileId} : Evolving s (execTileClockGate x0 s) := by
  unfold execTileClockGate
  have h := State.Evolves.refl s
  repeat' first
    | with_reducible assumption
    | with_reducible apply Evolving.next
    | with_reducible apply setPhase_evolves
    | with_reducible apply State.Evolves.ite
    | with_reducible apply startGateTimer_evolves
    | split

theorem execTileIsolation_evolves {x0 : TileId} : Evolving s (execTileIsolation x0 s) := by
  unfold execTileIsolation
  have h := State.Evolves.refl s
  repeat' first
    | with_reducible assumption
    | with_reducible apply Evolving.next
    | with_reducible apply setPhase_evolves
    | with_reducible apply State.Evolves.ite

theorem execTilePowerGateComplete_evolves {x0 : TileId} : Evolving s (execTilePowerGateComplete x0 s) := by
  unfold execTilePowerGateComplete
  have h := State.Evolves.refl s
  repeat' first
    | with_reducible assumption
    | with_reducible apply Evolving.next
    | with_reducible apply setPhase_evolves
    | with_reducible apply loseArrays_evolves
    | with_reducible apply State.setGate_evolves
    | with_reducible apply State.Evolves.ite

theorem execTilePowerGateEntry_evolves {x0 : TileId} : Evolving s (execTilePowerGateEntry x0 s) := by
  unfold execTilePowerGateEntry
  have h := State.Evolves.refl s
  repeat' first
    | with_reducible assumption
    | with_reducible apply Evolving.next
    | with_reducible apply setPhase_evolves
    | with_reducible apply State.Evolves.ite

theorem execTileWake_evolves {x0 : TileId} : Evolving s (execTileWake x0 s) := by
  unfold execTileWake
  have h := State.Evolves.refl s
  repeat' first
    | with_reducible assumption
    | with_reducible apply Evolving.next
    | with_reducible apply wakeTile_evolves

theorem execTileWakeComplete_evolves {x0 : TileId} : Evolving s (execTileWakeComplete x0 s) := by
  unfold execTileWakeComplete
  have h := State.Evolves.refl s
  repeat' first
    | with_reducible assumption
    | with_reducible apply Evolving.next
    | with_reducible apply setPhase_evolves
    | with_reducible apply State.Evolves.ite
    | with_reducible apply runTile_evolves
    | split

theorem execCapt_evolves {x0 : PortId} : Evolving s (execCapt x0 s) := by
  unfold execCapt
  have h := State.Evolves.refl s
  repeat' first
    | with_reducible assumption
    | (intro _)
    | with_reducible apply Evolving.next
    | with_reducible apply ownerWrite_evolves
    | with_reducible apply ftmCtrl_evolves

theorem execFtmCntClr_evolves {x0 : PortId} : Evolving s (execFtmCntClr x0 s) := by
  unfold execFtmCntClr
  have h := State.Evolves.refl s
  repeat' first
    | with_reducible assumption
    | (intro _)
    | with_reducible apply Evolving.next
    | with_reducible apply ownerWrite_evolves
    | with_reducible apply ftmCtrl_evolves

theorem execFtmLoad_evolves {x0 : PortId} : Evolving s (execFtmLoad x0 s) := by
  unfold execFtmLoad
  have h := State.Evolves.refl s
  repeat' first
    | with_reducible assumption
    | (intro _)
    | with_reducible apply Evolving.next
    | with_reducible apply ownerWrite_evolves
    | with_reducible apply ftmCtrl_evolves

theorem execParentUnusable_evolves  : Evolving s (execParentUnusable s) := by
  unfold execParentUnusable
  have h := State.Evolves.refl s
  repeat' first
    | with_reducible assumption
    | with_reducible apply Evolving.next
    | with_reducible apply adoptRole_evolves
    | with_reducible apply parentLost_evolves
    | with_reducible apply State.Evolves.ite

theorem execPpsLoss_evolves  : Evolving s (execPpsLoss s) := by
  unfold execPpsLoss
  have h := State.Evolves.refl s
  repeat' first
    | with_reducible assumption
    | with_reducible apply Evolving.next
    | with_reducible apply adoptRole_evolves
    | with_reducible apply ppsLost_evolves
    | with_reducible apply State.Evolves.ite
    | (fail_if_no_progress with_reducible apply State.Evolves.keep)

theorem execTimePpsInEdge_evolves {x0 : Nat} : Evolving s (execTimePpsInEdge x0 s) := by
  unfold execTimePpsInEdge
  have h := State.Evolves.refl s
  repeat' first
    | with_reducible assumption
    | with_reducible apply Evolving.next
    | with_reducible apply adoptRole_evolves
    | with_reducible apply carry_evolves
    | with_reducible apply State.wr_evolves
    | with_reducible apply State.inc_evolves
    | with_reducible apply ppsLost_evolves
    | with_reducible apply stepTo_evolves
    | with_reducible apply discipline_evolves
    | with_reducible apply State.set_evolves
    | with_reducible apply State.Evolves.ite
    | (fail_if_no_progress with_reducible apply State.Evolves.keep)

theorem execTimePpsOutPulse_evolves  : Evolving s (execTimePpsOutPulse s) := by
  unfold execTimePpsOutPulse
  have h := State.Evolves.refl s
  repeat' first
    | with_reducible assumption
    | with_reducible apply Evolving.next
    | with_reducible apply State.emit_evolves
    | with_reducible apply carry_evolves
    | with_reducible apply State.Evolves.ite

theorem execTimeReply_evolves {x0 : LinkId} {x1 : BitVec 640} {x2 : Nat} : Evolving s (execTimeReply x0 x1 x2 s) := by
  unfold execTimeReply
  have h := State.Evolves.refl s
  repeat' first
    | with_reducible assumption
    | with_reducible apply Evolving.next
    | with_reducible apply settleFab_evolves
    | with_reducible apply receive_evolves
    | with_reducible apply carry_evolves
    | with_reducible apply adoptRole_evolves
    | with_reducible apply reportExchange_evolves
    | with_reducible apply State.tick_evolves
    | with_reducible apply followReply_evolves
    | (fail_if_no_progress with_reducible apply State.Evolves.keep)
    | extract_lets
    | split

theorem execTimeRequest_evolves {x0 : LinkId} {x1 : BitVec 640} {x2 : Nat} : Evolving s (execTimeRequest x0 x1 x2 s) := by
  unfold execTimeRequest
  have h := State.Evolves.refl s
  repeat' first
    | with_reducible assumption
    | with_reducible apply Evolving.next
    | with_reducible apply settleFab_evolves
    | with_reducible apply receive_evolves
    | with_reducible apply carry_evolves
    | with_reducible apply adoptRole_evolves
    | with_reducible apply State.tick_evolves
    | with_reducible apply sendLocal_evolves
    | with_reducible apply State.Evolves.ite

theorem execTimeRequestSend_evolves {x0 : LinkId} : Evolving s (execTimeRequestSend x0 s) := by
  unfold execTimeRequestSend
  have h := State.Evolves.refl s
  repeat' first
    | with_reducible assumption
    | with_reducible apply Evolving.next
    | with_reducible apply adoptRole_evolves
    | with_reducible apply State.tick_evolves
    | with_reducible apply sendLocal_evolves
    | with_reducible apply State.Evolves.ite
    | (fail_if_no_progress with_reducible apply State.Evolves.keep)

theorem execAllgather_evolves {x0 : Fin 4} : Evolving s (execAllgather x0 s) := by
  unfold execAllgather
  have h := State.Evolves.refl s
  repeat' first
    | with_reducible assumption
    | with_reducible apply Evolving.next
    | with_reducible apply wheelRow_evolves

theorem execAllreduce_evolves {x0 : Fin 4} : Evolving s (execAllreduce x0 s) := by
  unfold execAllreduce
  have h := State.Evolves.refl s
  repeat' first
    | with_reducible assumption
    | with_reducible apply Evolving.next
    | with_reducible apply wheelRow_evolves

theorem execAlltoall_evolves {x0 : Fin 4} : Evolving s (execAlltoall x0 s) := by
  unfold execAlltoall
  have h := State.Evolves.refl s
  repeat' first
    | with_reducible assumption
    | with_reducible apply Evolving.next
    | with_reducible apply wheelRow_evolves

theorem execBcast_evolves {x0 : Fin 4} : Evolving s (execBcast x0 s) := by
  unfold execBcast
  have h := State.Evolves.refl s
  repeat' first
    | with_reducible assumption
    | with_reducible apply Evolving.next
    | with_reducible apply wheelRow_evolves

theorem execChunkResend_evolves {x0 : Fin 4} : Evolving s (execChunkResend x0 s) := by
  unfold execChunkResend
  have h := State.Evolves.refl s
  repeat' first
    | with_reducible assumption
    | (intro _)
    | with_reducible apply Evolving.next
    | with_reducible apply settleFab_evolves
    | with_reducible apply wheelFailBoth_evolves
    | with_reducible apply updColl_evolves
    | with_reducible apply sendChunk_evolves
    | with_reducible apply event_evolves
    | with_reducible apply State.inc_evolves
    | (dsimp +zetaDelta only; split)
    | with_reducible apply eventD_evolves
    | with_reducible apply State.Evolves.ite
    | (fail_if_no_progress with_reducible apply State.Evolves.keep)
    | extract_lets
    | split

theorem execClose_evolves {x0 : LinkId} {x1 : BitVec 640} : Evolving s (execClose x0 x1 s) := by
  unfold execClose
  have h := State.Evolves.refl s
  repeat' first
    | with_reducible assumption
    | with_reducible apply Evolving.next
    | with_reducible apply settleFab_evolves
    | with_reducible apply colCellIn_evolves

theorem execColAbort_evolves {x0 : LinkId} {x1 : BitVec 640} : Evolving s (execColAbort x0 x1 s) := by
  unfold execColAbort
  have h := State.Evolves.refl s
  repeat' first
    | with_reducible assumption
    | with_reducible apply Evolving.next
    | with_reducible apply settleFab_evolves
    | with_reducible apply colCellIn_evolves

theorem execColChunk_evolves {x0 : LinkId} {x1 : List (BitVec 640)} : Evolving s (execColChunk x0 x1 s) := by
  unfold execColChunk
  have h := State.Evolves.refl s
  repeat' first
    | with_reducible assumption
    | (intro _)
    | with_reducible apply Evolving.next
    | with_reducible apply settleFab_evolves
    | with_reducible apply forAll_evolves
    | with_reducible apply colCellIn_evolves

theorem execColGrant_evolves {x0 : LinkId} {x1 : BitVec 640} : Evolving s (execColGrant x0 x1 s) := by
  unfold execColGrant
  have h := State.Evolves.refl s
  repeat' first
    | with_reducible assumption
    | with_reducible apply Evolving.next
    | with_reducible apply settleFab_evolves
    | with_reducible apply colCellIn_evolves

theorem execCollectiveComplete_evolves {x0 : Fin 4} : Evolving s (execCollectiveComplete x0 s) := by
  unfold execCollectiveComplete
  have h := State.Evolves.refl s
  repeat' first
    | with_reducible assumption
    | (intro _)
    | with_reducible apply Evolving.next
    | with_reducible apply countUnmirrored_evolves
    | with_reducible apply writeMarked_evolves
    | with_reducible apply eventD_evolves
    | with_reducible apply State.write_evolves
    | with_reducible apply State.set_evolves
    | with_reducible apply State.inc_evolves
    | with_reducible apply State.setWheel_evolves
    | with_reducible apply retireOne_evolves
    | with_reducible apply setIssued_evolves
    | with_reducible apply forAll_evolves
    | with_reducible apply addFlag_evolves
    | with_reducible apply wheelWrite_evolves
    | with_reducible apply writeDescriptor_evolves
    | with_reducible apply accessSet_evolves
    | with_reducible apply State.Evolves.ite
    | (fail_if_no_progress with_reducible apply State.Evolves.keep)
    | extract_lets
    | split

theorem execPermute_evolves {x0 : Fin 4} : Evolving s (execPermute x0 s) := by
  unfold execPermute
  have h := State.Evolves.refl s
  repeat' first
    | with_reducible assumption
    | with_reducible apply Evolving.next
    | with_reducible apply wheelRow_evolves

theorem execProgressTimeout_evolves {x0 : Fin 4} : Evolving s (execProgressTimeout x0 s) := by
  unfold execProgressTimeout
  have h := State.Evolves.refl s
  repeat' first
    | with_reducible assumption
    | with_reducible apply Evolving.next
    | with_reducible apply settleFab_evolves
    | with_reducible apply wheelFailBoth_evolves
    | split

theorem execRedscat_evolves {x0 : Fin 4} : Evolving s (execRedscat x0 s) := by
  unfold execRedscat
  have h := State.Evolves.refl s
  repeat' first
    | with_reducible assumption
    | with_reducible apply Evolving.next
    | with_reducible apply wheelRow_evolves

theorem execShift_evolves {x0 : Fin 4} : Evolving s (execShift x0 s) := by
  unfold execShift
  have h := State.Evolves.refl s
  repeat' first
    | with_reducible assumption
    | with_reducible apply Evolving.next
    | with_reducible apply wheelRow_evolves

theorem execWhlAbort_evolves {x0 : PortId} {x1 : Fin 4} : Evolving s (execWhlAbort x0 x1 s) := by
  unfold execWhlAbort
  have h := State.Evolves.refl s
  repeat' first
    | with_reducible assumption
    | (intro _)
    | with_reducible apply Evolving.next
    | with_reducible apply settleFab_evolves
    | with_reducible apply ownerWrite_evolves
    | with_reducible apply wheelAbort_evolves

theorem execWhlCntClr_evolves {x0 : PortId} {x1 : Fin 4} : Evolving s (execWhlCntClr x0 x1 s) := by
  unfold execWhlCntClr
  have h := State.Evolves.refl s
  repeat' first
    | with_reducible assumption
    | (intro _)
    | with_reducible apply Evolving.next
    | with_reducible apply ownerWrite_evolves
    | with_reducible apply wheelCntClr_evolves

end Sys2Proof.Machine
end

