-- ==== Sys2Proof/Laws/State.lean ====
section
/-! SUPPORT. State as plain data: each update changes the one field it names and no other, one lemma a field and update;
and what a read gives after a write. -/

namespace Sys2Proof.Machine

variable (s : State)

/-! ### `wr` changes `regs` alone -/

@[simp] theorem State.wr_mem (a : Nat) (v : Word) : (s.wr a v).mem = s.mem := rfl
@[simp] theorem State.wr_poison (a : Nat) (v : Word) : (s.wr a v).poison = s.poison := rfl
@[simp] theorem State.wr_errs (a : Nat) (v : Word) : (s.wr a v).errs = s.errs := rfl
@[simp] theorem State.wr_rowErr (a : Nat) (v : Word) : (s.wr a v).rowErr = s.rowErr := rfl
@[simp] theorem State.wr_seedPend (a : Nat) (v : Word) : (s.wr a v).seedPend = s.seedPend := rfl
@[simp] theorem State.wr_imem (a : Nat) (v : Word) : (s.wr a v).imem = s.imem := rfl
@[simp] theorem State.wr_ques (a : Nat) (v : Word) : (s.wr a v).ques = s.ques := rfl
@[simp] theorem State.wr_banks (a : Nat) (v : Word) : (s.wr a v).banks = s.banks := rfl
@[simp] theorem State.wr_landings (a : Nat) (v : Word) : (s.wr a v).landings = s.landings := rfl
@[simp] theorem State.wr_mxes (a : Nat) (v : Word) : (s.wr a v).mxes = s.mxes := rfl
@[simp] theorem State.wr_gates (a : Nat) (v : Word) : (s.wr a v).gates = s.gates := rfl
@[simp] theorem State.wr_links (a : Nat) (v : Word) : (s.wr a v).links = s.links := rfl
@[simp] theorem State.wr_fab (a : Nat) (v : Word) : (s.wr a v).fab = s.fab := rfl
@[simp] theorem State.wr_nextUid (a : Nat) (v : Word) : (s.wr a v).nextUid = s.nextUid := rfl
@[simp] theorem State.wr_ports (a : Nat) (v : Word) : (s.wr a v).ports = s.ports := rfl
@[simp] theorem State.wr_dmas (a : Nat) (v : Word) : (s.wr a v).dmas = s.dmas := rfl
@[simp] theorem State.wr_badBridges (a : Nat) (v : Word) : (s.wr a v).badBridges = s.badBridges := rfl
@[simp] theorem State.wr_wheels (a : Nat) (v : Word) : (s.wr a v).wheels = s.wheels := rfl
@[simp] theorem State.wr_loads (a : Nat) (v : Word) : (s.wr a v).loads = s.loads := rfl
@[simp] theorem State.wr_mgt (a : Nat) (v : Word) : (s.wr a v).mgt = s.mgt := rfl
@[simp] theorem State.wr_ftm (a : Nat) (v : Word) : (s.wr a v).ftm = s.ftm := rfl
@[simp] theorem State.wr_evr (a : Nat) (v : Word) : (s.wr a v).evr = s.evr := rfl
@[simp] theorem State.wr_boot (a : Nat) (v : Word) : (s.wr a v).boot = s.boot := rfl
@[simp] theorem State.wr_pwr (a : Nat) (v : Word) : (s.wr a v).pwr = s.pwr := rfl
@[simp] theorem State.wr_tap (a : Nat) (v : Word) : (s.wr a v).tap = s.tap := rfl
@[simp] theorem State.wr_eventReceiver (a : Nat) (v : Word) : (s.wr a v).eventReceiver = s.eventReceiver := rfl
@[simp] theorem State.wr_out (a : Nat) (v : Word) : (s.wr a v).out = s.out := rfl
@[simp] theorem State.wr_freeCtr (a : Nat) (v : Word) : (s.wr a v).freeCtr = s.freeCtr := rfl
@[simp] theorem State.wr_pending (a : Nat) (v : Word) : (s.wr a v).pending = s.pending := rfl

/-! ### `set` changes `regs` alone -/

@[simp] theorem State.set_mem (f : FRef) (v : Nat) : (s.set f v).mem = s.mem := rfl
@[simp] theorem State.set_poison (f : FRef) (v : Nat) : (s.set f v).poison = s.poison := rfl
@[simp] theorem State.set_errs (f : FRef) (v : Nat) : (s.set f v).errs = s.errs := rfl
@[simp] theorem State.set_rowErr (f : FRef) (v : Nat) : (s.set f v).rowErr = s.rowErr := rfl
@[simp] theorem State.set_seedPend (f : FRef) (v : Nat) : (s.set f v).seedPend = s.seedPend := rfl
@[simp] theorem State.set_imem (f : FRef) (v : Nat) : (s.set f v).imem = s.imem := rfl
@[simp] theorem State.set_ques (f : FRef) (v : Nat) : (s.set f v).ques = s.ques := rfl
@[simp] theorem State.set_banks (f : FRef) (v : Nat) : (s.set f v).banks = s.banks := rfl
@[simp] theorem State.set_landings (f : FRef) (v : Nat) : (s.set f v).landings = s.landings := rfl
@[simp] theorem State.set_mxes (f : FRef) (v : Nat) : (s.set f v).mxes = s.mxes := rfl
@[simp] theorem State.set_gates (f : FRef) (v : Nat) : (s.set f v).gates = s.gates := rfl
@[simp] theorem State.set_links (f : FRef) (v : Nat) : (s.set f v).links = s.links := rfl
@[simp] theorem State.set_fab (f : FRef) (v : Nat) : (s.set f v).fab = s.fab := rfl
@[simp] theorem State.set_nextUid (f : FRef) (v : Nat) : (s.set f v).nextUid = s.nextUid := rfl
@[simp] theorem State.set_ports (f : FRef) (v : Nat) : (s.set f v).ports = s.ports := rfl
@[simp] theorem State.set_dmas (f : FRef) (v : Nat) : (s.set f v).dmas = s.dmas := rfl
@[simp] theorem State.set_badBridges (f : FRef) (v : Nat) : (s.set f v).badBridges = s.badBridges := rfl
@[simp] theorem State.set_wheels (f : FRef) (v : Nat) : (s.set f v).wheels = s.wheels := rfl
@[simp] theorem State.set_loads (f : FRef) (v : Nat) : (s.set f v).loads = s.loads := rfl
@[simp] theorem State.set_mgt (f : FRef) (v : Nat) : (s.set f v).mgt = s.mgt := rfl
@[simp] theorem State.set_ftm (f : FRef) (v : Nat) : (s.set f v).ftm = s.ftm := rfl
@[simp] theorem State.set_evr (f : FRef) (v : Nat) : (s.set f v).evr = s.evr := rfl
@[simp] theorem State.set_boot (f : FRef) (v : Nat) : (s.set f v).boot = s.boot := rfl
@[simp] theorem State.set_pwr (f : FRef) (v : Nat) : (s.set f v).pwr = s.pwr := rfl
@[simp] theorem State.set_tap (f : FRef) (v : Nat) : (s.set f v).tap = s.tap := rfl
@[simp] theorem State.set_eventReceiver (f : FRef) (v : Nat) : (s.set f v).eventReceiver = s.eventReceiver := rfl
@[simp] theorem State.set_out (f : FRef) (v : Nat) : (s.set f v).out = s.out := rfl
@[simp] theorem State.set_freeCtr (f : FRef) (v : Nat) : (s.set f v).freeCtr = s.freeCtr := rfl
@[simp] theorem State.set_pending (f : FRef) (v : Nat) : (s.set f v).pending = s.pending := rfl

/-! ### `inc` changes `regs` alone -/

@[simp] theorem State.inc_mem (f : FRef) (n : Nat) : (s.inc f n).mem = s.mem := rfl
@[simp] theorem State.inc_poison (f : FRef) (n : Nat) : (s.inc f n).poison = s.poison := rfl
@[simp] theorem State.inc_errs (f : FRef) (n : Nat) : (s.inc f n).errs = s.errs := rfl
@[simp] theorem State.inc_rowErr (f : FRef) (n : Nat) : (s.inc f n).rowErr = s.rowErr := rfl
@[simp] theorem State.inc_seedPend (f : FRef) (n : Nat) : (s.inc f n).seedPend = s.seedPend := rfl
@[simp] theorem State.inc_imem (f : FRef) (n : Nat) : (s.inc f n).imem = s.imem := rfl
@[simp] theorem State.inc_ques (f : FRef) (n : Nat) : (s.inc f n).ques = s.ques := rfl
@[simp] theorem State.inc_banks (f : FRef) (n : Nat) : (s.inc f n).banks = s.banks := rfl
@[simp] theorem State.inc_landings (f : FRef) (n : Nat) : (s.inc f n).landings = s.landings := rfl
@[simp] theorem State.inc_mxes (f : FRef) (n : Nat) : (s.inc f n).mxes = s.mxes := rfl
@[simp] theorem State.inc_gates (f : FRef) (n : Nat) : (s.inc f n).gates = s.gates := rfl
@[simp] theorem State.inc_links (f : FRef) (n : Nat) : (s.inc f n).links = s.links := rfl
@[simp] theorem State.inc_fab (f : FRef) (n : Nat) : (s.inc f n).fab = s.fab := rfl
@[simp] theorem State.inc_nextUid (f : FRef) (n : Nat) : (s.inc f n).nextUid = s.nextUid := rfl
@[simp] theorem State.inc_ports (f : FRef) (n : Nat) : (s.inc f n).ports = s.ports := rfl
@[simp] theorem State.inc_dmas (f : FRef) (n : Nat) : (s.inc f n).dmas = s.dmas := rfl
@[simp] theorem State.inc_badBridges (f : FRef) (n : Nat) : (s.inc f n).badBridges = s.badBridges := rfl
@[simp] theorem State.inc_wheels (f : FRef) (n : Nat) : (s.inc f n).wheels = s.wheels := rfl
@[simp] theorem State.inc_loads (f : FRef) (n : Nat) : (s.inc f n).loads = s.loads := rfl
@[simp] theorem State.inc_mgt (f : FRef) (n : Nat) : (s.inc f n).mgt = s.mgt := rfl
@[simp] theorem State.inc_ftm (f : FRef) (n : Nat) : (s.inc f n).ftm = s.ftm := rfl
@[simp] theorem State.inc_evr (f : FRef) (n : Nat) : (s.inc f n).evr = s.evr := rfl
@[simp] theorem State.inc_boot (f : FRef) (n : Nat) : (s.inc f n).boot = s.boot := rfl
@[simp] theorem State.inc_pwr (f : FRef) (n : Nat) : (s.inc f n).pwr = s.pwr := rfl
@[simp] theorem State.inc_tap (f : FRef) (n : Nat) : (s.inc f n).tap = s.tap := rfl
@[simp] theorem State.inc_eventReceiver (f : FRef) (n : Nat) : (s.inc f n).eventReceiver = s.eventReceiver := rfl
@[simp] theorem State.inc_out (f : FRef) (n : Nat) : (s.inc f n).out = s.out := rfl
@[simp] theorem State.inc_freeCtr (f : FRef) (n : Nat) : (s.inc f n).freeCtr = s.freeCtr := rfl
@[simp] theorem State.inc_pending (f : FRef) (n : Nat) : (s.inc f n).pending = s.pending := rfl

/-! ### `incSat` changes `regs` alone -/

@[simp] theorem State.incSat_mem (f : FRef) (n : Nat) : (s.incSat f n).mem = s.mem := rfl
@[simp] theorem State.incSat_poison (f : FRef) (n : Nat) : (s.incSat f n).poison = s.poison := rfl
@[simp] theorem State.incSat_errs (f : FRef) (n : Nat) : (s.incSat f n).errs = s.errs := rfl
@[simp] theorem State.incSat_rowErr (f : FRef) (n : Nat) : (s.incSat f n).rowErr = s.rowErr := rfl
@[simp] theorem State.incSat_seedPend (f : FRef) (n : Nat) : (s.incSat f n).seedPend = s.seedPend := rfl
@[simp] theorem State.incSat_imem (f : FRef) (n : Nat) : (s.incSat f n).imem = s.imem := rfl
@[simp] theorem State.incSat_ques (f : FRef) (n : Nat) : (s.incSat f n).ques = s.ques := rfl
@[simp] theorem State.incSat_banks (f : FRef) (n : Nat) : (s.incSat f n).banks = s.banks := rfl
@[simp] theorem State.incSat_landings (f : FRef) (n : Nat) : (s.incSat f n).landings = s.landings := rfl
@[simp] theorem State.incSat_mxes (f : FRef) (n : Nat) : (s.incSat f n).mxes = s.mxes := rfl
@[simp] theorem State.incSat_gates (f : FRef) (n : Nat) : (s.incSat f n).gates = s.gates := rfl
@[simp] theorem State.incSat_links (f : FRef) (n : Nat) : (s.incSat f n).links = s.links := rfl
@[simp] theorem State.incSat_fab (f : FRef) (n : Nat) : (s.incSat f n).fab = s.fab := rfl
@[simp] theorem State.incSat_nextUid (f : FRef) (n : Nat) : (s.incSat f n).nextUid = s.nextUid := rfl
@[simp] theorem State.incSat_ports (f : FRef) (n : Nat) : (s.incSat f n).ports = s.ports := rfl
@[simp] theorem State.incSat_dmas (f : FRef) (n : Nat) : (s.incSat f n).dmas = s.dmas := rfl
@[simp] theorem State.incSat_badBridges (f : FRef) (n : Nat) : (s.incSat f n).badBridges = s.badBridges := rfl
@[simp] theorem State.incSat_wheels (f : FRef) (n : Nat) : (s.incSat f n).wheels = s.wheels := rfl
@[simp] theorem State.incSat_loads (f : FRef) (n : Nat) : (s.incSat f n).loads = s.loads := rfl
@[simp] theorem State.incSat_mgt (f : FRef) (n : Nat) : (s.incSat f n).mgt = s.mgt := rfl
@[simp] theorem State.incSat_ftm (f : FRef) (n : Nat) : (s.incSat f n).ftm = s.ftm := rfl
@[simp] theorem State.incSat_evr (f : FRef) (n : Nat) : (s.incSat f n).evr = s.evr := rfl
@[simp] theorem State.incSat_boot (f : FRef) (n : Nat) : (s.incSat f n).boot = s.boot := rfl
@[simp] theorem State.incSat_pwr (f : FRef) (n : Nat) : (s.incSat f n).pwr = s.pwr := rfl
@[simp] theorem State.incSat_tap (f : FRef) (n : Nat) : (s.incSat f n).tap = s.tap := rfl
@[simp] theorem State.incSat_eventReceiver (f : FRef) (n : Nat) : (s.incSat f n).eventReceiver = s.eventReceiver := rfl
@[simp] theorem State.incSat_out (f : FRef) (n : Nat) : (s.incSat f n).out = s.out := rfl
@[simp] theorem State.incSat_freeCtr (f : FRef) (n : Nat) : (s.incSat f n).freeCtr = s.freeCtr := rfl
@[simp] theorem State.incSat_pending (f : FRef) (n : Nat) : (s.incSat f n).pending = s.pending := rfl

/-! ### `resetRegs` changes `regs` alone -/

@[simp] theorem State.resetRegs_mem (lo n : Nat) : (s.resetRegs lo n).mem = s.mem := rfl
@[simp] theorem State.resetRegs_poison (lo n : Nat) : (s.resetRegs lo n).poison = s.poison := rfl
@[simp] theorem State.resetRegs_errs (lo n : Nat) : (s.resetRegs lo n).errs = s.errs := rfl
@[simp] theorem State.resetRegs_rowErr (lo n : Nat) : (s.resetRegs lo n).rowErr = s.rowErr := rfl
@[simp] theorem State.resetRegs_seedPend (lo n : Nat) : (s.resetRegs lo n).seedPend = s.seedPend := rfl
@[simp] theorem State.resetRegs_imem (lo n : Nat) : (s.resetRegs lo n).imem = s.imem := rfl
@[simp] theorem State.resetRegs_ques (lo n : Nat) : (s.resetRegs lo n).ques = s.ques := rfl
@[simp] theorem State.resetRegs_banks (lo n : Nat) : (s.resetRegs lo n).banks = s.banks := rfl
@[simp] theorem State.resetRegs_landings (lo n : Nat) : (s.resetRegs lo n).landings = s.landings := rfl
@[simp] theorem State.resetRegs_mxes (lo n : Nat) : (s.resetRegs lo n).mxes = s.mxes := rfl
@[simp] theorem State.resetRegs_gates (lo n : Nat) : (s.resetRegs lo n).gates = s.gates := rfl
@[simp] theorem State.resetRegs_links (lo n : Nat) : (s.resetRegs lo n).links = s.links := rfl
@[simp] theorem State.resetRegs_fab (lo n : Nat) : (s.resetRegs lo n).fab = s.fab := rfl
@[simp] theorem State.resetRegs_nextUid (lo n : Nat) : (s.resetRegs lo n).nextUid = s.nextUid := rfl
@[simp] theorem State.resetRegs_ports (lo n : Nat) : (s.resetRegs lo n).ports = s.ports := rfl
@[simp] theorem State.resetRegs_dmas (lo n : Nat) : (s.resetRegs lo n).dmas = s.dmas := rfl
@[simp] theorem State.resetRegs_badBridges (lo n : Nat) : (s.resetRegs lo n).badBridges = s.badBridges := rfl
@[simp] theorem State.resetRegs_wheels (lo n : Nat) : (s.resetRegs lo n).wheels = s.wheels := rfl
@[simp] theorem State.resetRegs_loads (lo n : Nat) : (s.resetRegs lo n).loads = s.loads := rfl
@[simp] theorem State.resetRegs_mgt (lo n : Nat) : (s.resetRegs lo n).mgt = s.mgt := rfl
@[simp] theorem State.resetRegs_ftm (lo n : Nat) : (s.resetRegs lo n).ftm = s.ftm := rfl
@[simp] theorem State.resetRegs_evr (lo n : Nat) : (s.resetRegs lo n).evr = s.evr := rfl
@[simp] theorem State.resetRegs_boot (lo n : Nat) : (s.resetRegs lo n).boot = s.boot := rfl
@[simp] theorem State.resetRegs_pwr (lo n : Nat) : (s.resetRegs lo n).pwr = s.pwr := rfl
@[simp] theorem State.resetRegs_tap (lo n : Nat) : (s.resetRegs lo n).tap = s.tap := rfl
@[simp] theorem State.resetRegs_eventReceiver (lo n : Nat) : (s.resetRegs lo n).eventReceiver = s.eventReceiver := rfl
@[simp] theorem State.resetRegs_out (lo n : Nat) : (s.resetRegs lo n).out = s.out := rfl
@[simp] theorem State.resetRegs_freeCtr (lo n : Nat) : (s.resetRegs lo n).freeCtr = s.freeCtr := rfl
@[simp] theorem State.resetRegs_pending (lo n : Nat) : (s.resetRegs lo n).pending = s.pending := rfl

/-! ### `setQue` changes `ques` alone -/

@[simp] theorem State.setQue_regs (q : Nat) (v : QueSt) : (s.setQue q v).regs = s.regs := rfl
@[simp] theorem State.setQue_mem (q : Nat) (v : QueSt) : (s.setQue q v).mem = s.mem := rfl
@[simp] theorem State.setQue_poison (q : Nat) (v : QueSt) : (s.setQue q v).poison = s.poison := rfl
@[simp] theorem State.setQue_errs (q : Nat) (v : QueSt) : (s.setQue q v).errs = s.errs := rfl
@[simp] theorem State.setQue_rowErr (q : Nat) (v : QueSt) : (s.setQue q v).rowErr = s.rowErr := rfl
@[simp] theorem State.setQue_seedPend (q : Nat) (v : QueSt) : (s.setQue q v).seedPend = s.seedPend := rfl
@[simp] theorem State.setQue_imem (q : Nat) (v : QueSt) : (s.setQue q v).imem = s.imem := rfl
@[simp] theorem State.setQue_banks (q : Nat) (v : QueSt) : (s.setQue q v).banks = s.banks := rfl
@[simp] theorem State.setQue_landings (q : Nat) (v : QueSt) : (s.setQue q v).landings = s.landings := rfl
@[simp] theorem State.setQue_mxes (q : Nat) (v : QueSt) : (s.setQue q v).mxes = s.mxes := rfl
@[simp] theorem State.setQue_gates (q : Nat) (v : QueSt) : (s.setQue q v).gates = s.gates := rfl
@[simp] theorem State.setQue_links (q : Nat) (v : QueSt) : (s.setQue q v).links = s.links := rfl
@[simp] theorem State.setQue_fab (q : Nat) (v : QueSt) : (s.setQue q v).fab = s.fab := rfl
@[simp] theorem State.setQue_nextUid (q : Nat) (v : QueSt) : (s.setQue q v).nextUid = s.nextUid := rfl
@[simp] theorem State.setQue_ports (q : Nat) (v : QueSt) : (s.setQue q v).ports = s.ports := rfl
@[simp] theorem State.setQue_dmas (q : Nat) (v : QueSt) : (s.setQue q v).dmas = s.dmas := rfl
@[simp] theorem State.setQue_badBridges (q : Nat) (v : QueSt) : (s.setQue q v).badBridges = s.badBridges := rfl
@[simp] theorem State.setQue_wheels (q : Nat) (v : QueSt) : (s.setQue q v).wheels = s.wheels := rfl
@[simp] theorem State.setQue_loads (q : Nat) (v : QueSt) : (s.setQue q v).loads = s.loads := rfl
@[simp] theorem State.setQue_mgt (q : Nat) (v : QueSt) : (s.setQue q v).mgt = s.mgt := rfl
@[simp] theorem State.setQue_ftm (q : Nat) (v : QueSt) : (s.setQue q v).ftm = s.ftm := rfl
@[simp] theorem State.setQue_evr (q : Nat) (v : QueSt) : (s.setQue q v).evr = s.evr := rfl
@[simp] theorem State.setQue_boot (q : Nat) (v : QueSt) : (s.setQue q v).boot = s.boot := rfl
@[simp] theorem State.setQue_pwr (q : Nat) (v : QueSt) : (s.setQue q v).pwr = s.pwr := rfl
@[simp] theorem State.setQue_tap (q : Nat) (v : QueSt) : (s.setQue q v).tap = s.tap := rfl
@[simp] theorem State.setQue_eventReceiver (q : Nat) (v : QueSt) : (s.setQue q v).eventReceiver = s.eventReceiver := rfl
@[simp] theorem State.setQue_out (q : Nat) (v : QueSt) : (s.setQue q v).out = s.out := rfl
@[simp] theorem State.setQue_freeCtr (q : Nat) (v : QueSt) : (s.setQue q v).freeCtr = s.freeCtr := rfl
@[simp] theorem State.setQue_pending (q : Nat) (v : QueSt) : (s.setQue q v).pending = s.pending := rfl

/-! ### `setMxe` changes `mxes` alone -/

@[simp] theorem State.setMxe_regs (k : Nat) (v : MxSt) : (s.setMxe k v).regs = s.regs := rfl
@[simp] theorem State.setMxe_mem (k : Nat) (v : MxSt) : (s.setMxe k v).mem = s.mem := rfl
@[simp] theorem State.setMxe_poison (k : Nat) (v : MxSt) : (s.setMxe k v).poison = s.poison := rfl
@[simp] theorem State.setMxe_errs (k : Nat) (v : MxSt) : (s.setMxe k v).errs = s.errs := rfl
@[simp] theorem State.setMxe_rowErr (k : Nat) (v : MxSt) : (s.setMxe k v).rowErr = s.rowErr := rfl
@[simp] theorem State.setMxe_seedPend (k : Nat) (v : MxSt) : (s.setMxe k v).seedPend = s.seedPend := rfl
@[simp] theorem State.setMxe_imem (k : Nat) (v : MxSt) : (s.setMxe k v).imem = s.imem := rfl
@[simp] theorem State.setMxe_ques (k : Nat) (v : MxSt) : (s.setMxe k v).ques = s.ques := rfl
@[simp] theorem State.setMxe_banks (k : Nat) (v : MxSt) : (s.setMxe k v).banks = s.banks := rfl
@[simp] theorem State.setMxe_landings (k : Nat) (v : MxSt) : (s.setMxe k v).landings = s.landings := rfl
@[simp] theorem State.setMxe_gates (k : Nat) (v : MxSt) : (s.setMxe k v).gates = s.gates := rfl
@[simp] theorem State.setMxe_links (k : Nat) (v : MxSt) : (s.setMxe k v).links = s.links := rfl
@[simp] theorem State.setMxe_fab (k : Nat) (v : MxSt) : (s.setMxe k v).fab = s.fab := rfl
@[simp] theorem State.setMxe_nextUid (k : Nat) (v : MxSt) : (s.setMxe k v).nextUid = s.nextUid := rfl
@[simp] theorem State.setMxe_ports (k : Nat) (v : MxSt) : (s.setMxe k v).ports = s.ports := rfl
@[simp] theorem State.setMxe_dmas (k : Nat) (v : MxSt) : (s.setMxe k v).dmas = s.dmas := rfl
@[simp] theorem State.setMxe_badBridges (k : Nat) (v : MxSt) : (s.setMxe k v).badBridges = s.badBridges := rfl
@[simp] theorem State.setMxe_wheels (k : Nat) (v : MxSt) : (s.setMxe k v).wheels = s.wheels := rfl
@[simp] theorem State.setMxe_loads (k : Nat) (v : MxSt) : (s.setMxe k v).loads = s.loads := rfl
@[simp] theorem State.setMxe_mgt (k : Nat) (v : MxSt) : (s.setMxe k v).mgt = s.mgt := rfl
@[simp] theorem State.setMxe_ftm (k : Nat) (v : MxSt) : (s.setMxe k v).ftm = s.ftm := rfl
@[simp] theorem State.setMxe_evr (k : Nat) (v : MxSt) : (s.setMxe k v).evr = s.evr := rfl
@[simp] theorem State.setMxe_boot (k : Nat) (v : MxSt) : (s.setMxe k v).boot = s.boot := rfl
@[simp] theorem State.setMxe_pwr (k : Nat) (v : MxSt) : (s.setMxe k v).pwr = s.pwr := rfl
@[simp] theorem State.setMxe_tap (k : Nat) (v : MxSt) : (s.setMxe k v).tap = s.tap := rfl
@[simp] theorem State.setMxe_eventReceiver (k : Nat) (v : MxSt) : (s.setMxe k v).eventReceiver = s.eventReceiver := rfl
@[simp] theorem State.setMxe_out (k : Nat) (v : MxSt) : (s.setMxe k v).out = s.out := rfl
@[simp] theorem State.setMxe_freeCtr (k : Nat) (v : MxSt) : (s.setMxe k v).freeCtr = s.freeCtr := rfl
@[simp] theorem State.setMxe_pending (k : Nat) (v : MxSt) : (s.setMxe k v).pending = s.pending := rfl

/-! ### `setGate` changes `gates` alone -/

@[simp] theorem State.setGate_regs (t : Nat) (v : GateSt) : (s.setGate t v).regs = s.regs := rfl
@[simp] theorem State.setGate_mem (t : Nat) (v : GateSt) : (s.setGate t v).mem = s.mem := rfl
@[simp] theorem State.setGate_poison (t : Nat) (v : GateSt) : (s.setGate t v).poison = s.poison := rfl
@[simp] theorem State.setGate_errs (t : Nat) (v : GateSt) : (s.setGate t v).errs = s.errs := rfl
@[simp] theorem State.setGate_rowErr (t : Nat) (v : GateSt) : (s.setGate t v).rowErr = s.rowErr := rfl
@[simp] theorem State.setGate_seedPend (t : Nat) (v : GateSt) : (s.setGate t v).seedPend = s.seedPend := rfl
@[simp] theorem State.setGate_imem (t : Nat) (v : GateSt) : (s.setGate t v).imem = s.imem := rfl
@[simp] theorem State.setGate_ques (t : Nat) (v : GateSt) : (s.setGate t v).ques = s.ques := rfl
@[simp] theorem State.setGate_banks (t : Nat) (v : GateSt) : (s.setGate t v).banks = s.banks := rfl
@[simp] theorem State.setGate_landings (t : Nat) (v : GateSt) : (s.setGate t v).landings = s.landings := rfl
@[simp] theorem State.setGate_mxes (t : Nat) (v : GateSt) : (s.setGate t v).mxes = s.mxes := rfl
@[simp] theorem State.setGate_links (t : Nat) (v : GateSt) : (s.setGate t v).links = s.links := rfl
@[simp] theorem State.setGate_fab (t : Nat) (v : GateSt) : (s.setGate t v).fab = s.fab := rfl
@[simp] theorem State.setGate_nextUid (t : Nat) (v : GateSt) : (s.setGate t v).nextUid = s.nextUid := rfl
@[simp] theorem State.setGate_ports (t : Nat) (v : GateSt) : (s.setGate t v).ports = s.ports := rfl
@[simp] theorem State.setGate_dmas (t : Nat) (v : GateSt) : (s.setGate t v).dmas = s.dmas := rfl
@[simp] theorem State.setGate_badBridges (t : Nat) (v : GateSt) : (s.setGate t v).badBridges = s.badBridges := rfl
@[simp] theorem State.setGate_wheels (t : Nat) (v : GateSt) : (s.setGate t v).wheels = s.wheels := rfl
@[simp] theorem State.setGate_loads (t : Nat) (v : GateSt) : (s.setGate t v).loads = s.loads := rfl
@[simp] theorem State.setGate_mgt (t : Nat) (v : GateSt) : (s.setGate t v).mgt = s.mgt := rfl
@[simp] theorem State.setGate_ftm (t : Nat) (v : GateSt) : (s.setGate t v).ftm = s.ftm := rfl
@[simp] theorem State.setGate_evr (t : Nat) (v : GateSt) : (s.setGate t v).evr = s.evr := rfl
@[simp] theorem State.setGate_boot (t : Nat) (v : GateSt) : (s.setGate t v).boot = s.boot := rfl
@[simp] theorem State.setGate_pwr (t : Nat) (v : GateSt) : (s.setGate t v).pwr = s.pwr := rfl
@[simp] theorem State.setGate_tap (t : Nat) (v : GateSt) : (s.setGate t v).tap = s.tap := rfl
@[simp] theorem State.setGate_eventReceiver (t : Nat) (v : GateSt) : (s.setGate t v).eventReceiver = s.eventReceiver := rfl
@[simp] theorem State.setGate_out (t : Nat) (v : GateSt) : (s.setGate t v).out = s.out := rfl
@[simp] theorem State.setGate_freeCtr (t : Nat) (v : GateSt) : (s.setGate t v).freeCtr = s.freeCtr := rfl
@[simp] theorem State.setGate_pending (t : Nat) (v : GateSt) : (s.setGate t v).pending = s.pending := rfl

/-! ### `setPort` changes `ports` alone -/

@[simp] theorem State.setPort_regs (p : Nat) (v : PortSt) : (s.setPort p v).regs = s.regs := rfl
@[simp] theorem State.setPort_mem (p : Nat) (v : PortSt) : (s.setPort p v).mem = s.mem := rfl
@[simp] theorem State.setPort_poison (p : Nat) (v : PortSt) : (s.setPort p v).poison = s.poison := rfl
@[simp] theorem State.setPort_errs (p : Nat) (v : PortSt) : (s.setPort p v).errs = s.errs := rfl
@[simp] theorem State.setPort_rowErr (p : Nat) (v : PortSt) : (s.setPort p v).rowErr = s.rowErr := rfl
@[simp] theorem State.setPort_seedPend (p : Nat) (v : PortSt) : (s.setPort p v).seedPend = s.seedPend := rfl
@[simp] theorem State.setPort_imem (p : Nat) (v : PortSt) : (s.setPort p v).imem = s.imem := rfl
@[simp] theorem State.setPort_ques (p : Nat) (v : PortSt) : (s.setPort p v).ques = s.ques := rfl
@[simp] theorem State.setPort_banks (p : Nat) (v : PortSt) : (s.setPort p v).banks = s.banks := rfl
@[simp] theorem State.setPort_landings (p : Nat) (v : PortSt) : (s.setPort p v).landings = s.landings := rfl
@[simp] theorem State.setPort_mxes (p : Nat) (v : PortSt) : (s.setPort p v).mxes = s.mxes := rfl
@[simp] theorem State.setPort_gates (p : Nat) (v : PortSt) : (s.setPort p v).gates = s.gates := rfl
@[simp] theorem State.setPort_links (p : Nat) (v : PortSt) : (s.setPort p v).links = s.links := rfl
@[simp] theorem State.setPort_fab (p : Nat) (v : PortSt) : (s.setPort p v).fab = s.fab := rfl
@[simp] theorem State.setPort_nextUid (p : Nat) (v : PortSt) : (s.setPort p v).nextUid = s.nextUid := rfl
@[simp] theorem State.setPort_dmas (p : Nat) (v : PortSt) : (s.setPort p v).dmas = s.dmas := rfl
@[simp] theorem State.setPort_badBridges (p : Nat) (v : PortSt) : (s.setPort p v).badBridges = s.badBridges := rfl
@[simp] theorem State.setPort_wheels (p : Nat) (v : PortSt) : (s.setPort p v).wheels = s.wheels := rfl
@[simp] theorem State.setPort_loads (p : Nat) (v : PortSt) : (s.setPort p v).loads = s.loads := rfl
@[simp] theorem State.setPort_mgt (p : Nat) (v : PortSt) : (s.setPort p v).mgt = s.mgt := rfl
@[simp] theorem State.setPort_ftm (p : Nat) (v : PortSt) : (s.setPort p v).ftm = s.ftm := rfl
@[simp] theorem State.setPort_evr (p : Nat) (v : PortSt) : (s.setPort p v).evr = s.evr := rfl
@[simp] theorem State.setPort_boot (p : Nat) (v : PortSt) : (s.setPort p v).boot = s.boot := rfl
@[simp] theorem State.setPort_pwr (p : Nat) (v : PortSt) : (s.setPort p v).pwr = s.pwr := rfl
@[simp] theorem State.setPort_tap (p : Nat) (v : PortSt) : (s.setPort p v).tap = s.tap := rfl
@[simp] theorem State.setPort_eventReceiver (p : Nat) (v : PortSt) : (s.setPort p v).eventReceiver = s.eventReceiver := rfl
@[simp] theorem State.setPort_out (p : Nat) (v : PortSt) : (s.setPort p v).out = s.out := rfl
@[simp] theorem State.setPort_freeCtr (p : Nat) (v : PortSt) : (s.setPort p v).freeCtr = s.freeCtr := rfl
@[simp] theorem State.setPort_pending (p : Nat) (v : PortSt) : (s.setPort p v).pending = s.pending := rfl

/-! ### `setWheel` changes `wheels` alone -/

@[simp] theorem State.setWheel_regs (a : Nat) (w : WheelSt) : (s.setWheel a w).regs = s.regs := rfl
@[simp] theorem State.setWheel_mem (a : Nat) (w : WheelSt) : (s.setWheel a w).mem = s.mem := rfl
@[simp] theorem State.setWheel_poison (a : Nat) (w : WheelSt) : (s.setWheel a w).poison = s.poison := rfl
@[simp] theorem State.setWheel_errs (a : Nat) (w : WheelSt) : (s.setWheel a w).errs = s.errs := rfl
@[simp] theorem State.setWheel_rowErr (a : Nat) (w : WheelSt) : (s.setWheel a w).rowErr = s.rowErr := rfl
@[simp] theorem State.setWheel_seedPend (a : Nat) (w : WheelSt) : (s.setWheel a w).seedPend = s.seedPend := rfl
@[simp] theorem State.setWheel_imem (a : Nat) (w : WheelSt) : (s.setWheel a w).imem = s.imem := rfl
@[simp] theorem State.setWheel_ques (a : Nat) (w : WheelSt) : (s.setWheel a w).ques = s.ques := rfl
@[simp] theorem State.setWheel_banks (a : Nat) (w : WheelSt) : (s.setWheel a w).banks = s.banks := rfl
@[simp] theorem State.setWheel_landings (a : Nat) (w : WheelSt) : (s.setWheel a w).landings = s.landings := rfl
@[simp] theorem State.setWheel_mxes (a : Nat) (w : WheelSt) : (s.setWheel a w).mxes = s.mxes := rfl
@[simp] theorem State.setWheel_gates (a : Nat) (w : WheelSt) : (s.setWheel a w).gates = s.gates := rfl
@[simp] theorem State.setWheel_links (a : Nat) (w : WheelSt) : (s.setWheel a w).links = s.links := rfl
@[simp] theorem State.setWheel_fab (a : Nat) (w : WheelSt) : (s.setWheel a w).fab = s.fab := rfl
@[simp] theorem State.setWheel_nextUid (a : Nat) (w : WheelSt) : (s.setWheel a w).nextUid = s.nextUid := rfl
@[simp] theorem State.setWheel_ports (a : Nat) (w : WheelSt) : (s.setWheel a w).ports = s.ports := rfl
@[simp] theorem State.setWheel_dmas (a : Nat) (w : WheelSt) : (s.setWheel a w).dmas = s.dmas := rfl
@[simp] theorem State.setWheel_badBridges (a : Nat) (w : WheelSt) : (s.setWheel a w).badBridges = s.badBridges := rfl
@[simp] theorem State.setWheel_loads (a : Nat) (w : WheelSt) : (s.setWheel a w).loads = s.loads := rfl
@[simp] theorem State.setWheel_mgt (a : Nat) (w : WheelSt) : (s.setWheel a w).mgt = s.mgt := rfl
@[simp] theorem State.setWheel_ftm (a : Nat) (w : WheelSt) : (s.setWheel a w).ftm = s.ftm := rfl
@[simp] theorem State.setWheel_evr (a : Nat) (w : WheelSt) : (s.setWheel a w).evr = s.evr := rfl
@[simp] theorem State.setWheel_boot (a : Nat) (w : WheelSt) : (s.setWheel a w).boot = s.boot := rfl
@[simp] theorem State.setWheel_pwr (a : Nat) (w : WheelSt) : (s.setWheel a w).pwr = s.pwr := rfl
@[simp] theorem State.setWheel_tap (a : Nat) (w : WheelSt) : (s.setWheel a w).tap = s.tap := rfl
@[simp] theorem State.setWheel_eventReceiver (a : Nat) (w : WheelSt) : (s.setWheel a w).eventReceiver = s.eventReceiver := rfl
@[simp] theorem State.setWheel_out (a : Nat) (w : WheelSt) : (s.setWheel a w).out = s.out := rfl
@[simp] theorem State.setWheel_freeCtr (a : Nat) (w : WheelSt) : (s.setWheel a w).freeCtr = s.freeCtr := rfl
@[simp] theorem State.setWheel_pending (a : Nat) (w : WheelSt) : (s.setWheel a w).pending = s.pending := rfl

/-! ### `setDma` changes `dmas` alone -/

@[simp] theorem State.setDma_regs (p c : Nat) (j : DmaJob) : (s.setDma p c j).regs = s.regs := rfl
@[simp] theorem State.setDma_mem (p c : Nat) (j : DmaJob) : (s.setDma p c j).mem = s.mem := rfl
@[simp] theorem State.setDma_poison (p c : Nat) (j : DmaJob) : (s.setDma p c j).poison = s.poison := rfl
@[simp] theorem State.setDma_errs (p c : Nat) (j : DmaJob) : (s.setDma p c j).errs = s.errs := rfl
@[simp] theorem State.setDma_rowErr (p c : Nat) (j : DmaJob) : (s.setDma p c j).rowErr = s.rowErr := rfl
@[simp] theorem State.setDma_seedPend (p c : Nat) (j : DmaJob) : (s.setDma p c j).seedPend = s.seedPend := rfl
@[simp] theorem State.setDma_imem (p c : Nat) (j : DmaJob) : (s.setDma p c j).imem = s.imem := rfl
@[simp] theorem State.setDma_ques (p c : Nat) (j : DmaJob) : (s.setDma p c j).ques = s.ques := rfl
@[simp] theorem State.setDma_banks (p c : Nat) (j : DmaJob) : (s.setDma p c j).banks = s.banks := rfl
@[simp] theorem State.setDma_landings (p c : Nat) (j : DmaJob) : (s.setDma p c j).landings = s.landings := rfl
@[simp] theorem State.setDma_mxes (p c : Nat) (j : DmaJob) : (s.setDma p c j).mxes = s.mxes := rfl
@[simp] theorem State.setDma_gates (p c : Nat) (j : DmaJob) : (s.setDma p c j).gates = s.gates := rfl
@[simp] theorem State.setDma_links (p c : Nat) (j : DmaJob) : (s.setDma p c j).links = s.links := rfl
@[simp] theorem State.setDma_fab (p c : Nat) (j : DmaJob) : (s.setDma p c j).fab = s.fab := rfl
@[simp] theorem State.setDma_nextUid (p c : Nat) (j : DmaJob) : (s.setDma p c j).nextUid = s.nextUid := rfl
@[simp] theorem State.setDma_ports (p c : Nat) (j : DmaJob) : (s.setDma p c j).ports = s.ports := rfl
@[simp] theorem State.setDma_badBridges (p c : Nat) (j : DmaJob) : (s.setDma p c j).badBridges = s.badBridges := rfl
@[simp] theorem State.setDma_wheels (p c : Nat) (j : DmaJob) : (s.setDma p c j).wheels = s.wheels := rfl
@[simp] theorem State.setDma_loads (p c : Nat) (j : DmaJob) : (s.setDma p c j).loads = s.loads := rfl
@[simp] theorem State.setDma_mgt (p c : Nat) (j : DmaJob) : (s.setDma p c j).mgt = s.mgt := rfl
@[simp] theorem State.setDma_ftm (p c : Nat) (j : DmaJob) : (s.setDma p c j).ftm = s.ftm := rfl
@[simp] theorem State.setDma_evr (p c : Nat) (j : DmaJob) : (s.setDma p c j).evr = s.evr := rfl
@[simp] theorem State.setDma_boot (p c : Nat) (j : DmaJob) : (s.setDma p c j).boot = s.boot := rfl
@[simp] theorem State.setDma_pwr (p c : Nat) (j : DmaJob) : (s.setDma p c j).pwr = s.pwr := rfl
@[simp] theorem State.setDma_tap (p c : Nat) (j : DmaJob) : (s.setDma p c j).tap = s.tap := rfl
@[simp] theorem State.setDma_eventReceiver (p c : Nat) (j : DmaJob) : (s.setDma p c j).eventReceiver = s.eventReceiver := rfl
@[simp] theorem State.setDma_out (p c : Nat) (j : DmaJob) : (s.setDma p c j).out = s.out := rfl
@[simp] theorem State.setDma_freeCtr (p c : Nat) (j : DmaJob) : (s.setDma p c j).freeCtr = s.freeCtr := rfl
@[simp] theorem State.setDma_pending (p c : Nat) (j : DmaJob) : (s.setDma p c j).pending = s.pending := rfl

/-! ### `setLink` changes `links` alone -/

@[simp] theorem State.setLink_regs (n : Nat) (v : LinkSt) : (s.setLink n v).regs = s.regs := rfl
@[simp] theorem State.setLink_mem (n : Nat) (v : LinkSt) : (s.setLink n v).mem = s.mem := rfl
@[simp] theorem State.setLink_poison (n : Nat) (v : LinkSt) : (s.setLink n v).poison = s.poison := rfl
@[simp] theorem State.setLink_errs (n : Nat) (v : LinkSt) : (s.setLink n v).errs = s.errs := rfl
@[simp] theorem State.setLink_rowErr (n : Nat) (v : LinkSt) : (s.setLink n v).rowErr = s.rowErr := rfl
@[simp] theorem State.setLink_seedPend (n : Nat) (v : LinkSt) : (s.setLink n v).seedPend = s.seedPend := rfl
@[simp] theorem State.setLink_imem (n : Nat) (v : LinkSt) : (s.setLink n v).imem = s.imem := rfl
@[simp] theorem State.setLink_ques (n : Nat) (v : LinkSt) : (s.setLink n v).ques = s.ques := rfl
@[simp] theorem State.setLink_banks (n : Nat) (v : LinkSt) : (s.setLink n v).banks = s.banks := rfl
@[simp] theorem State.setLink_landings (n : Nat) (v : LinkSt) : (s.setLink n v).landings = s.landings := rfl
@[simp] theorem State.setLink_mxes (n : Nat) (v : LinkSt) : (s.setLink n v).mxes = s.mxes := rfl
@[simp] theorem State.setLink_gates (n : Nat) (v : LinkSt) : (s.setLink n v).gates = s.gates := rfl
@[simp] theorem State.setLink_fab (n : Nat) (v : LinkSt) : (s.setLink n v).fab = s.fab := rfl
@[simp] theorem State.setLink_nextUid (n : Nat) (v : LinkSt) : (s.setLink n v).nextUid = s.nextUid := rfl
@[simp] theorem State.setLink_ports (n : Nat) (v : LinkSt) : (s.setLink n v).ports = s.ports := rfl
@[simp] theorem State.setLink_dmas (n : Nat) (v : LinkSt) : (s.setLink n v).dmas = s.dmas := rfl
@[simp] theorem State.setLink_badBridges (n : Nat) (v : LinkSt) : (s.setLink n v).badBridges = s.badBridges := rfl
@[simp] theorem State.setLink_wheels (n : Nat) (v : LinkSt) : (s.setLink n v).wheels = s.wheels := rfl
@[simp] theorem State.setLink_loads (n : Nat) (v : LinkSt) : (s.setLink n v).loads = s.loads := rfl
@[simp] theorem State.setLink_mgt (n : Nat) (v : LinkSt) : (s.setLink n v).mgt = s.mgt := rfl
@[simp] theorem State.setLink_ftm (n : Nat) (v : LinkSt) : (s.setLink n v).ftm = s.ftm := rfl
@[simp] theorem State.setLink_evr (n : Nat) (v : LinkSt) : (s.setLink n v).evr = s.evr := rfl
@[simp] theorem State.setLink_boot (n : Nat) (v : LinkSt) : (s.setLink n v).boot = s.boot := rfl
@[simp] theorem State.setLink_pwr (n : Nat) (v : LinkSt) : (s.setLink n v).pwr = s.pwr := rfl
@[simp] theorem State.setLink_tap (n : Nat) (v : LinkSt) : (s.setLink n v).tap = s.tap := rfl
@[simp] theorem State.setLink_eventReceiver (n : Nat) (v : LinkSt) : (s.setLink n v).eventReceiver = s.eventReceiver := rfl
@[simp] theorem State.setLink_out (n : Nat) (v : LinkSt) : (s.setLink n v).out = s.out := rfl
@[simp] theorem State.setLink_freeCtr (n : Nat) (v : LinkSt) : (s.setLink n v).freeCtr = s.freeCtr := rfl
@[simp] theorem State.setLink_pending (n : Nat) (v : LinkSt) : (s.setLink n v).pending = s.pending := rfl

/-! ### `setFab` changes `fab` alone -/

@[simp] theorem State.setFab_regs (f : FabSt) : (s.setFab f).regs = s.regs := rfl
@[simp] theorem State.setFab_mem (f : FabSt) : (s.setFab f).mem = s.mem := rfl
@[simp] theorem State.setFab_poison (f : FabSt) : (s.setFab f).poison = s.poison := rfl
@[simp] theorem State.setFab_errs (f : FabSt) : (s.setFab f).errs = s.errs := rfl
@[simp] theorem State.setFab_rowErr (f : FabSt) : (s.setFab f).rowErr = s.rowErr := rfl
@[simp] theorem State.setFab_seedPend (f : FabSt) : (s.setFab f).seedPend = s.seedPend := rfl
@[simp] theorem State.setFab_imem (f : FabSt) : (s.setFab f).imem = s.imem := rfl
@[simp] theorem State.setFab_ques (f : FabSt) : (s.setFab f).ques = s.ques := rfl
@[simp] theorem State.setFab_banks (f : FabSt) : (s.setFab f).banks = s.banks := rfl
@[simp] theorem State.setFab_landings (f : FabSt) : (s.setFab f).landings = s.landings := rfl
@[simp] theorem State.setFab_mxes (f : FabSt) : (s.setFab f).mxes = s.mxes := rfl
@[simp] theorem State.setFab_gates (f : FabSt) : (s.setFab f).gates = s.gates := rfl
@[simp] theorem State.setFab_links (f : FabSt) : (s.setFab f).links = s.links := rfl
@[simp] theorem State.setFab_nextUid (f : FabSt) : (s.setFab f).nextUid = s.nextUid := rfl
@[simp] theorem State.setFab_ports (f : FabSt) : (s.setFab f).ports = s.ports := rfl
@[simp] theorem State.setFab_dmas (f : FabSt) : (s.setFab f).dmas = s.dmas := rfl
@[simp] theorem State.setFab_badBridges (f : FabSt) : (s.setFab f).badBridges = s.badBridges := rfl
@[simp] theorem State.setFab_wheels (f : FabSt) : (s.setFab f).wheels = s.wheels := rfl
@[simp] theorem State.setFab_loads (f : FabSt) : (s.setFab f).loads = s.loads := rfl
@[simp] theorem State.setFab_mgt (f : FabSt) : (s.setFab f).mgt = s.mgt := rfl
@[simp] theorem State.setFab_ftm (f : FabSt) : (s.setFab f).ftm = s.ftm := rfl
@[simp] theorem State.setFab_evr (f : FabSt) : (s.setFab f).evr = s.evr := rfl
@[simp] theorem State.setFab_boot (f : FabSt) : (s.setFab f).boot = s.boot := rfl
@[simp] theorem State.setFab_pwr (f : FabSt) : (s.setFab f).pwr = s.pwr := rfl
@[simp] theorem State.setFab_tap (f : FabSt) : (s.setFab f).tap = s.tap := rfl
@[simp] theorem State.setFab_eventReceiver (f : FabSt) : (s.setFab f).eventReceiver = s.eventReceiver := rfl
@[simp] theorem State.setFab_out (f : FabSt) : (s.setFab f).out = s.out := rfl
@[simp] theorem State.setFab_freeCtr (f : FabSt) : (s.setFab f).freeCtr = s.freeCtr := rfl
@[simp] theorem State.setFab_pending (f : FabSt) : (s.setFab f).pending = s.pending := rfl

/-! ### `setLoad` changes `loads` alone -/

@[simp] theorem State.setLoad_regs (g : Nat) (j : LoadJob) : (s.setLoad g j).regs = s.regs := rfl
@[simp] theorem State.setLoad_mem (g : Nat) (j : LoadJob) : (s.setLoad g j).mem = s.mem := rfl
@[simp] theorem State.setLoad_poison (g : Nat) (j : LoadJob) : (s.setLoad g j).poison = s.poison := rfl
@[simp] theorem State.setLoad_errs (g : Nat) (j : LoadJob) : (s.setLoad g j).errs = s.errs := rfl
@[simp] theorem State.setLoad_rowErr (g : Nat) (j : LoadJob) : (s.setLoad g j).rowErr = s.rowErr := rfl
@[simp] theorem State.setLoad_seedPend (g : Nat) (j : LoadJob) : (s.setLoad g j).seedPend = s.seedPend := rfl
@[simp] theorem State.setLoad_imem (g : Nat) (j : LoadJob) : (s.setLoad g j).imem = s.imem := rfl
@[simp] theorem State.setLoad_ques (g : Nat) (j : LoadJob) : (s.setLoad g j).ques = s.ques := rfl
@[simp] theorem State.setLoad_banks (g : Nat) (j : LoadJob) : (s.setLoad g j).banks = s.banks := rfl
@[simp] theorem State.setLoad_landings (g : Nat) (j : LoadJob) : (s.setLoad g j).landings = s.landings := rfl
@[simp] theorem State.setLoad_mxes (g : Nat) (j : LoadJob) : (s.setLoad g j).mxes = s.mxes := rfl
@[simp] theorem State.setLoad_gates (g : Nat) (j : LoadJob) : (s.setLoad g j).gates = s.gates := rfl
@[simp] theorem State.setLoad_links (g : Nat) (j : LoadJob) : (s.setLoad g j).links = s.links := rfl
@[simp] theorem State.setLoad_fab (g : Nat) (j : LoadJob) : (s.setLoad g j).fab = s.fab := rfl
@[simp] theorem State.setLoad_nextUid (g : Nat) (j : LoadJob) : (s.setLoad g j).nextUid = s.nextUid := rfl
@[simp] theorem State.setLoad_ports (g : Nat) (j : LoadJob) : (s.setLoad g j).ports = s.ports := rfl
@[simp] theorem State.setLoad_dmas (g : Nat) (j : LoadJob) : (s.setLoad g j).dmas = s.dmas := rfl
@[simp] theorem State.setLoad_badBridges (g : Nat) (j : LoadJob) : (s.setLoad g j).badBridges = s.badBridges := rfl
@[simp] theorem State.setLoad_wheels (g : Nat) (j : LoadJob) : (s.setLoad g j).wheels = s.wheels := rfl
@[simp] theorem State.setLoad_mgt (g : Nat) (j : LoadJob) : (s.setLoad g j).mgt = s.mgt := rfl
@[simp] theorem State.setLoad_ftm (g : Nat) (j : LoadJob) : (s.setLoad g j).ftm = s.ftm := rfl
@[simp] theorem State.setLoad_evr (g : Nat) (j : LoadJob) : (s.setLoad g j).evr = s.evr := rfl
@[simp] theorem State.setLoad_boot (g : Nat) (j : LoadJob) : (s.setLoad g j).boot = s.boot := rfl
@[simp] theorem State.setLoad_pwr (g : Nat) (j : LoadJob) : (s.setLoad g j).pwr = s.pwr := rfl
@[simp] theorem State.setLoad_tap (g : Nat) (j : LoadJob) : (s.setLoad g j).tap = s.tap := rfl
@[simp] theorem State.setLoad_eventReceiver (g : Nat) (j : LoadJob) : (s.setLoad g j).eventReceiver = s.eventReceiver := rfl
@[simp] theorem State.setLoad_out (g : Nat) (j : LoadJob) : (s.setLoad g j).out = s.out := rfl
@[simp] theorem State.setLoad_freeCtr (g : Nat) (j : LoadJob) : (s.setLoad g j).freeCtr = s.freeCtr := rfl
@[simp] theorem State.setLoad_pending (g : Nat) (j : LoadJob) : (s.setLoad g j).pending = s.pending := rfl

/-! ### `setMgt` changes `mgt` alone -/

@[simp] theorem State.setMgt_regs (m : MgtSt) : (s.setMgt m).regs = s.regs := rfl
@[simp] theorem State.setMgt_mem (m : MgtSt) : (s.setMgt m).mem = s.mem := rfl
@[simp] theorem State.setMgt_poison (m : MgtSt) : (s.setMgt m).poison = s.poison := rfl
@[simp] theorem State.setMgt_errs (m : MgtSt) : (s.setMgt m).errs = s.errs := rfl
@[simp] theorem State.setMgt_rowErr (m : MgtSt) : (s.setMgt m).rowErr = s.rowErr := rfl
@[simp] theorem State.setMgt_seedPend (m : MgtSt) : (s.setMgt m).seedPend = s.seedPend := rfl
@[simp] theorem State.setMgt_imem (m : MgtSt) : (s.setMgt m).imem = s.imem := rfl
@[simp] theorem State.setMgt_ques (m : MgtSt) : (s.setMgt m).ques = s.ques := rfl
@[simp] theorem State.setMgt_banks (m : MgtSt) : (s.setMgt m).banks = s.banks := rfl
@[simp] theorem State.setMgt_landings (m : MgtSt) : (s.setMgt m).landings = s.landings := rfl
@[simp] theorem State.setMgt_mxes (m : MgtSt) : (s.setMgt m).mxes = s.mxes := rfl
@[simp] theorem State.setMgt_gates (m : MgtSt) : (s.setMgt m).gates = s.gates := rfl
@[simp] theorem State.setMgt_links (m : MgtSt) : (s.setMgt m).links = s.links := rfl
@[simp] theorem State.setMgt_fab (m : MgtSt) : (s.setMgt m).fab = s.fab := rfl
@[simp] theorem State.setMgt_nextUid (m : MgtSt) : (s.setMgt m).nextUid = s.nextUid := rfl
@[simp] theorem State.setMgt_ports (m : MgtSt) : (s.setMgt m).ports = s.ports := rfl
@[simp] theorem State.setMgt_dmas (m : MgtSt) : (s.setMgt m).dmas = s.dmas := rfl
@[simp] theorem State.setMgt_badBridges (m : MgtSt) : (s.setMgt m).badBridges = s.badBridges := rfl
@[simp] theorem State.setMgt_wheels (m : MgtSt) : (s.setMgt m).wheels = s.wheels := rfl
@[simp] theorem State.setMgt_loads (m : MgtSt) : (s.setMgt m).loads = s.loads := rfl
@[simp] theorem State.setMgt_ftm (m : MgtSt) : (s.setMgt m).ftm = s.ftm := rfl
@[simp] theorem State.setMgt_evr (m : MgtSt) : (s.setMgt m).evr = s.evr := rfl
@[simp] theorem State.setMgt_boot (m : MgtSt) : (s.setMgt m).boot = s.boot := rfl
@[simp] theorem State.setMgt_pwr (m : MgtSt) : (s.setMgt m).pwr = s.pwr := rfl
@[simp] theorem State.setMgt_tap (m : MgtSt) : (s.setMgt m).tap = s.tap := rfl
@[simp] theorem State.setMgt_eventReceiver (m : MgtSt) : (s.setMgt m).eventReceiver = s.eventReceiver := rfl
@[simp] theorem State.setMgt_out (m : MgtSt) : (s.setMgt m).out = s.out := rfl
@[simp] theorem State.setMgt_freeCtr (m : MgtSt) : (s.setMgt m).freeCtr = s.freeCtr := rfl
@[simp] theorem State.setMgt_pending (m : MgtSt) : (s.setMgt m).pending = s.pending := rfl

/-! ### `setDom` changes `pwr` alone -/

@[simp] theorem State.setDom_regs (d : Nat) (v : DomSt) : (s.setDom d v).regs = s.regs := rfl
@[simp] theorem State.setDom_mem (d : Nat) (v : DomSt) : (s.setDom d v).mem = s.mem := rfl
@[simp] theorem State.setDom_poison (d : Nat) (v : DomSt) : (s.setDom d v).poison = s.poison := rfl
@[simp] theorem State.setDom_errs (d : Nat) (v : DomSt) : (s.setDom d v).errs = s.errs := rfl
@[simp] theorem State.setDom_rowErr (d : Nat) (v : DomSt) : (s.setDom d v).rowErr = s.rowErr := rfl
@[simp] theorem State.setDom_seedPend (d : Nat) (v : DomSt) : (s.setDom d v).seedPend = s.seedPend := rfl
@[simp] theorem State.setDom_imem (d : Nat) (v : DomSt) : (s.setDom d v).imem = s.imem := rfl
@[simp] theorem State.setDom_ques (d : Nat) (v : DomSt) : (s.setDom d v).ques = s.ques := rfl
@[simp] theorem State.setDom_banks (d : Nat) (v : DomSt) : (s.setDom d v).banks = s.banks := rfl
@[simp] theorem State.setDom_landings (d : Nat) (v : DomSt) : (s.setDom d v).landings = s.landings := rfl
@[simp] theorem State.setDom_mxes (d : Nat) (v : DomSt) : (s.setDom d v).mxes = s.mxes := rfl
@[simp] theorem State.setDom_gates (d : Nat) (v : DomSt) : (s.setDom d v).gates = s.gates := rfl
@[simp] theorem State.setDom_links (d : Nat) (v : DomSt) : (s.setDom d v).links = s.links := rfl
@[simp] theorem State.setDom_fab (d : Nat) (v : DomSt) : (s.setDom d v).fab = s.fab := rfl
@[simp] theorem State.setDom_nextUid (d : Nat) (v : DomSt) : (s.setDom d v).nextUid = s.nextUid := rfl
@[simp] theorem State.setDom_ports (d : Nat) (v : DomSt) : (s.setDom d v).ports = s.ports := rfl
@[simp] theorem State.setDom_dmas (d : Nat) (v : DomSt) : (s.setDom d v).dmas = s.dmas := rfl
@[simp] theorem State.setDom_badBridges (d : Nat) (v : DomSt) : (s.setDom d v).badBridges = s.badBridges := rfl
@[simp] theorem State.setDom_wheels (d : Nat) (v : DomSt) : (s.setDom d v).wheels = s.wheels := rfl
@[simp] theorem State.setDom_loads (d : Nat) (v : DomSt) : (s.setDom d v).loads = s.loads := rfl
@[simp] theorem State.setDom_mgt (d : Nat) (v : DomSt) : (s.setDom d v).mgt = s.mgt := rfl
@[simp] theorem State.setDom_ftm (d : Nat) (v : DomSt) : (s.setDom d v).ftm = s.ftm := rfl
@[simp] theorem State.setDom_evr (d : Nat) (v : DomSt) : (s.setDom d v).evr = s.evr := rfl
@[simp] theorem State.setDom_boot (d : Nat) (v : DomSt) : (s.setDom d v).boot = s.boot := rfl
@[simp] theorem State.setDom_tap (d : Nat) (v : DomSt) : (s.setDom d v).tap = s.tap := rfl
@[simp] theorem State.setDom_eventReceiver (d : Nat) (v : DomSt) : (s.setDom d v).eventReceiver = s.eventReceiver := rfl
@[simp] theorem State.setDom_out (d : Nat) (v : DomSt) : (s.setDom d v).out = s.out := rfl
@[simp] theorem State.setDom_freeCtr (d : Nat) (v : DomSt) : (s.setDom d v).freeCtr = s.freeCtr := rfl
@[simp] theorem State.setDom_pending (d : Nat) (v : DomSt) : (s.setDom d v).pending = s.pending := rfl

/-! ### `setByte` changes `mem` alone -/

@[simp] theorem State.setByte_regs (a : Nat) (b : Byte) : (s.setByte a b).regs = s.regs := rfl
@[simp] theorem State.setByte_poison (a : Nat) (b : Byte) : (s.setByte a b).poison = s.poison := rfl
@[simp] theorem State.setByte_errs (a : Nat) (b : Byte) : (s.setByte a b).errs = s.errs := rfl
@[simp] theorem State.setByte_rowErr (a : Nat) (b : Byte) : (s.setByte a b).rowErr = s.rowErr := rfl
@[simp] theorem State.setByte_seedPend (a : Nat) (b : Byte) : (s.setByte a b).seedPend = s.seedPend := rfl
@[simp] theorem State.setByte_imem (a : Nat) (b : Byte) : (s.setByte a b).imem = s.imem := rfl
@[simp] theorem State.setByte_ques (a : Nat) (b : Byte) : (s.setByte a b).ques = s.ques := rfl
@[simp] theorem State.setByte_banks (a : Nat) (b : Byte) : (s.setByte a b).banks = s.banks := rfl
@[simp] theorem State.setByte_landings (a : Nat) (b : Byte) : (s.setByte a b).landings = s.landings := rfl
@[simp] theorem State.setByte_mxes (a : Nat) (b : Byte) : (s.setByte a b).mxes = s.mxes := rfl
@[simp] theorem State.setByte_gates (a : Nat) (b : Byte) : (s.setByte a b).gates = s.gates := rfl
@[simp] theorem State.setByte_links (a : Nat) (b : Byte) : (s.setByte a b).links = s.links := rfl
@[simp] theorem State.setByte_fab (a : Nat) (b : Byte) : (s.setByte a b).fab = s.fab := rfl
@[simp] theorem State.setByte_nextUid (a : Nat) (b : Byte) : (s.setByte a b).nextUid = s.nextUid := rfl
@[simp] theorem State.setByte_ports (a : Nat) (b : Byte) : (s.setByte a b).ports = s.ports := rfl
@[simp] theorem State.setByte_dmas (a : Nat) (b : Byte) : (s.setByte a b).dmas = s.dmas := rfl
@[simp] theorem State.setByte_badBridges (a : Nat) (b : Byte) : (s.setByte a b).badBridges = s.badBridges := rfl
@[simp] theorem State.setByte_wheels (a : Nat) (b : Byte) : (s.setByte a b).wheels = s.wheels := rfl
@[simp] theorem State.setByte_loads (a : Nat) (b : Byte) : (s.setByte a b).loads = s.loads := rfl
@[simp] theorem State.setByte_mgt (a : Nat) (b : Byte) : (s.setByte a b).mgt = s.mgt := rfl
@[simp] theorem State.setByte_ftm (a : Nat) (b : Byte) : (s.setByte a b).ftm = s.ftm := rfl
@[simp] theorem State.setByte_evr (a : Nat) (b : Byte) : (s.setByte a b).evr = s.evr := rfl
@[simp] theorem State.setByte_boot (a : Nat) (b : Byte) : (s.setByte a b).boot = s.boot := rfl
@[simp] theorem State.setByte_pwr (a : Nat) (b : Byte) : (s.setByte a b).pwr = s.pwr := rfl
@[simp] theorem State.setByte_tap (a : Nat) (b : Byte) : (s.setByte a b).tap = s.tap := rfl
@[simp] theorem State.setByte_eventReceiver (a : Nat) (b : Byte) : (s.setByte a b).eventReceiver = s.eventReceiver := rfl
@[simp] theorem State.setByte_out (a : Nat) (b : Byte) : (s.setByte a b).out = s.out := rfl
@[simp] theorem State.setByte_freeCtr (a : Nat) (b : Byte) : (s.setByte a b).freeCtr = s.freeCtr := rfl
@[simp] theorem State.setByte_pending (a : Nat) (b : Byte) : (s.setByte a b).pending = s.pending := rfl

/-! ### `setPoison` changes `poison` alone -/

@[simp] theorem State.setPoison_regs (l : Nat) (p : Bool) : (s.setPoison l p).regs = s.regs := rfl
@[simp] theorem State.setPoison_mem (l : Nat) (p : Bool) : (s.setPoison l p).mem = s.mem := rfl
@[simp] theorem State.setPoison_errs (l : Nat) (p : Bool) : (s.setPoison l p).errs = s.errs := rfl
@[simp] theorem State.setPoison_rowErr (l : Nat) (p : Bool) : (s.setPoison l p).rowErr = s.rowErr := rfl
@[simp] theorem State.setPoison_seedPend (l : Nat) (p : Bool) : (s.setPoison l p).seedPend = s.seedPend := rfl
@[simp] theorem State.setPoison_imem (l : Nat) (p : Bool) : (s.setPoison l p).imem = s.imem := rfl
@[simp] theorem State.setPoison_ques (l : Nat) (p : Bool) : (s.setPoison l p).ques = s.ques := rfl
@[simp] theorem State.setPoison_banks (l : Nat) (p : Bool) : (s.setPoison l p).banks = s.banks := rfl
@[simp] theorem State.setPoison_landings (l : Nat) (p : Bool) : (s.setPoison l p).landings = s.landings := rfl
@[simp] theorem State.setPoison_mxes (l : Nat) (p : Bool) : (s.setPoison l p).mxes = s.mxes := rfl
@[simp] theorem State.setPoison_gates (l : Nat) (p : Bool) : (s.setPoison l p).gates = s.gates := rfl
@[simp] theorem State.setPoison_links (l : Nat) (p : Bool) : (s.setPoison l p).links = s.links := rfl
@[simp] theorem State.setPoison_fab (l : Nat) (p : Bool) : (s.setPoison l p).fab = s.fab := rfl
@[simp] theorem State.setPoison_nextUid (l : Nat) (p : Bool) : (s.setPoison l p).nextUid = s.nextUid := rfl
@[simp] theorem State.setPoison_ports (l : Nat) (p : Bool) : (s.setPoison l p).ports = s.ports := rfl
@[simp] theorem State.setPoison_dmas (l : Nat) (p : Bool) : (s.setPoison l p).dmas = s.dmas := rfl
@[simp] theorem State.setPoison_badBridges (l : Nat) (p : Bool) : (s.setPoison l p).badBridges = s.badBridges := rfl
@[simp] theorem State.setPoison_wheels (l : Nat) (p : Bool) : (s.setPoison l p).wheels = s.wheels := rfl
@[simp] theorem State.setPoison_loads (l : Nat) (p : Bool) : (s.setPoison l p).loads = s.loads := rfl
@[simp] theorem State.setPoison_mgt (l : Nat) (p : Bool) : (s.setPoison l p).mgt = s.mgt := rfl
@[simp] theorem State.setPoison_ftm (l : Nat) (p : Bool) : (s.setPoison l p).ftm = s.ftm := rfl
@[simp] theorem State.setPoison_evr (l : Nat) (p : Bool) : (s.setPoison l p).evr = s.evr := rfl
@[simp] theorem State.setPoison_boot (l : Nat) (p : Bool) : (s.setPoison l p).boot = s.boot := rfl
@[simp] theorem State.setPoison_pwr (l : Nat) (p : Bool) : (s.setPoison l p).pwr = s.pwr := rfl
@[simp] theorem State.setPoison_tap (l : Nat) (p : Bool) : (s.setPoison l p).tap = s.tap := rfl
@[simp] theorem State.setPoison_eventReceiver (l : Nat) (p : Bool) : (s.setPoison l p).eventReceiver = s.eventReceiver := rfl
@[simp] theorem State.setPoison_out (l : Nat) (p : Bool) : (s.setPoison l p).out = s.out := rfl
@[simp] theorem State.setPoison_freeCtr (l : Nat) (p : Bool) : (s.setPoison l p).freeCtr = s.freeCtr := rfl
@[simp] theorem State.setPoison_pending (l : Nat) (p : Bool) : (s.setPoison l p).pending = s.pending := rfl

/-! ### `setErr` changes `errs` alone -/

@[simp] theorem State.setErr_regs (l k : Nat) (v : Byte) : (s.setErr l k v).regs = s.regs := rfl
@[simp] theorem State.setErr_mem (l k : Nat) (v : Byte) : (s.setErr l k v).mem = s.mem := rfl
@[simp] theorem State.setErr_poison (l k : Nat) (v : Byte) : (s.setErr l k v).poison = s.poison := rfl
@[simp] theorem State.setErr_rowErr (l k : Nat) (v : Byte) : (s.setErr l k v).rowErr = s.rowErr := rfl
@[simp] theorem State.setErr_seedPend (l k : Nat) (v : Byte) : (s.setErr l k v).seedPend = s.seedPend := rfl
@[simp] theorem State.setErr_imem (l k : Nat) (v : Byte) : (s.setErr l k v).imem = s.imem := rfl
@[simp] theorem State.setErr_ques (l k : Nat) (v : Byte) : (s.setErr l k v).ques = s.ques := rfl
@[simp] theorem State.setErr_banks (l k : Nat) (v : Byte) : (s.setErr l k v).banks = s.banks := rfl
@[simp] theorem State.setErr_landings (l k : Nat) (v : Byte) : (s.setErr l k v).landings = s.landings := rfl
@[simp] theorem State.setErr_mxes (l k : Nat) (v : Byte) : (s.setErr l k v).mxes = s.mxes := rfl
@[simp] theorem State.setErr_gates (l k : Nat) (v : Byte) : (s.setErr l k v).gates = s.gates := rfl
@[simp] theorem State.setErr_links (l k : Nat) (v : Byte) : (s.setErr l k v).links = s.links := rfl
@[simp] theorem State.setErr_fab (l k : Nat) (v : Byte) : (s.setErr l k v).fab = s.fab := rfl
@[simp] theorem State.setErr_nextUid (l k : Nat) (v : Byte) : (s.setErr l k v).nextUid = s.nextUid := rfl
@[simp] theorem State.setErr_ports (l k : Nat) (v : Byte) : (s.setErr l k v).ports = s.ports := rfl
@[simp] theorem State.setErr_dmas (l k : Nat) (v : Byte) : (s.setErr l k v).dmas = s.dmas := rfl
@[simp] theorem State.setErr_badBridges (l k : Nat) (v : Byte) : (s.setErr l k v).badBridges = s.badBridges := rfl
@[simp] theorem State.setErr_wheels (l k : Nat) (v : Byte) : (s.setErr l k v).wheels = s.wheels := rfl
@[simp] theorem State.setErr_loads (l k : Nat) (v : Byte) : (s.setErr l k v).loads = s.loads := rfl
@[simp] theorem State.setErr_mgt (l k : Nat) (v : Byte) : (s.setErr l k v).mgt = s.mgt := rfl
@[simp] theorem State.setErr_ftm (l k : Nat) (v : Byte) : (s.setErr l k v).ftm = s.ftm := rfl
@[simp] theorem State.setErr_evr (l k : Nat) (v : Byte) : (s.setErr l k v).evr = s.evr := rfl
@[simp] theorem State.setErr_boot (l k : Nat) (v : Byte) : (s.setErr l k v).boot = s.boot := rfl
@[simp] theorem State.setErr_pwr (l k : Nat) (v : Byte) : (s.setErr l k v).pwr = s.pwr := rfl
@[simp] theorem State.setErr_tap (l k : Nat) (v : Byte) : (s.setErr l k v).tap = s.tap := rfl
@[simp] theorem State.setErr_eventReceiver (l k : Nat) (v : Byte) : (s.setErr l k v).eventReceiver = s.eventReceiver := rfl
@[simp] theorem State.setErr_out (l k : Nat) (v : Byte) : (s.setErr l k v).out = s.out := rfl
@[simp] theorem State.setErr_freeCtr (l k : Nat) (v : Byte) : (s.setErr l k v).freeCtr = s.freeCtr := rfl
@[simp] theorem State.setErr_pending (l k : Nat) (v : Byte) : (s.setErr l k v).pending = s.pending := rfl

/-! ### `clearErrs` changes `errs` alone -/

@[simp] theorem State.clearErrs_regs (l : Nat) : (s.clearErrs l).regs = s.regs := rfl
@[simp] theorem State.clearErrs_mem (l : Nat) : (s.clearErrs l).mem = s.mem := rfl
@[simp] theorem State.clearErrs_poison (l : Nat) : (s.clearErrs l).poison = s.poison := rfl
@[simp] theorem State.clearErrs_rowErr (l : Nat) : (s.clearErrs l).rowErr = s.rowErr := rfl
@[simp] theorem State.clearErrs_seedPend (l : Nat) : (s.clearErrs l).seedPend = s.seedPend := rfl
@[simp] theorem State.clearErrs_imem (l : Nat) : (s.clearErrs l).imem = s.imem := rfl
@[simp] theorem State.clearErrs_ques (l : Nat) : (s.clearErrs l).ques = s.ques := rfl
@[simp] theorem State.clearErrs_banks (l : Nat) : (s.clearErrs l).banks = s.banks := rfl
@[simp] theorem State.clearErrs_landings (l : Nat) : (s.clearErrs l).landings = s.landings := rfl
@[simp] theorem State.clearErrs_mxes (l : Nat) : (s.clearErrs l).mxes = s.mxes := rfl
@[simp] theorem State.clearErrs_gates (l : Nat) : (s.clearErrs l).gates = s.gates := rfl
@[simp] theorem State.clearErrs_links (l : Nat) : (s.clearErrs l).links = s.links := rfl
@[simp] theorem State.clearErrs_fab (l : Nat) : (s.clearErrs l).fab = s.fab := rfl
@[simp] theorem State.clearErrs_nextUid (l : Nat) : (s.clearErrs l).nextUid = s.nextUid := rfl
@[simp] theorem State.clearErrs_ports (l : Nat) : (s.clearErrs l).ports = s.ports := rfl
@[simp] theorem State.clearErrs_dmas (l : Nat) : (s.clearErrs l).dmas = s.dmas := rfl
@[simp] theorem State.clearErrs_badBridges (l : Nat) : (s.clearErrs l).badBridges = s.badBridges := rfl
@[simp] theorem State.clearErrs_wheels (l : Nat) : (s.clearErrs l).wheels = s.wheels := rfl
@[simp] theorem State.clearErrs_loads (l : Nat) : (s.clearErrs l).loads = s.loads := rfl
@[simp] theorem State.clearErrs_mgt (l : Nat) : (s.clearErrs l).mgt = s.mgt := rfl
@[simp] theorem State.clearErrs_ftm (l : Nat) : (s.clearErrs l).ftm = s.ftm := rfl
@[simp] theorem State.clearErrs_evr (l : Nat) : (s.clearErrs l).evr = s.evr := rfl
@[simp] theorem State.clearErrs_boot (l : Nat) : (s.clearErrs l).boot = s.boot := rfl
@[simp] theorem State.clearErrs_pwr (l : Nat) : (s.clearErrs l).pwr = s.pwr := rfl
@[simp] theorem State.clearErrs_tap (l : Nat) : (s.clearErrs l).tap = s.tap := rfl
@[simp] theorem State.clearErrs_eventReceiver (l : Nat) : (s.clearErrs l).eventReceiver = s.eventReceiver := rfl
@[simp] theorem State.clearErrs_out (l : Nat) : (s.clearErrs l).out = s.out := rfl
@[simp] theorem State.clearErrs_freeCtr (l : Nat) : (s.clearErrs l).freeCtr = s.freeCtr := rfl
@[simp] theorem State.clearErrs_pending (l : Nat) : (s.clearErrs l).pending = s.pending := rfl

/-! ### `setEntry` changes `banks` alone -/

@[simp] theorem State.setEntry_regs (k c : Nat) (v : BitVec 32) : (s.setEntry k c v).regs = s.regs := rfl
@[simp] theorem State.setEntry_mem (k c : Nat) (v : BitVec 32) : (s.setEntry k c v).mem = s.mem := rfl
@[simp] theorem State.setEntry_poison (k c : Nat) (v : BitVec 32) : (s.setEntry k c v).poison = s.poison := rfl
@[simp] theorem State.setEntry_errs (k c : Nat) (v : BitVec 32) : (s.setEntry k c v).errs = s.errs := rfl
@[simp] theorem State.setEntry_rowErr (k c : Nat) (v : BitVec 32) : (s.setEntry k c v).rowErr = s.rowErr := rfl
@[simp] theorem State.setEntry_seedPend (k c : Nat) (v : BitVec 32) : (s.setEntry k c v).seedPend = s.seedPend := rfl
@[simp] theorem State.setEntry_imem (k c : Nat) (v : BitVec 32) : (s.setEntry k c v).imem = s.imem := rfl
@[simp] theorem State.setEntry_ques (k c : Nat) (v : BitVec 32) : (s.setEntry k c v).ques = s.ques := rfl
@[simp] theorem State.setEntry_landings (k c : Nat) (v : BitVec 32) : (s.setEntry k c v).landings = s.landings := rfl
@[simp] theorem State.setEntry_mxes (k c : Nat) (v : BitVec 32) : (s.setEntry k c v).mxes = s.mxes := rfl
@[simp] theorem State.setEntry_gates (k c : Nat) (v : BitVec 32) : (s.setEntry k c v).gates = s.gates := rfl
@[simp] theorem State.setEntry_links (k c : Nat) (v : BitVec 32) : (s.setEntry k c v).links = s.links := rfl
@[simp] theorem State.setEntry_fab (k c : Nat) (v : BitVec 32) : (s.setEntry k c v).fab = s.fab := rfl
@[simp] theorem State.setEntry_nextUid (k c : Nat) (v : BitVec 32) : (s.setEntry k c v).nextUid = s.nextUid := rfl
@[simp] theorem State.setEntry_ports (k c : Nat) (v : BitVec 32) : (s.setEntry k c v).ports = s.ports := rfl
@[simp] theorem State.setEntry_dmas (k c : Nat) (v : BitVec 32) : (s.setEntry k c v).dmas = s.dmas := rfl
@[simp] theorem State.setEntry_badBridges (k c : Nat) (v : BitVec 32) : (s.setEntry k c v).badBridges = s.badBridges := rfl
@[simp] theorem State.setEntry_wheels (k c : Nat) (v : BitVec 32) : (s.setEntry k c v).wheels = s.wheels := rfl
@[simp] theorem State.setEntry_loads (k c : Nat) (v : BitVec 32) : (s.setEntry k c v).loads = s.loads := rfl
@[simp] theorem State.setEntry_mgt (k c : Nat) (v : BitVec 32) : (s.setEntry k c v).mgt = s.mgt := rfl
@[simp] theorem State.setEntry_ftm (k c : Nat) (v : BitVec 32) : (s.setEntry k c v).ftm = s.ftm := rfl
@[simp] theorem State.setEntry_evr (k c : Nat) (v : BitVec 32) : (s.setEntry k c v).evr = s.evr := rfl
@[simp] theorem State.setEntry_boot (k c : Nat) (v : BitVec 32) : (s.setEntry k c v).boot = s.boot := rfl
@[simp] theorem State.setEntry_pwr (k c : Nat) (v : BitVec 32) : (s.setEntry k c v).pwr = s.pwr := rfl
@[simp] theorem State.setEntry_tap (k c : Nat) (v : BitVec 32) : (s.setEntry k c v).tap = s.tap := rfl
@[simp] theorem State.setEntry_eventReceiver (k c : Nat) (v : BitVec 32) : (s.setEntry k c v).eventReceiver = s.eventReceiver := rfl
@[simp] theorem State.setEntry_out (k c : Nat) (v : BitVec 32) : (s.setEntry k c v).out = s.out := rfl
@[simp] theorem State.setEntry_freeCtr (k c : Nat) (v : BitVec 32) : (s.setEntry k c v).freeCtr = s.freeCtr := rfl
@[simp] theorem State.setEntry_pending (k c : Nat) (v : BitVec 32) : (s.setEntry k c v).pending = s.pending := rfl

/-! ### `setGroup` changes `regs` alone -/

@[simp] theorem State.setGroup_mem (k : Nat) (v : Bool) : (s.setGroup k v).mem = s.mem := rfl
@[simp] theorem State.setGroup_poison (k : Nat) (v : Bool) : (s.setGroup k v).poison = s.poison := rfl
@[simp] theorem State.setGroup_errs (k : Nat) (v : Bool) : (s.setGroup k v).errs = s.errs := rfl
@[simp] theorem State.setGroup_rowErr (k : Nat) (v : Bool) : (s.setGroup k v).rowErr = s.rowErr := rfl
@[simp] theorem State.setGroup_seedPend (k : Nat) (v : Bool) : (s.setGroup k v).seedPend = s.seedPend := rfl
@[simp] theorem State.setGroup_imem (k : Nat) (v : Bool) : (s.setGroup k v).imem = s.imem := rfl
@[simp] theorem State.setGroup_ques (k : Nat) (v : Bool) : (s.setGroup k v).ques = s.ques := rfl
@[simp] theorem State.setGroup_banks (k : Nat) (v : Bool) : (s.setGroup k v).banks = s.banks := rfl
@[simp] theorem State.setGroup_landings (k : Nat) (v : Bool) : (s.setGroup k v).landings = s.landings := rfl
@[simp] theorem State.setGroup_mxes (k : Nat) (v : Bool) : (s.setGroup k v).mxes = s.mxes := rfl
@[simp] theorem State.setGroup_gates (k : Nat) (v : Bool) : (s.setGroup k v).gates = s.gates := rfl
@[simp] theorem State.setGroup_links (k : Nat) (v : Bool) : (s.setGroup k v).links = s.links := rfl
@[simp] theorem State.setGroup_fab (k : Nat) (v : Bool) : (s.setGroup k v).fab = s.fab := rfl
@[simp] theorem State.setGroup_nextUid (k : Nat) (v : Bool) : (s.setGroup k v).nextUid = s.nextUid := rfl
@[simp] theorem State.setGroup_ports (k : Nat) (v : Bool) : (s.setGroup k v).ports = s.ports := rfl
@[simp] theorem State.setGroup_dmas (k : Nat) (v : Bool) : (s.setGroup k v).dmas = s.dmas := rfl
@[simp] theorem State.setGroup_badBridges (k : Nat) (v : Bool) : (s.setGroup k v).badBridges = s.badBridges := rfl
@[simp] theorem State.setGroup_wheels (k : Nat) (v : Bool) : (s.setGroup k v).wheels = s.wheels := rfl
@[simp] theorem State.setGroup_loads (k : Nat) (v : Bool) : (s.setGroup k v).loads = s.loads := rfl
@[simp] theorem State.setGroup_mgt (k : Nat) (v : Bool) : (s.setGroup k v).mgt = s.mgt := rfl
@[simp] theorem State.setGroup_ftm (k : Nat) (v : Bool) : (s.setGroup k v).ftm = s.ftm := rfl
@[simp] theorem State.setGroup_evr (k : Nat) (v : Bool) : (s.setGroup k v).evr = s.evr := rfl
@[simp] theorem State.setGroup_boot (k : Nat) (v : Bool) : (s.setGroup k v).boot = s.boot := rfl
@[simp] theorem State.setGroup_pwr (k : Nat) (v : Bool) : (s.setGroup k v).pwr = s.pwr := rfl
@[simp] theorem State.setGroup_tap (k : Nat) (v : Bool) : (s.setGroup k v).tap = s.tap := rfl
@[simp] theorem State.setGroup_eventReceiver (k : Nat) (v : Bool) : (s.setGroup k v).eventReceiver = s.eventReceiver := rfl
@[simp] theorem State.setGroup_out (k : Nat) (v : Bool) : (s.setGroup k v).out = s.out := rfl
@[simp] theorem State.setGroup_freeCtr (k : Nat) (v : Bool) : (s.setGroup k v).freeCtr = s.freeCtr := rfl
@[simp] theorem State.setGroup_pending (k : Nat) (v : Bool) : (s.setGroup k v).pending = s.pending := rfl

/-! ### `emit` changes `out` alone -/

@[simp] theorem State.emit_regs (o : Out) : (s.emit o).regs = s.regs := rfl
@[simp] theorem State.emit_mem (o : Out) : (s.emit o).mem = s.mem := rfl
@[simp] theorem State.emit_poison (o : Out) : (s.emit o).poison = s.poison := rfl
@[simp] theorem State.emit_errs (o : Out) : (s.emit o).errs = s.errs := rfl
@[simp] theorem State.emit_rowErr (o : Out) : (s.emit o).rowErr = s.rowErr := rfl
@[simp] theorem State.emit_seedPend (o : Out) : (s.emit o).seedPend = s.seedPend := rfl
@[simp] theorem State.emit_imem (o : Out) : (s.emit o).imem = s.imem := rfl
@[simp] theorem State.emit_ques (o : Out) : (s.emit o).ques = s.ques := rfl
@[simp] theorem State.emit_banks (o : Out) : (s.emit o).banks = s.banks := rfl
@[simp] theorem State.emit_landings (o : Out) : (s.emit o).landings = s.landings := rfl
@[simp] theorem State.emit_mxes (o : Out) : (s.emit o).mxes = s.mxes := rfl
@[simp] theorem State.emit_gates (o : Out) : (s.emit o).gates = s.gates := rfl
@[simp] theorem State.emit_links (o : Out) : (s.emit o).links = s.links := rfl
@[simp] theorem State.emit_fab (o : Out) : (s.emit o).fab = s.fab := rfl
@[simp] theorem State.emit_nextUid (o : Out) : (s.emit o).nextUid = s.nextUid := rfl
@[simp] theorem State.emit_ports (o : Out) : (s.emit o).ports = s.ports := rfl
@[simp] theorem State.emit_dmas (o : Out) : (s.emit o).dmas = s.dmas := rfl
@[simp] theorem State.emit_badBridges (o : Out) : (s.emit o).badBridges = s.badBridges := rfl
@[simp] theorem State.emit_wheels (o : Out) : (s.emit o).wheels = s.wheels := rfl
@[simp] theorem State.emit_loads (o : Out) : (s.emit o).loads = s.loads := rfl
@[simp] theorem State.emit_mgt (o : Out) : (s.emit o).mgt = s.mgt := rfl
@[simp] theorem State.emit_ftm (o : Out) : (s.emit o).ftm = s.ftm := rfl
@[simp] theorem State.emit_evr (o : Out) : (s.emit o).evr = s.evr := rfl
@[simp] theorem State.emit_boot (o : Out) : (s.emit o).boot = s.boot := rfl
@[simp] theorem State.emit_pwr (o : Out) : (s.emit o).pwr = s.pwr := rfl
@[simp] theorem State.emit_tap (o : Out) : (s.emit o).tap = s.tap := rfl
@[simp] theorem State.emit_eventReceiver (o : Out) : (s.emit o).eventReceiver = s.eventReceiver := rfl
@[simp] theorem State.emit_freeCtr (o : Out) : (s.emit o).freeCtr = s.freeCtr := rfl
@[simp] theorem State.emit_pending (o : Out) : (s.emit o).pending = s.pending := rfl

/-! ### `tick` changes `freeCtr` alone -/

@[simp] theorem State.tick_regs : (s.tick).regs = s.regs := rfl
@[simp] theorem State.tick_mem : (s.tick).mem = s.mem := rfl
@[simp] theorem State.tick_poison : (s.tick).poison = s.poison := rfl
@[simp] theorem State.tick_errs : (s.tick).errs = s.errs := rfl
@[simp] theorem State.tick_rowErr : (s.tick).rowErr = s.rowErr := rfl
@[simp] theorem State.tick_seedPend : (s.tick).seedPend = s.seedPend := rfl
@[simp] theorem State.tick_imem : (s.tick).imem = s.imem := rfl
@[simp] theorem State.tick_ques : (s.tick).ques = s.ques := rfl
@[simp] theorem State.tick_banks : (s.tick).banks = s.banks := rfl
@[simp] theorem State.tick_landings : (s.tick).landings = s.landings := rfl
@[simp] theorem State.tick_mxes : (s.tick).mxes = s.mxes := rfl
@[simp] theorem State.tick_gates : (s.tick).gates = s.gates := rfl
@[simp] theorem State.tick_links : (s.tick).links = s.links := rfl
@[simp] theorem State.tick_fab : (s.tick).fab = s.fab := rfl
@[simp] theorem State.tick_nextUid : (s.tick).nextUid = s.nextUid := rfl
@[simp] theorem State.tick_ports : (s.tick).ports = s.ports := rfl
@[simp] theorem State.tick_dmas : (s.tick).dmas = s.dmas := rfl
@[simp] theorem State.tick_badBridges : (s.tick).badBridges = s.badBridges := rfl
@[simp] theorem State.tick_wheels : (s.tick).wheels = s.wheels := rfl
@[simp] theorem State.tick_loads : (s.tick).loads = s.loads := rfl
@[simp] theorem State.tick_mgt : (s.tick).mgt = s.mgt := rfl
@[simp] theorem State.tick_ftm : (s.tick).ftm = s.ftm := rfl
@[simp] theorem State.tick_evr : (s.tick).evr = s.evr := rfl
@[simp] theorem State.tick_boot : (s.tick).boot = s.boot := rfl
@[simp] theorem State.tick_pwr : (s.tick).pwr = s.pwr := rfl
@[simp] theorem State.tick_tap : (s.tick).tap = s.tap := rfl
@[simp] theorem State.tick_eventReceiver : (s.tick).eventReceiver = s.eventReceiver := rfl
@[simp] theorem State.tick_out : (s.tick).out = s.out := rfl
@[simp] theorem State.tick_pending : (s.tick).pending = s.pending := rfl

/-! ### Reads after writes -/

@[simp] theorem State.rd_wr (a : Nat) (v : Word) (b : Nat) : (s.wr a v).rd b = if b = a then v else s.rd b := tabGet_put _ _ _ _ _
@[simp] theorem State.que_setQue (q : Nat) (v : QueSt) (k : Nat) : (s.setQue q v).que k = if k = q then v else s.que k := tabGet_put _ _ _ _ _
@[simp] theorem State.mxe_setMxe (q : Nat) (v : MxSt) (k : Nat) : (s.setMxe q v).mxe k = if k = q then v else s.mxe k := tabGet_put _ _ _ _ _
@[simp] theorem State.gate_setGate (q : Nat) (v : GateSt) (k : Nat) : (s.setGate q v).gate k = if k = q then v else s.gate k := tabGet_put _ _ _ _ _
@[simp] theorem State.port_setPort (q : Nat) (v : PortSt) (k : Nat) : (s.setPort q v).port k = if k = q then v else s.port k := tabGet_put _ _ _ _ _
@[simp] theorem State.wheel_setWheel (q : Nat) (v : WheelSt) (k : Nat) : (s.setWheel q v).wheel k = if k = q then v else s.wheel k := tabGet_put _ _ _ _ _
@[simp] theorem State.link_setLink (q : Nat) (v : LinkSt) (k : Nat) : (s.setLink q v).link k = if k = q then v else s.link k := tabGet_put _ _ _ _ _
@[simp] theorem State.load_setLoad (q : Nat) (v : LoadJob) (k : Nat) : (s.setLoad q v).load k = if k = q then v else s.load k := tabGet_put _ _ _ _ _
@[simp] theorem State.dom_setDom (q : Nat) (v : DomSt) (k : Nat) : (s.setDom q v).dom k = if k = q then v else s.dom k := tabGet_put _ _ _ _ _
@[simp] theorem State.byte_setByte (q : Nat) (v : Byte) (k : Nat) : (s.setByte q v).byte k = if k = q then v else s.byte k := tabGet_put _ _ _ _ _
@[simp] theorem State.poisoned_setPoison (q : Nat) (v : Bool) (k : Nat) : (s.setPoison q v).poisoned k = if k = q then v else s.poisoned k := tabGet_put _ _ _ _ _
@[simp] theorem State.fab_setFab (f : FabSt) : (s.setFab f).fab = f := rfl
@[simp] theorem State.mgt_setMgt (m : MgtSt) : (s.setMgt m).mgt = m := rfl
@[simp] theorem State.out_emit (o : Out) : (s.emit o).out = o :: s.out := rfl
@[simp] theorem State.freeCtr_tick : s.tick.freeCtr = s.freeCtr + 1 := rfl

/-! ### Reads of what an update does not change -/

@[simp] theorem State.que_wr (a : Nat) (v : Word) (x : Nat) : (s.wr a v).que x = s.que x := rfl
@[simp] theorem State.mxe_wr (a : Nat) (v : Word) (x : Nat) : (s.wr a v).mxe x = s.mxe x := rfl
@[simp] theorem State.gate_wr (a : Nat) (v : Word) (x : Nat) : (s.wr a v).gate x = s.gate x := rfl
@[simp] theorem State.port_wr (a : Nat) (v : Word) (x : Nat) : (s.wr a v).port x = s.port x := rfl
@[simp] theorem State.wheel_wr (a : Nat) (v : Word) (x : Nat) : (s.wr a v).wheel x = s.wheel x := rfl
@[simp] theorem State.link_wr (a : Nat) (v : Word) (x : Nat) : (s.wr a v).link x = s.link x := rfl
@[simp] theorem State.load_wr (a : Nat) (v : Word) (x : Nat) : (s.wr a v).load x = s.load x := rfl
@[simp] theorem State.byte_wr (a : Nat) (v : Word) (x : Nat) : (s.wr a v).byte x = s.byte x := rfl
@[simp] theorem State.poisoned_wr (a : Nat) (v : Word) (x : Nat) : (s.wr a v).poisoned x = s.poisoned x := rfl
@[simp] theorem State.dom_wr (a : Nat) (v : Word) (x : Nat) : (s.wr a v).dom x = s.dom x := rfl
@[simp] theorem State.que_set (f : FRef) (v : Nat) (x : Nat) : (s.set f v).que x = s.que x := rfl
@[simp] theorem State.mxe_set (f : FRef) (v : Nat) (x : Nat) : (s.set f v).mxe x = s.mxe x := rfl
@[simp] theorem State.gate_set (f : FRef) (v : Nat) (x : Nat) : (s.set f v).gate x = s.gate x := rfl
@[simp] theorem State.port_set (f : FRef) (v : Nat) (x : Nat) : (s.set f v).port x = s.port x := rfl
@[simp] theorem State.wheel_set (f : FRef) (v : Nat) (x : Nat) : (s.set f v).wheel x = s.wheel x := rfl
@[simp] theorem State.link_set (f : FRef) (v : Nat) (x : Nat) : (s.set f v).link x = s.link x := rfl
@[simp] theorem State.load_set (f : FRef) (v : Nat) (x : Nat) : (s.set f v).load x = s.load x := rfl
@[simp] theorem State.byte_set (f : FRef) (v : Nat) (x : Nat) : (s.set f v).byte x = s.byte x := rfl
@[simp] theorem State.poisoned_set (f : FRef) (v : Nat) (x : Nat) : (s.set f v).poisoned x = s.poisoned x := rfl
@[simp] theorem State.dom_set (f : FRef) (v : Nat) (x : Nat) : (s.set f v).dom x = s.dom x := rfl
@[simp] theorem State.que_inc (f : FRef) (n : Nat) (x : Nat) : (s.inc f n).que x = s.que x := rfl
@[simp] theorem State.mxe_inc (f : FRef) (n : Nat) (x : Nat) : (s.inc f n).mxe x = s.mxe x := rfl
@[simp] theorem State.gate_inc (f : FRef) (n : Nat) (x : Nat) : (s.inc f n).gate x = s.gate x := rfl
@[simp] theorem State.port_inc (f : FRef) (n : Nat) (x : Nat) : (s.inc f n).port x = s.port x := rfl
@[simp] theorem State.wheel_inc (f : FRef) (n : Nat) (x : Nat) : (s.inc f n).wheel x = s.wheel x := rfl
@[simp] theorem State.link_inc (f : FRef) (n : Nat) (x : Nat) : (s.inc f n).link x = s.link x := rfl
@[simp] theorem State.load_inc (f : FRef) (n : Nat) (x : Nat) : (s.inc f n).load x = s.load x := rfl
@[simp] theorem State.byte_inc (f : FRef) (n : Nat) (x : Nat) : (s.inc f n).byte x = s.byte x := rfl
@[simp] theorem State.poisoned_inc (f : FRef) (n : Nat) (x : Nat) : (s.inc f n).poisoned x = s.poisoned x := rfl
@[simp] theorem State.dom_inc (f : FRef) (n : Nat) (x : Nat) : (s.inc f n).dom x = s.dom x := rfl
@[simp] theorem State.que_incSat (f : FRef) (n : Nat) (x : Nat) : (s.incSat f n).que x = s.que x := rfl
@[simp] theorem State.mxe_incSat (f : FRef) (n : Nat) (x : Nat) : (s.incSat f n).mxe x = s.mxe x := rfl
@[simp] theorem State.gate_incSat (f : FRef) (n : Nat) (x : Nat) : (s.incSat f n).gate x = s.gate x := rfl
@[simp] theorem State.port_incSat (f : FRef) (n : Nat) (x : Nat) : (s.incSat f n).port x = s.port x := rfl
@[simp] theorem State.wheel_incSat (f : FRef) (n : Nat) (x : Nat) : (s.incSat f n).wheel x = s.wheel x := rfl
@[simp] theorem State.link_incSat (f : FRef) (n : Nat) (x : Nat) : (s.incSat f n).link x = s.link x := rfl
@[simp] theorem State.load_incSat (f : FRef) (n : Nat) (x : Nat) : (s.incSat f n).load x = s.load x := rfl
@[simp] theorem State.byte_incSat (f : FRef) (n : Nat) (x : Nat) : (s.incSat f n).byte x = s.byte x := rfl
@[simp] theorem State.poisoned_incSat (f : FRef) (n : Nat) (x : Nat) : (s.incSat f n).poisoned x = s.poisoned x := rfl
@[simp] theorem State.dom_incSat (f : FRef) (n : Nat) (x : Nat) : (s.incSat f n).dom x = s.dom x := rfl
@[simp] theorem State.que_resetRegs (lo n : Nat) (x : Nat) : (s.resetRegs lo n).que x = s.que x := rfl
@[simp] theorem State.mxe_resetRegs (lo n : Nat) (x : Nat) : (s.resetRegs lo n).mxe x = s.mxe x := rfl
@[simp] theorem State.gate_resetRegs (lo n : Nat) (x : Nat) : (s.resetRegs lo n).gate x = s.gate x := rfl
@[simp] theorem State.port_resetRegs (lo n : Nat) (x : Nat) : (s.resetRegs lo n).port x = s.port x := rfl
@[simp] theorem State.wheel_resetRegs (lo n : Nat) (x : Nat) : (s.resetRegs lo n).wheel x = s.wheel x := rfl
@[simp] theorem State.link_resetRegs (lo n : Nat) (x : Nat) : (s.resetRegs lo n).link x = s.link x := rfl
@[simp] theorem State.load_resetRegs (lo n : Nat) (x : Nat) : (s.resetRegs lo n).load x = s.load x := rfl
@[simp] theorem State.byte_resetRegs (lo n : Nat) (x : Nat) : (s.resetRegs lo n).byte x = s.byte x := rfl
@[simp] theorem State.poisoned_resetRegs (lo n : Nat) (x : Nat) : (s.resetRegs lo n).poisoned x = s.poisoned x := rfl
@[simp] theorem State.dom_resetRegs (lo n : Nat) (x : Nat) : (s.resetRegs lo n).dom x = s.dom x := rfl
@[simp] theorem State.rd_setQue (q : Nat) (v : QueSt) (x : Nat) : (s.setQue q v).rd x = s.rd x := rfl
@[simp] theorem State.get_setQue (q : Nat) (v : QueSt) (x : FRef) : (s.setQue q v).get x = s.get x := rfl
@[simp] theorem State.isSet_setQue (q : Nat) (v : QueSt) (x : FRef) : (s.setQue q v).isSet x = s.isSet x := rfl
@[simp] theorem State.mxe_setQue (q : Nat) (v : QueSt) (x : Nat) : (s.setQue q v).mxe x = s.mxe x := rfl
@[simp] theorem State.gate_setQue (q : Nat) (v : QueSt) (x : Nat) : (s.setQue q v).gate x = s.gate x := rfl
@[simp] theorem State.port_setQue (q : Nat) (v : QueSt) (x : Nat) : (s.setQue q v).port x = s.port x := rfl
@[simp] theorem State.wheel_setQue (q : Nat) (v : QueSt) (x : Nat) : (s.setQue q v).wheel x = s.wheel x := rfl
@[simp] theorem State.link_setQue (q : Nat) (v : QueSt) (x : Nat) : (s.setQue q v).link x = s.link x := rfl
@[simp] theorem State.load_setQue (q : Nat) (v : QueSt) (x : Nat) : (s.setQue q v).load x = s.load x := rfl
@[simp] theorem State.byte_setQue (q : Nat) (v : QueSt) (x : Nat) : (s.setQue q v).byte x = s.byte x := rfl
@[simp] theorem State.poisoned_setQue (q : Nat) (v : QueSt) (x : Nat) : (s.setQue q v).poisoned x = s.poisoned x := rfl
@[simp] theorem State.dom_setQue (q : Nat) (v : QueSt) (x : Nat) : (s.setQue q v).dom x = s.dom x := rfl
@[simp] theorem State.rd_setMxe (k : Nat) (v : MxSt) (x : Nat) : (s.setMxe k v).rd x = s.rd x := rfl
@[simp] theorem State.get_setMxe (k : Nat) (v : MxSt) (x : FRef) : (s.setMxe k v).get x = s.get x := rfl
@[simp] theorem State.isSet_setMxe (k : Nat) (v : MxSt) (x : FRef) : (s.setMxe k v).isSet x = s.isSet x := rfl
@[simp] theorem State.que_setMxe (k : Nat) (v : MxSt) (x : Nat) : (s.setMxe k v).que x = s.que x := rfl
@[simp] theorem State.gate_setMxe (k : Nat) (v : MxSt) (x : Nat) : (s.setMxe k v).gate x = s.gate x := rfl
@[simp] theorem State.port_setMxe (k : Nat) (v : MxSt) (x : Nat) : (s.setMxe k v).port x = s.port x := rfl
@[simp] theorem State.wheel_setMxe (k : Nat) (v : MxSt) (x : Nat) : (s.setMxe k v).wheel x = s.wheel x := rfl
@[simp] theorem State.link_setMxe (k : Nat) (v : MxSt) (x : Nat) : (s.setMxe k v).link x = s.link x := rfl
@[simp] theorem State.load_setMxe (k : Nat) (v : MxSt) (x : Nat) : (s.setMxe k v).load x = s.load x := rfl
@[simp] theorem State.byte_setMxe (k : Nat) (v : MxSt) (x : Nat) : (s.setMxe k v).byte x = s.byte x := rfl
@[simp] theorem State.poisoned_setMxe (k : Nat) (v : MxSt) (x : Nat) : (s.setMxe k v).poisoned x = s.poisoned x := rfl
@[simp] theorem State.dom_setMxe (k : Nat) (v : MxSt) (x : Nat) : (s.setMxe k v).dom x = s.dom x := rfl
@[simp] theorem State.rd_setGate (t : Nat) (v : GateSt) (x : Nat) : (s.setGate t v).rd x = s.rd x := rfl
@[simp] theorem State.get_setGate (t : Nat) (v : GateSt) (x : FRef) : (s.setGate t v).get x = s.get x := rfl
@[simp] theorem State.isSet_setGate (t : Nat) (v : GateSt) (x : FRef) : (s.setGate t v).isSet x = s.isSet x := rfl
@[simp] theorem State.que_setGate (t : Nat) (v : GateSt) (x : Nat) : (s.setGate t v).que x = s.que x := rfl
@[simp] theorem State.mxe_setGate (t : Nat) (v : GateSt) (x : Nat) : (s.setGate t v).mxe x = s.mxe x := rfl
@[simp] theorem State.port_setGate (t : Nat) (v : GateSt) (x : Nat) : (s.setGate t v).port x = s.port x := rfl
@[simp] theorem State.wheel_setGate (t : Nat) (v : GateSt) (x : Nat) : (s.setGate t v).wheel x = s.wheel x := rfl
@[simp] theorem State.link_setGate (t : Nat) (v : GateSt) (x : Nat) : (s.setGate t v).link x = s.link x := rfl
@[simp] theorem State.load_setGate (t : Nat) (v : GateSt) (x : Nat) : (s.setGate t v).load x = s.load x := rfl
@[simp] theorem State.byte_setGate (t : Nat) (v : GateSt) (x : Nat) : (s.setGate t v).byte x = s.byte x := rfl
@[simp] theorem State.poisoned_setGate (t : Nat) (v : GateSt) (x : Nat) : (s.setGate t v).poisoned x = s.poisoned x := rfl
@[simp] theorem State.dom_setGate (t : Nat) (v : GateSt) (x : Nat) : (s.setGate t v).dom x = s.dom x := rfl
@[simp] theorem State.rd_setPort (p : Nat) (v : PortSt) (x : Nat) : (s.setPort p v).rd x = s.rd x := rfl
@[simp] theorem State.get_setPort (p : Nat) (v : PortSt) (x : FRef) : (s.setPort p v).get x = s.get x := rfl
@[simp] theorem State.isSet_setPort (p : Nat) (v : PortSt) (x : FRef) : (s.setPort p v).isSet x = s.isSet x := rfl
@[simp] theorem State.que_setPort (p : Nat) (v : PortSt) (x : Nat) : (s.setPort p v).que x = s.que x := rfl
@[simp] theorem State.mxe_setPort (p : Nat) (v : PortSt) (x : Nat) : (s.setPort p v).mxe x = s.mxe x := rfl
@[simp] theorem State.gate_setPort (p : Nat) (v : PortSt) (x : Nat) : (s.setPort p v).gate x = s.gate x := rfl
@[simp] theorem State.wheel_setPort (p : Nat) (v : PortSt) (x : Nat) : (s.setPort p v).wheel x = s.wheel x := rfl
@[simp] theorem State.link_setPort (p : Nat) (v : PortSt) (x : Nat) : (s.setPort p v).link x = s.link x := rfl
@[simp] theorem State.load_setPort (p : Nat) (v : PortSt) (x : Nat) : (s.setPort p v).load x = s.load x := rfl
@[simp] theorem State.byte_setPort (p : Nat) (v : PortSt) (x : Nat) : (s.setPort p v).byte x = s.byte x := rfl
@[simp] theorem State.poisoned_setPort (p : Nat) (v : PortSt) (x : Nat) : (s.setPort p v).poisoned x = s.poisoned x := rfl
@[simp] theorem State.dom_setPort (p : Nat) (v : PortSt) (x : Nat) : (s.setPort p v).dom x = s.dom x := rfl
@[simp] theorem State.rd_setWheel (a : Nat) (w : WheelSt) (x : Nat) : (s.setWheel a w).rd x = s.rd x := rfl
@[simp] theorem State.get_setWheel (a : Nat) (w : WheelSt) (x : FRef) : (s.setWheel a w).get x = s.get x := rfl
@[simp] theorem State.isSet_setWheel (a : Nat) (w : WheelSt) (x : FRef) : (s.setWheel a w).isSet x = s.isSet x := rfl
@[simp] theorem State.que_setWheel (a : Nat) (w : WheelSt) (x : Nat) : (s.setWheel a w).que x = s.que x := rfl
@[simp] theorem State.mxe_setWheel (a : Nat) (w : WheelSt) (x : Nat) : (s.setWheel a w).mxe x = s.mxe x := rfl
@[simp] theorem State.gate_setWheel (a : Nat) (w : WheelSt) (x : Nat) : (s.setWheel a w).gate x = s.gate x := rfl
@[simp] theorem State.port_setWheel (a : Nat) (w : WheelSt) (x : Nat) : (s.setWheel a w).port x = s.port x := rfl
@[simp] theorem State.link_setWheel (a : Nat) (w : WheelSt) (x : Nat) : (s.setWheel a w).link x = s.link x := rfl
@[simp] theorem State.load_setWheel (a : Nat) (w : WheelSt) (x : Nat) : (s.setWheel a w).load x = s.load x := rfl
@[simp] theorem State.byte_setWheel (a : Nat) (w : WheelSt) (x : Nat) : (s.setWheel a w).byte x = s.byte x := rfl
@[simp] theorem State.poisoned_setWheel (a : Nat) (w : WheelSt) (x : Nat) : (s.setWheel a w).poisoned x = s.poisoned x := rfl
@[simp] theorem State.dom_setWheel (a : Nat) (w : WheelSt) (x : Nat) : (s.setWheel a w).dom x = s.dom x := rfl
@[simp] theorem State.rd_setDma (p c : Nat) (j : DmaJob) (x : Nat) : (s.setDma p c j).rd x = s.rd x := rfl
@[simp] theorem State.get_setDma (p c : Nat) (j : DmaJob) (x : FRef) : (s.setDma p c j).get x = s.get x := rfl
@[simp] theorem State.isSet_setDma (p c : Nat) (j : DmaJob) (x : FRef) : (s.setDma p c j).isSet x = s.isSet x := rfl
@[simp] theorem State.que_setDma (p c : Nat) (j : DmaJob) (x : Nat) : (s.setDma p c j).que x = s.que x := rfl
@[simp] theorem State.mxe_setDma (p c : Nat) (j : DmaJob) (x : Nat) : (s.setDma p c j).mxe x = s.mxe x := rfl
@[simp] theorem State.gate_setDma (p c : Nat) (j : DmaJob) (x : Nat) : (s.setDma p c j).gate x = s.gate x := rfl
@[simp] theorem State.port_setDma (p c : Nat) (j : DmaJob) (x : Nat) : (s.setDma p c j).port x = s.port x := rfl
@[simp] theorem State.wheel_setDma (p c : Nat) (j : DmaJob) (x : Nat) : (s.setDma p c j).wheel x = s.wheel x := rfl
@[simp] theorem State.link_setDma (p c : Nat) (j : DmaJob) (x : Nat) : (s.setDma p c j).link x = s.link x := rfl
@[simp] theorem State.load_setDma (p c : Nat) (j : DmaJob) (x : Nat) : (s.setDma p c j).load x = s.load x := rfl
@[simp] theorem State.byte_setDma (p c : Nat) (j : DmaJob) (x : Nat) : (s.setDma p c j).byte x = s.byte x := rfl
@[simp] theorem State.poisoned_setDma (p c : Nat) (j : DmaJob) (x : Nat) : (s.setDma p c j).poisoned x = s.poisoned x := rfl
@[simp] theorem State.dom_setDma (p c : Nat) (j : DmaJob) (x : Nat) : (s.setDma p c j).dom x = s.dom x := rfl
@[simp] theorem State.rd_setLink (n : Nat) (v : LinkSt) (x : Nat) : (s.setLink n v).rd x = s.rd x := rfl
@[simp] theorem State.get_setLink (n : Nat) (v : LinkSt) (x : FRef) : (s.setLink n v).get x = s.get x := rfl
@[simp] theorem State.isSet_setLink (n : Nat) (v : LinkSt) (x : FRef) : (s.setLink n v).isSet x = s.isSet x := rfl
@[simp] theorem State.que_setLink (n : Nat) (v : LinkSt) (x : Nat) : (s.setLink n v).que x = s.que x := rfl
@[simp] theorem State.mxe_setLink (n : Nat) (v : LinkSt) (x : Nat) : (s.setLink n v).mxe x = s.mxe x := rfl
@[simp] theorem State.gate_setLink (n : Nat) (v : LinkSt) (x : Nat) : (s.setLink n v).gate x = s.gate x := rfl
@[simp] theorem State.port_setLink (n : Nat) (v : LinkSt) (x : Nat) : (s.setLink n v).port x = s.port x := rfl
@[simp] theorem State.wheel_setLink (n : Nat) (v : LinkSt) (x : Nat) : (s.setLink n v).wheel x = s.wheel x := rfl
@[simp] theorem State.load_setLink (n : Nat) (v : LinkSt) (x : Nat) : (s.setLink n v).load x = s.load x := rfl
@[simp] theorem State.byte_setLink (n : Nat) (v : LinkSt) (x : Nat) : (s.setLink n v).byte x = s.byte x := rfl
@[simp] theorem State.poisoned_setLink (n : Nat) (v : LinkSt) (x : Nat) : (s.setLink n v).poisoned x = s.poisoned x := rfl
@[simp] theorem State.dom_setLink (n : Nat) (v : LinkSt) (x : Nat) : (s.setLink n v).dom x = s.dom x := rfl
@[simp] theorem State.rd_setFab (f : FabSt) (x : Nat) : (s.setFab f).rd x = s.rd x := rfl
@[simp] theorem State.get_setFab (f : FabSt) (x : FRef) : (s.setFab f).get x = s.get x := rfl
@[simp] theorem State.isSet_setFab (f : FabSt) (x : FRef) : (s.setFab f).isSet x = s.isSet x := rfl
@[simp] theorem State.que_setFab (f : FabSt) (x : Nat) : (s.setFab f).que x = s.que x := rfl
@[simp] theorem State.mxe_setFab (f : FabSt) (x : Nat) : (s.setFab f).mxe x = s.mxe x := rfl
@[simp] theorem State.gate_setFab (f : FabSt) (x : Nat) : (s.setFab f).gate x = s.gate x := rfl
@[simp] theorem State.port_setFab (f : FabSt) (x : Nat) : (s.setFab f).port x = s.port x := rfl
@[simp] theorem State.wheel_setFab (f : FabSt) (x : Nat) : (s.setFab f).wheel x = s.wheel x := rfl
@[simp] theorem State.link_setFab (f : FabSt) (x : Nat) : (s.setFab f).link x = s.link x := rfl
@[simp] theorem State.load_setFab (f : FabSt) (x : Nat) : (s.setFab f).load x = s.load x := rfl
@[simp] theorem State.byte_setFab (f : FabSt) (x : Nat) : (s.setFab f).byte x = s.byte x := rfl
@[simp] theorem State.poisoned_setFab (f : FabSt) (x : Nat) : (s.setFab f).poisoned x = s.poisoned x := rfl
@[simp] theorem State.dom_setFab (f : FabSt) (x : Nat) : (s.setFab f).dom x = s.dom x := rfl
@[simp] theorem State.rd_setLoad (g : Nat) (j : LoadJob) (x : Nat) : (s.setLoad g j).rd x = s.rd x := rfl
@[simp] theorem State.get_setLoad (g : Nat) (j : LoadJob) (x : FRef) : (s.setLoad g j).get x = s.get x := rfl
@[simp] theorem State.isSet_setLoad (g : Nat) (j : LoadJob) (x : FRef) : (s.setLoad g j).isSet x = s.isSet x := rfl
@[simp] theorem State.que_setLoad (g : Nat) (j : LoadJob) (x : Nat) : (s.setLoad g j).que x = s.que x := rfl
@[simp] theorem State.mxe_setLoad (g : Nat) (j : LoadJob) (x : Nat) : (s.setLoad g j).mxe x = s.mxe x := rfl
@[simp] theorem State.gate_setLoad (g : Nat) (j : LoadJob) (x : Nat) : (s.setLoad g j).gate x = s.gate x := rfl
@[simp] theorem State.port_setLoad (g : Nat) (j : LoadJob) (x : Nat) : (s.setLoad g j).port x = s.port x := rfl
@[simp] theorem State.wheel_setLoad (g : Nat) (j : LoadJob) (x : Nat) : (s.setLoad g j).wheel x = s.wheel x := rfl
@[simp] theorem State.link_setLoad (g : Nat) (j : LoadJob) (x : Nat) : (s.setLoad g j).link x = s.link x := rfl
@[simp] theorem State.byte_setLoad (g : Nat) (j : LoadJob) (x : Nat) : (s.setLoad g j).byte x = s.byte x := rfl
@[simp] theorem State.poisoned_setLoad (g : Nat) (j : LoadJob) (x : Nat) : (s.setLoad g j).poisoned x = s.poisoned x := rfl
@[simp] theorem State.dom_setLoad (g : Nat) (j : LoadJob) (x : Nat) : (s.setLoad g j).dom x = s.dom x := rfl
@[simp] theorem State.rd_setMgt (m : MgtSt) (x : Nat) : (s.setMgt m).rd x = s.rd x := rfl
@[simp] theorem State.get_setMgt (m : MgtSt) (x : FRef) : (s.setMgt m).get x = s.get x := rfl
@[simp] theorem State.isSet_setMgt (m : MgtSt) (x : FRef) : (s.setMgt m).isSet x = s.isSet x := rfl
@[simp] theorem State.que_setMgt (m : MgtSt) (x : Nat) : (s.setMgt m).que x = s.que x := rfl
@[simp] theorem State.mxe_setMgt (m : MgtSt) (x : Nat) : (s.setMgt m).mxe x = s.mxe x := rfl
@[simp] theorem State.gate_setMgt (m : MgtSt) (x : Nat) : (s.setMgt m).gate x = s.gate x := rfl
@[simp] theorem State.port_setMgt (m : MgtSt) (x : Nat) : (s.setMgt m).port x = s.port x := rfl
@[simp] theorem State.wheel_setMgt (m : MgtSt) (x : Nat) : (s.setMgt m).wheel x = s.wheel x := rfl
@[simp] theorem State.link_setMgt (m : MgtSt) (x : Nat) : (s.setMgt m).link x = s.link x := rfl
@[simp] theorem State.load_setMgt (m : MgtSt) (x : Nat) : (s.setMgt m).load x = s.load x := rfl
@[simp] theorem State.byte_setMgt (m : MgtSt) (x : Nat) : (s.setMgt m).byte x = s.byte x := rfl
@[simp] theorem State.poisoned_setMgt (m : MgtSt) (x : Nat) : (s.setMgt m).poisoned x = s.poisoned x := rfl
@[simp] theorem State.dom_setMgt (m : MgtSt) (x : Nat) : (s.setMgt m).dom x = s.dom x := rfl
@[simp] theorem State.rd_setDom (d : Nat) (v : DomSt) (x : Nat) : (s.setDom d v).rd x = s.rd x := rfl
@[simp] theorem State.get_setDom (d : Nat) (v : DomSt) (x : FRef) : (s.setDom d v).get x = s.get x := rfl
@[simp] theorem State.isSet_setDom (d : Nat) (v : DomSt) (x : FRef) : (s.setDom d v).isSet x = s.isSet x := rfl
@[simp] theorem State.que_setDom (d : Nat) (v : DomSt) (x : Nat) : (s.setDom d v).que x = s.que x := rfl
@[simp] theorem State.mxe_setDom (d : Nat) (v : DomSt) (x : Nat) : (s.setDom d v).mxe x = s.mxe x := rfl
@[simp] theorem State.gate_setDom (d : Nat) (v : DomSt) (x : Nat) : (s.setDom d v).gate x = s.gate x := rfl
@[simp] theorem State.port_setDom (d : Nat) (v : DomSt) (x : Nat) : (s.setDom d v).port x = s.port x := rfl
@[simp] theorem State.wheel_setDom (d : Nat) (v : DomSt) (x : Nat) : (s.setDom d v).wheel x = s.wheel x := rfl
@[simp] theorem State.link_setDom (d : Nat) (v : DomSt) (x : Nat) : (s.setDom d v).link x = s.link x := rfl
@[simp] theorem State.load_setDom (d : Nat) (v : DomSt) (x : Nat) : (s.setDom d v).load x = s.load x := rfl
@[simp] theorem State.byte_setDom (d : Nat) (v : DomSt) (x : Nat) : (s.setDom d v).byte x = s.byte x := rfl
@[simp] theorem State.poisoned_setDom (d : Nat) (v : DomSt) (x : Nat) : (s.setDom d v).poisoned x = s.poisoned x := rfl
@[simp] theorem State.rd_setByte (a : Nat) (b : Byte) (x : Nat) : (s.setByte a b).rd x = s.rd x := rfl
@[simp] theorem State.get_setByte (a : Nat) (b : Byte) (x : FRef) : (s.setByte a b).get x = s.get x := rfl
@[simp] theorem State.isSet_setByte (a : Nat) (b : Byte) (x : FRef) : (s.setByte a b).isSet x = s.isSet x := rfl
@[simp] theorem State.que_setByte (a : Nat) (b : Byte) (x : Nat) : (s.setByte a b).que x = s.que x := rfl
@[simp] theorem State.mxe_setByte (a : Nat) (b : Byte) (x : Nat) : (s.setByte a b).mxe x = s.mxe x := rfl
@[simp] theorem State.gate_setByte (a : Nat) (b : Byte) (x : Nat) : (s.setByte a b).gate x = s.gate x := rfl
@[simp] theorem State.port_setByte (a : Nat) (b : Byte) (x : Nat) : (s.setByte a b).port x = s.port x := rfl
@[simp] theorem State.wheel_setByte (a : Nat) (b : Byte) (x : Nat) : (s.setByte a b).wheel x = s.wheel x := rfl
@[simp] theorem State.link_setByte (a : Nat) (b : Byte) (x : Nat) : (s.setByte a b).link x = s.link x := rfl
@[simp] theorem State.load_setByte (a : Nat) (b : Byte) (x : Nat) : (s.setByte a b).load x = s.load x := rfl
@[simp] theorem State.poisoned_setByte (a : Nat) (b : Byte) (x : Nat) : (s.setByte a b).poisoned x = s.poisoned x := rfl
@[simp] theorem State.dom_setByte (a : Nat) (b : Byte) (x : Nat) : (s.setByte a b).dom x = s.dom x := rfl
@[simp] theorem State.rd_setPoison (l : Nat) (p : Bool) (x : Nat) : (s.setPoison l p).rd x = s.rd x := rfl
@[simp] theorem State.get_setPoison (l : Nat) (p : Bool) (x : FRef) : (s.setPoison l p).get x = s.get x := rfl
@[simp] theorem State.isSet_setPoison (l : Nat) (p : Bool) (x : FRef) : (s.setPoison l p).isSet x = s.isSet x := rfl
@[simp] theorem State.que_setPoison (l : Nat) (p : Bool) (x : Nat) : (s.setPoison l p).que x = s.que x := rfl
@[simp] theorem State.mxe_setPoison (l : Nat) (p : Bool) (x : Nat) : (s.setPoison l p).mxe x = s.mxe x := rfl
@[simp] theorem State.gate_setPoison (l : Nat) (p : Bool) (x : Nat) : (s.setPoison l p).gate x = s.gate x := rfl
@[simp] theorem State.port_setPoison (l : Nat) (p : Bool) (x : Nat) : (s.setPoison l p).port x = s.port x := rfl
@[simp] theorem State.wheel_setPoison (l : Nat) (p : Bool) (x : Nat) : (s.setPoison l p).wheel x = s.wheel x := rfl
@[simp] theorem State.link_setPoison (l : Nat) (p : Bool) (x : Nat) : (s.setPoison l p).link x = s.link x := rfl
@[simp] theorem State.load_setPoison (l : Nat) (p : Bool) (x : Nat) : (s.setPoison l p).load x = s.load x := rfl
@[simp] theorem State.byte_setPoison (l : Nat) (p : Bool) (x : Nat) : (s.setPoison l p).byte x = s.byte x := rfl
@[simp] theorem State.dom_setPoison (l : Nat) (p : Bool) (x : Nat) : (s.setPoison l p).dom x = s.dom x := rfl
@[simp] theorem State.rd_setErr (l k : Nat) (v : Byte) (x : Nat) : (s.setErr l k v).rd x = s.rd x := rfl
@[simp] theorem State.get_setErr (l k : Nat) (v : Byte) (x : FRef) : (s.setErr l k v).get x = s.get x := rfl
@[simp] theorem State.isSet_setErr (l k : Nat) (v : Byte) (x : FRef) : (s.setErr l k v).isSet x = s.isSet x := rfl
@[simp] theorem State.que_setErr (l k : Nat) (v : Byte) (x : Nat) : (s.setErr l k v).que x = s.que x := rfl
@[simp] theorem State.mxe_setErr (l k : Nat) (v : Byte) (x : Nat) : (s.setErr l k v).mxe x = s.mxe x := rfl
@[simp] theorem State.gate_setErr (l k : Nat) (v : Byte) (x : Nat) : (s.setErr l k v).gate x = s.gate x := rfl
@[simp] theorem State.port_setErr (l k : Nat) (v : Byte) (x : Nat) : (s.setErr l k v).port x = s.port x := rfl
@[simp] theorem State.wheel_setErr (l k : Nat) (v : Byte) (x : Nat) : (s.setErr l k v).wheel x = s.wheel x := rfl
@[simp] theorem State.link_setErr (l k : Nat) (v : Byte) (x : Nat) : (s.setErr l k v).link x = s.link x := rfl
@[simp] theorem State.load_setErr (l k : Nat) (v : Byte) (x : Nat) : (s.setErr l k v).load x = s.load x := rfl
@[simp] theorem State.byte_setErr (l k : Nat) (v : Byte) (x : Nat) : (s.setErr l k v).byte x = s.byte x := rfl
@[simp] theorem State.poisoned_setErr (l k : Nat) (v : Byte) (x : Nat) : (s.setErr l k v).poisoned x = s.poisoned x := rfl
@[simp] theorem State.dom_setErr (l k : Nat) (v : Byte) (x : Nat) : (s.setErr l k v).dom x = s.dom x := rfl
@[simp] theorem State.rd_clearErrs (l : Nat) (x : Nat) : (s.clearErrs l).rd x = s.rd x := rfl
@[simp] theorem State.get_clearErrs (l : Nat) (x : FRef) : (s.clearErrs l).get x = s.get x := rfl
@[simp] theorem State.isSet_clearErrs (l : Nat) (x : FRef) : (s.clearErrs l).isSet x = s.isSet x := rfl
@[simp] theorem State.que_clearErrs (l : Nat) (x : Nat) : (s.clearErrs l).que x = s.que x := rfl
@[simp] theorem State.mxe_clearErrs (l : Nat) (x : Nat) : (s.clearErrs l).mxe x = s.mxe x := rfl
@[simp] theorem State.gate_clearErrs (l : Nat) (x : Nat) : (s.clearErrs l).gate x = s.gate x := rfl
@[simp] theorem State.port_clearErrs (l : Nat) (x : Nat) : (s.clearErrs l).port x = s.port x := rfl
@[simp] theorem State.wheel_clearErrs (l : Nat) (x : Nat) : (s.clearErrs l).wheel x = s.wheel x := rfl
@[simp] theorem State.link_clearErrs (l : Nat) (x : Nat) : (s.clearErrs l).link x = s.link x := rfl
@[simp] theorem State.load_clearErrs (l : Nat) (x : Nat) : (s.clearErrs l).load x = s.load x := rfl
@[simp] theorem State.byte_clearErrs (l : Nat) (x : Nat) : (s.clearErrs l).byte x = s.byte x := rfl
@[simp] theorem State.poisoned_clearErrs (l : Nat) (x : Nat) : (s.clearErrs l).poisoned x = s.poisoned x := rfl
@[simp] theorem State.dom_clearErrs (l : Nat) (x : Nat) : (s.clearErrs l).dom x = s.dom x := rfl
@[simp] theorem State.rd_setEntry (k c : Nat) (v : BitVec 32) (x : Nat) : (s.setEntry k c v).rd x = s.rd x := rfl
@[simp] theorem State.get_setEntry (k c : Nat) (v : BitVec 32) (x : FRef) : (s.setEntry k c v).get x = s.get x := rfl
@[simp] theorem State.isSet_setEntry (k c : Nat) (v : BitVec 32) (x : FRef) : (s.setEntry k c v).isSet x = s.isSet x := rfl
@[simp] theorem State.que_setEntry (k c : Nat) (v : BitVec 32) (x : Nat) : (s.setEntry k c v).que x = s.que x := rfl
@[simp] theorem State.mxe_setEntry (k c : Nat) (v : BitVec 32) (x : Nat) : (s.setEntry k c v).mxe x = s.mxe x := rfl
@[simp] theorem State.gate_setEntry (k c : Nat) (v : BitVec 32) (x : Nat) : (s.setEntry k c v).gate x = s.gate x := rfl
@[simp] theorem State.port_setEntry (k c : Nat) (v : BitVec 32) (x : Nat) : (s.setEntry k c v).port x = s.port x := rfl
@[simp] theorem State.wheel_setEntry (k c : Nat) (v : BitVec 32) (x : Nat) : (s.setEntry k c v).wheel x = s.wheel x := rfl
@[simp] theorem State.link_setEntry (k c : Nat) (v : BitVec 32) (x : Nat) : (s.setEntry k c v).link x = s.link x := rfl
@[simp] theorem State.load_setEntry (k c : Nat) (v : BitVec 32) (x : Nat) : (s.setEntry k c v).load x = s.load x := rfl
@[simp] theorem State.byte_setEntry (k c : Nat) (v : BitVec 32) (x : Nat) : (s.setEntry k c v).byte x = s.byte x := rfl
@[simp] theorem State.poisoned_setEntry (k c : Nat) (v : BitVec 32) (x : Nat) : (s.setEntry k c v).poisoned x = s.poisoned x := rfl
@[simp] theorem State.dom_setEntry (k c : Nat) (v : BitVec 32) (x : Nat) : (s.setEntry k c v).dom x = s.dom x := rfl
@[simp] theorem State.que_setGroup (k : Nat) (v : Bool) (x : Nat) : (s.setGroup k v).que x = s.que x := rfl
@[simp] theorem State.mxe_setGroup (k : Nat) (v : Bool) (x : Nat) : (s.setGroup k v).mxe x = s.mxe x := rfl
@[simp] theorem State.gate_setGroup (k : Nat) (v : Bool) (x : Nat) : (s.setGroup k v).gate x = s.gate x := rfl
@[simp] theorem State.port_setGroup (k : Nat) (v : Bool) (x : Nat) : (s.setGroup k v).port x = s.port x := rfl
@[simp] theorem State.wheel_setGroup (k : Nat) (v : Bool) (x : Nat) : (s.setGroup k v).wheel x = s.wheel x := rfl
@[simp] theorem State.link_setGroup (k : Nat) (v : Bool) (x : Nat) : (s.setGroup k v).link x = s.link x := rfl
@[simp] theorem State.load_setGroup (k : Nat) (v : Bool) (x : Nat) : (s.setGroup k v).load x = s.load x := rfl
@[simp] theorem State.byte_setGroup (k : Nat) (v : Bool) (x : Nat) : (s.setGroup k v).byte x = s.byte x := rfl
@[simp] theorem State.poisoned_setGroup (k : Nat) (v : Bool) (x : Nat) : (s.setGroup k v).poisoned x = s.poisoned x := rfl
@[simp] theorem State.dom_setGroup (k : Nat) (v : Bool) (x : Nat) : (s.setGroup k v).dom x = s.dom x := rfl
@[simp] theorem State.rd_emit (o : Out) (x : Nat) : (s.emit o).rd x = s.rd x := rfl
@[simp] theorem State.get_emit (o : Out) (x : FRef) : (s.emit o).get x = s.get x := rfl
@[simp] theorem State.isSet_emit (o : Out) (x : FRef) : (s.emit o).isSet x = s.isSet x := rfl
@[simp] theorem State.que_emit (o : Out) (x : Nat) : (s.emit o).que x = s.que x := rfl
@[simp] theorem State.mxe_emit (o : Out) (x : Nat) : (s.emit o).mxe x = s.mxe x := rfl
@[simp] theorem State.gate_emit (o : Out) (x : Nat) : (s.emit o).gate x = s.gate x := rfl
@[simp] theorem State.port_emit (o : Out) (x : Nat) : (s.emit o).port x = s.port x := rfl
@[simp] theorem State.wheel_emit (o : Out) (x : Nat) : (s.emit o).wheel x = s.wheel x := rfl
@[simp] theorem State.link_emit (o : Out) (x : Nat) : (s.emit o).link x = s.link x := rfl
@[simp] theorem State.load_emit (o : Out) (x : Nat) : (s.emit o).load x = s.load x := rfl
@[simp] theorem State.byte_emit (o : Out) (x : Nat) : (s.emit o).byte x = s.byte x := rfl
@[simp] theorem State.poisoned_emit (o : Out) (x : Nat) : (s.emit o).poisoned x = s.poisoned x := rfl
@[simp] theorem State.dom_emit (o : Out) (x : Nat) : (s.emit o).dom x = s.dom x := rfl
@[simp] theorem State.rd_tick (x : Nat) : (s.tick).rd x = s.rd x := rfl
@[simp] theorem State.get_tick (x : FRef) : (s.tick).get x = s.get x := rfl
@[simp] theorem State.isSet_tick (x : FRef) : (s.tick).isSet x = s.isSet x := rfl
@[simp] theorem State.que_tick (x : Nat) : (s.tick).que x = s.que x := rfl
@[simp] theorem State.mxe_tick (x : Nat) : (s.tick).mxe x = s.mxe x := rfl
@[simp] theorem State.gate_tick (x : Nat) : (s.tick).gate x = s.gate x := rfl
@[simp] theorem State.port_tick (x : Nat) : (s.tick).port x = s.port x := rfl
@[simp] theorem State.wheel_tick (x : Nat) : (s.tick).wheel x = s.wheel x := rfl
@[simp] theorem State.link_tick (x : Nat) : (s.tick).link x = s.link x := rfl
@[simp] theorem State.load_tick (x : Nat) : (s.tick).load x = s.load x := rfl
@[simp] theorem State.byte_tick (x : Nat) : (s.tick).byte x = s.byte x := rfl
@[simp] theorem State.poisoned_tick (x : Nat) : (s.tick).poisoned x = s.poisoned x := rfl
@[simp] theorem State.dom_tick (x : Nat) : (s.tick).dom x = s.dom x := rfl

/-! ### Fields of registers -/

theorem getBits_lt (x lo w : Nat) : getBits x lo w < 2 ^ w := Nat.mod_lt _ (Nat.two_pow_pos w)

theorem putBits_lt {x lo w v : Nat} (hx : x < 2 ^ 64) (h : lo + w ≤ 64) : putBits x lo w v < 2 ^ 64 := by
  unfold putBits
  have e1 : x % 2 ^ lo < 2 ^ lo := Nat.mod_lt _ (Nat.two_pow_pos lo)
  have e2 : v % 2 ^ w < 2 ^ w := Nat.mod_lt _ (Nat.two_pow_pos w)
  have e3 : x / 2 ^ (lo + w) + 1 ≤ 2 ^ (64 - (lo + w)) := by
    rw [Nat.succ_le_iff, Nat.div_lt_iff_lt_mul (Nat.two_pow_pos _), ← Nat.pow_add]
    convert hx using 2; omega
  have e4 : 2 ^ (64 - (lo + w)) * 2 ^ (lo + w) = 2 ^ 64 := by rw [← Nat.pow_add]; congr 1; omega
  have e5 : (v % 2 ^ w + 1) * 2 ^ lo ≤ 2 ^ w * 2 ^ lo := Nat.mul_le_mul_right _ e2
  have e6 : (x / 2 ^ (lo + w) + 1) * 2 ^ (lo + w) ≤ 2 ^ 64 := by rw [← e4]; exact Nat.mul_le_mul_right _ e3
  have e7 : 2 ^ w * 2 ^ lo = 2 ^ (lo + w) := by rw [← Nat.pow_add, Nat.add_comm]
  rw [Nat.add_mul, Nat.one_mul] at e5 e6
  omega

/-- The bits put. -/
theorem getBits_putBits_same (x lo w v : Nat) : getBits (putBits x lo w v) lo w = v % 2 ^ w := by
  unfold getBits putBits
  have e1 : x % 2 ^ lo < 2 ^ lo := Nat.mod_lt _ (Nat.two_pow_pos lo)
  have e2 : x % 2 ^ lo + v % 2 ^ w * 2 ^ lo + x / 2 ^ (lo + w) * 2 ^ (lo + w)
      = x % 2 ^ lo + 2 ^ lo * (v % 2 ^ w + 2 ^ w * (x / 2 ^ (lo + w))) := by rw [Nat.pow_add]; ring
  rw [e2, Nat.add_mul_div_left _ _ (Nat.two_pow_pos lo), Nat.div_eq_of_lt e1, Nat.zero_add, Nat.add_mul_mod_self_left, Nat.mod_mod]

/-- The bits above those put. -/
theorem getBits_putBits_above {x lo w v lo' w' : Nat} (h : lo + w ≤ lo') : getBits (putBits x lo w v) lo' w' = getBits x lo' w' := by
  unfold getBits putBits
  obtain ⟨d, rfl⟩ := Nat.exists_eq_add_of_le h
  have e1 : x % 2 ^ lo < 2 ^ lo := Nat.mod_lt _ (Nat.two_pow_pos lo)
  have e2 : v % 2 ^ w < 2 ^ w := Nat.mod_lt _ (Nat.two_pow_pos w)
  have e5 : (v % 2 ^ w + 1) * 2 ^ lo ≤ 2 ^ w * 2 ^ lo := Nat.mul_le_mul_right _ e2
  have e7 : 2 ^ w * 2 ^ lo = 2 ^ (lo + w) := by rw [← Nat.pow_add, Nat.add_comm]
  rw [Nat.add_mul, Nat.one_mul] at e5
  have e3 : x % 2 ^ lo + v % 2 ^ w * 2 ^ lo < 2 ^ (lo + w) := by omega
  rw [Nat.pow_add 2 (lo + w) d, ← Nat.div_div_eq_div_mul, ← Nat.div_div_eq_div_mul,
    Nat.add_mul_div_right _ _ (Nat.two_pow_pos _), Nat.div_eq_of_lt e3, Nat.zero_add]

/-- The bits below those put. -/
theorem getBits_putBits_below {x lo w v lo' w' : Nat} (h : lo' + w' ≤ lo) : getBits (putBits x lo w v) lo' w' = getBits x lo' w' := by
  unfold getBits putBits
  obtain ⟨d, rfl⟩ := Nat.exists_eq_add_of_le h
  have e1 : x % 2 ^ (lo' + w' + d) + v % 2 ^ w * 2 ^ (lo' + w' + d) + x / 2 ^ (lo' + w' + d + w) * 2 ^ (lo' + w' + d + w)
      = x % 2 ^ (lo' + w' + d) + 2 ^ (lo' + w') * (2 ^ d * (v % 2 ^ w + x / 2 ^ (lo' + w' + d + w) * 2 ^ w)) := by
    rw [Nat.pow_add 2 (lo' + w' + d) w, Nat.pow_add 2 (lo' + w') d]; ring
  have e2 (y : Nat) : y / 2 ^ lo' % 2 ^ w' = y % 2 ^ (lo' + w') / 2 ^ lo' := by rw [Nat.pow_add, Nat.mod_mul_right_div_self]
  rw [e1, e2, e2, Nat.add_mul_mod_self_left, Nat.mod_mod_of_dvd]
  exact Nat.pow_dvd_pow 2 (Nat.le_add_right _ _)

@[simp] theorem State.rd_set (f : FRef) (v a : Nat) :
    (s.set f v).rd a = if a = f.addr then BitVec.ofNat 64 (putBits (s.rd f.addr).toNat f.lo f.width v) else s.rd a := s.rd_wr _ _ _

/-- A field reads as written. -/
theorem State.get_set_same {f : FRef} (v : Nat) (h : f.lo + f.width ≤ 64) : (s.set f v).get f = v % 2 ^ f.width := by
  unfold State.get
  rw [State.rd_set, if_pos rfl, BitVec.toNat_ofNat, Nat.mod_eq_of_lt (putBits_lt (BitVec.isLt _) h), getBits_putBits_same]

/-- A field of another register is unchanged. -/
theorem State.get_set_other {f g : FRef} (v : Nat) (h : g.addr ≠ f.addr) : (s.set f v).get g = s.get g := by
  unfold State.get; rw [State.rd_set, if_neg h]

/-- Another field of the same register is unchanged. -/
theorem State.get_set_apart {f g : FRef} (v : Nat) (hf : f.lo + f.width ≤ 64)
    (h : f.lo + f.width ≤ g.lo ∨ g.lo + g.width ≤ f.lo) : (s.set f v).get g = s.get g := by
  unfold State.get
  rw [State.rd_set]
  split
  · rename_i e
    rw [BitVec.toNat_ofNat, Nat.mod_eq_of_lt (putBits_lt (BitVec.isLt _) hf), e]
    rcases h with h | h
    · exact getBits_putBits_above h
    · exact getBits_putBits_below h
  · rfl

theorem State.get_wr_other {a : Nat} {v : Word} {f : FRef} (h : f.addr ≠ a) : (s.wr a v).get f = s.get f := by
  unfold State.get; rw [State.rd_wr, if_neg h]

@[simp] theorem State.get_wr_same {v : Word} {f : FRef} : (s.wr f.addr v).get f = getBits v.toNat f.lo f.width := by
  unfold State.get; rw [State.rd_wr, if_pos rfl]

/-- Registers of a range read their reset values after a clear; the others as before. -/
theorem State.rd_resetRegs (lo n a : Nat) : (s.resetRegs lo n).rd a = if lo ≤ a ∧ a < lo + n then regReset a else s.rd a :=
  tabGet_clear _ _ _ _ _

end Sys2Proof.Machine
end

