-- ==== Sys2Proof/Laws/Events.lean ====
section
/-! SUPPORT. What recording an event that is not red changes: the recorder, the vectors pending, and what has left the
device. -/

namespace Sys2Proof.Machine

variable {r s : State}

/-- The registers an event that is not red may change: the recorder's and the pending vectors'. -/
def recorderKey (a : Nat) : Prop := (0x200000 ≤ a ∧ a < 0x300000) ∨ 0x8000000 ≤ a

/-- From `s` to `t` only the recorder, the vectors pending and the outputs change. -/
structure State.RecordsOnly (s t : State) : Prop where
  same : t = { s with regs := t.regs, out := t.out, evr := t.evr }
  regs : ∀ a, ¬ recorderKey a → t.rd a = s.rd a

theorem State.RecordsOnly.refl (s : State) : s.RecordsOnly s := ⟨rfl, fun _ _ => rfl⟩

theorem State.RecordsOnly.trans {a b c : State} (h : a.RecordsOnly b) (k : b.RecordsOnly c) : a.RecordsOnly c := by
  refine ⟨?_, fun x hx => (k.regs x hx).trans (h.regs x hx)⟩
  rw [k.same, h.same]

theorem State.RecordsOnly.ite {p : Prop} [Decidable p] {a b : State} (ha : r.RecordsOnly a) (hb : r.RecordsOnly b) :
    r.RecordsOnly (if p then a else b) := by split <;> assumption

theorem State.RecordsOnly.wr {a : Nat} {v : Word} (ha : recorderKey a) (h : r.RecordsOnly s) : r.RecordsOnly (s.wr a v) := by
  refine h.trans ⟨rfl, fun x hx => ?_⟩
  rw [State.rd_wr]
  split
  · rename_i e; subst e; exact absurd ha hx
  · rfl

theorem State.RecordsOnly.set {f : FRef} {v : Nat} (ha : recorderKey f.addr) (h : r.RecordsOnly s) : r.RecordsOnly (s.set f v) :=
  State.RecordsOnly.wr ha h

theorem State.RecordsOnly.emit {o : Out} (h : r.RecordsOnly s) : r.RecordsOnly (s.emit o) := h.trans ⟨rfl, fun _ _ => rfl⟩

theorem State.RecordsOnly.evr {e : EvrSt} (h : r.RecordsOnly s) : r.RecordsOnly { s with evr := e } := h.trans ⟨rfl, fun _ _ => rfl⟩

theorem recorderKey_rec (i w : Nat) (hi : i < 4096) (hw : w < 4) : recorderKey (aEVR_REC i w) := by
  left; unfold aEVR_REC; omega

theorem recorderKey_pba (p i : Nat) : recorderKey (aMSIX_PBA p i) := by
  right; unfold aMSIX_PBA; omega

theorem raiseVector_records {p v : Nat} (h : r.RecordsOnly s) : r.RecordsOnly (raiseVector p v s) :=
  .ite (.emit (.set (recorderKey_pba _ _) h)) (.ite h (.ite (.set (recorderKey_pba _ _) h) (.emit h)))

theorem raiseBoth_records {v : Nat} (h : r.RecordsOnly s) : r.RecordsOnly (raiseBoth v s) := raiseVector_records (raiseVector_records h)

theorem sendPlatformEvent_records {c v : Nat} {d : Word} (h : r.RecordsOnly s) : r.RecordsOnly (sendPlatformEvent c v d s) := by
  unfold sendPlatformEvent
  repeat' first
    | with_reducible assumption
    | with_reducible apply State.RecordsOnly.emit
    | split

theorem writeRecord_records {c a v : Nat} {d : Word} {b : Bool} (h : r.RecordsOnly s) : r.RecordsOnly (writeRecord c a v d b s) := by
  have hk (i w : Nat) (hw : w < 4) : recorderKey (aEVR_REC (i % 4096) w) := recorderKey_rec _ _ (Nat.mod_lt _ (by decide)) hw
  unfold writeRecord
  extract_lets seq i d' fl s1 s2 s3 e
  have h1 : r.RecordsOnly s1 := .wr (hk _ _ (by decide)) (.wr (hk _ _ (by decide)) h)
  have h2 : r.RecordsOnly s2 := .wr (hk _ _ (by decide)) (.wr (hk _ _ (by decide)) h1)
  have h3 : r.RecordsOnly s3 := .set (by left; decide) (.set (by left; decide) h2)
  exact .evr h3

theorem announce_records {code sev : Nat} {d : Word} (hc : sev ≠ 2) (h : r.RecordsOnly s) : r.RecordsOnly (announce code sev d s) := by
  unfold announce
  extract_lets s1
  have h1 : r.RecordsOnly s1 := sendPlatformEvent_records h
  clear_value s1
  rw [if_neg hc]
  have h2 := raiseBoth_records (v := 32) h1
  exact .ite (.ite (.set (by left; decide) h2) h2) h1

/-- The severity of a code that is not among the red ones. -/
theorem sevOf_quiet {code : Nat} {d : Bool} (hc : redCodes.contains code = false) : (sevOf code d).num ≠ 2 := by
  unfold sevOf
  rw [hc]
  repeat' split
  all_goals simp_all [Sev.num]

/-- Every key an event that is not red writes is the recorder's or a pending vector's. -/
theorem recordEvent_records {code a : Nat} {d : Word} (hc : redCodes.contains code = false) (h : r.RecordsOnly s) :
    r.RecordsOnly (recordEvent code a d s) := by
  have hk : recorderKey (aEVR_REC s.newest 2) := recorderKey_rec _ _ (Nat.mod_lt _ (by decide)) (by decide)
  unfold recordEvent
  have hq := sevOf_quiet (d := s.degraded a) hc
  extract_lets sev
  rw [if_neg (show ¬ sev = 2 from hq)]
  have hs : sev ≠ 2 := hq
  clear_value sev
  have hd : recorderKey aEVR_DROPCNT := by left; decide
  refine .ite (.evr (.set hk h)) (.ite (announce_records hs (.evr (writeRecord_records h))) (.evr (.ite ?_ ?_)))
  · exact State.RecordsOnly.set hd h
  · exact State.RecordsOnly.set hd h

theorem event_records {code a : Nat} (hc : redCodes.contains code = false) (h : r.RecordsOnly s) : r.RecordsOnly (event code a s) :=
  recordEvent_records hc h

theorem eventD_records {code a d : Nat} (hc : redCodes.contains code = false) (h : r.RecordsOnly s) : r.RecordsOnly (eventD code a d s) :=
  recordEvent_records hc h

/-- A register outside the recorder reads as before an event that is not red. -/
theorem rd_event {code a x : Nat} (hc : redCodes.contains code = false) (hx : ¬ recorderKey x) : (event code a s).rd x = s.rd x :=
  (event_records hc (.refl s)).regs x hx

theorem rd_eventD {code a d x : Nat} (hc : redCodes.contains code = false) (hx : ¬ recorderKey x) : (eventD code a d s).rd x = s.rd x :=
  (eventD_records hc (.refl s)).regs x hx

theorem get_event {code a : Nat} {f : FRef} (hc : redCodes.contains code = false) (hx : ¬ recorderKey f.addr) : (event code a s).get f = s.get f := by
  unfold State.get; rw [rd_event hc hx]

theorem get_eventD {code a d : Nat} {f : FRef} (hc : redCodes.contains code = false) (hx : ¬ recorderKey f.addr) :
    (eventD code a d s).get f = s.get f := by
  unfold State.get; rw [rd_eventD hc hx]

end Sys2Proof.Machine
end

