-- ==== Sys2Proof/Laws/Memory.lean ====
section
/-! SUPPORT. Laws of plain memory: a read after a write gives what was written, and a write leaves every other byte alone. -/

namespace Sys2Proof.Machine

theorem State.byte_setBytes_outside (s : State) (a : Nat) (l : List Byte) (x : Nat) (h : x < a ∨ a + l.length ≤ x) :
    (s.setBytes a l).byte x = s.byte x := by
  induction l generalizing s a with
  | nil => rfl
  | cons b bs ih =>
      simp only [List.length_cons] at h
      rw [State.setBytes, ih _ _ (by omega), State.byte_setByte, if_neg (by omega)]

theorem State.bytes_setBytes (s : State) (a : Nat) (l : List Byte) : (s.setBytes a l).bytes a l.length = l := by
  induction l generalizing s a with
  | nil => rfl
  | cons b bs ih =>
      rw [State.setBytes, List.length_cons, State.bytes, ih, State.byte_setBytes_outside _ _ _ _ (by omega), State.byte_setByte, if_pos rfl]

theorem State.bytes_setBytes_outside (s : State) (a : Nat) (l : List Byte) (x n : Nat) (h : x + n ≤ a ∨ a + l.length ≤ x) :
    (s.setBytes a l).bytes x n = s.bytes x n := by
  induction n generalizing x with
  | zero => rfl
  | succ n ih => rw [State.bytes, State.bytes, ih _ (by omega), State.byte_setBytes_outside _ _ _ _ (by omega)]

/-- A write of plain bytes touches memory alone. -/
theorem State.setBytes_eq (s : State) (a : Nat) (l : List Byte) : s.setBytes a l = { s with mem := (s.setBytes a l).mem } := by
  induction l generalizing s a with
  | nil => rfl
  | cons b bs ih => rw [State.setBytes, ih]; rfl

end Sys2Proof.Machine
end

