-- ==== Sys2Proof/WellFormed.lean ====
section
/-! DEFINITION. Which commands a sender can send: the relations among a command's operands that their types do not say. -/

namespace Sys2Proof

/-- No member twice. -/
def distinct {α : Type} [DecidableEq α] : List α → Bool
  | [] => true
  | a :: l => !l.contains a && distinct l

/-- The well-formed commands: the classes of R285, times within the 64-bit counter, lists as long as what they list,
data only where some is carried. -/
def Instr.wf : Instr → Bool
  | .nop .. | .launch .. | .baseadd .. | .setpred .. | .stepend .. | .post .. | .parkpoint .. | .call .. | .mmf .. |
    .mmbi .. | .mmbw .. | .erun .. | .estamp .. | .fcopy .. | .fmove .. | .ftint .. | .fmirsync .. | .allreduce .. |
    .redscat .. | .allgather .. | .bcast .. | .alltoall .. | .shift .. | .permute .. | .telemSnap .. | .eventMark .. |
    .whlseqSet .. | .shareSet .. | .gateSet .. | .ovfClr .. | .waitMet .. | .commandRetire .. | .sluiceOpen .. |
    .preWake .. | .stepAdvance .. | .waitLimitExpiry .. | .queuePark .. | .start .. | .resume .. | .parkreq .. | .thaw .. |
    .thawnext .. | .qreset .. | .matrixParityFault .. | .elementParityFault .. | .flumeParityFault .. |
    .ballastRampDown .. | .tileClockGate .. | .tilePowerGateEntry .. | .tileIsolation .. | .tilePowerGateComplete .. |
    .tileWake .. | .tileWakeComplete .. | .tilGateWake .. | .glbJobseedCommit .. | .tilOvfClr .. | .mxeCntClr .. |
    .eleCntClr .. | .flmCntClr .. | .hbcCntClr .. | .tilFlagWrite .. | .tilFlagadd .. | .go .. | .loadDone .. | .save .. |
    .saveDone .. | .parkall .. | .mirRegionEnable .. | .mirctlEn .. | .linkEn .. | .retrain .. | .park .. | .lpm .. |
    .lnkCntClr .. | .lnkTest .. | .lnkPlanWrite .. | .linkTrained .. | .trainingTimeout .. | .absentRetry .. |
    .helloTimeout .. | .helloSend .. | .lockLost .. | .failedHoldExpiry .. | .replayTimeout .. | .cellSend .. | .idle .. |
    .hello .. | .link .. | .check .. | .arm .. | .disarm .. | .prtProtoWrite .. | .glbCoordWrite .. |
    .routingTableWrite .. | .segf .. | .seg .. | .grant .. | .signal .. | .notice .. | .noticeFull .. | .noticeAborted .. |
    .refuse .. | .flush .. | .adaptiveFallback .. | .open_ .. | .stamp .. | .retire .. | .flrep .. | .flclr .. |
    .rteCntClr .. | .flushReportSend .. | .flushGuardExpiry .. | .ethFrameReceive .. | .pfcFrameReceive .. | .lldpSend .. |
    .lldpReceive .. | .colGrant .. | .close .. | .colAbort .. | .chunkResend .. | .progressTimeout .. |
    .collectiveComplete .. | .whlAbort .. | .whlCntClr .. | .timeRequestSend .. | .parentUnusable .. | .ppsLoss .. |
    .timePpsOutPulse .. | .capt .. | .ftmLoad .. | .ftmCntClr .. | .perst .. | .functionLevelReset .. |
    .surpriseRemoval .. | .hstClaim .. | .hstRelease .. | .hstSeize .. | .hstViolrecRead .. | .hstPortthaw .. | .dbl .. |
    .mbxPost .. | .postwaitExpiry .. | .mbxCons .. | .mbxclr .. | .hstFwatchArm .. | .dmaProd .. | .dmaCfgEn .. |
    .dmaDescriptorComplete .. | .quePostrecRead .. | .lpcMirunmirRead .. | .hstPostrecRead .. | .mgtRepdropRead .. |
    .watchdogReset .. | .mbxTelemetry .. | .mbxCertificates .. | .mbxTagArea .. | .mbxUpdate .. | .mbxMeasurements .. |
    .replyRetry .. | .setEndpointId .. | .gettid .. | .settid .. | .getpldmversion .. | .getpldmtypes .. |
    .getpldmcommands .. | .getsensorreading .. | .getstatesensorreadings .. | .seteventreceiver .. | .pdrRepository .. |
    .pldmInvalidType .. | .updateFlashDone .. | .activatefirmware .. | .recoveryUpdateTimeout .. | .secSvncommit .. |
    .svnFuseDone .. | .coldReset .. | .deviceReset .. | .tileReset .. | .bootRomCheck .. | .firmwareStart .. |
    .memoryClear .. | .deviceReady .. | .eventRecord .. | .redFlashCopy .. | .redEscalation .. | .tokenRefill .. |
    .evrFaultClear .. | .evrCntClr .. | .bridgeError .. | .supplyLoss .. | .supplyDip .. | .thermalTrip .. |
    .junctionThrottle .. | .prochotNAssert .. | .prochotNRelease .. | .currentCap .. | .throttleStep .. | .pwrForce .. |
    .pwrCntClr .. | .avsStatusAlert .. | .memoryOvertemp .. | .bypass .. | .idcode .. | .samplePreload .. | .extest .. |
    .extestPulse .. | .extestTrain .. | .discardedCell .. | .supplyValid .. | .resetNRise .. | .perstDeassertion .. |
    .configurationRequest .. | .hostPortLinkUp .. | .completionTimeout .. | .doubledRefresh .. | .mbxReservedService .. => true
  | .patrolScrub _ errs => distinct (errs.map (·.1)) && errs.all (·.2 != 0)
  | .segWrite _ cls _ => decide (cls < 5)
  | .segRead _ cls _ => decide (cls < 5)
  | .segRdata _ cls _ => decide (cls < 5)
  | .segAdd _ cls _ => decide (cls < 5)
  | .segMirror _ cls _ => decide (cls < 5)
  | .transportResend _ cls _ => decide (cls < 5)
  | .transportGiveUp _ cls _ => decide (cls < 5)
  | .ethFrameSend _ cls _ => decide (cls < 5)
  | .pfcRepeat _ cls => decide (cls < 5)
  | .colChunk _ cells => cells != []
  | .timeRequest _ _ t => decide (t < 2 ^ 68)
  | .timeReply _ _ t => decide (t < 2 ^ 68)
  | .timePpsInEdge t => decide (t < 2 ^ 68)
  | .bar4Access _ _ write len data ep => decide (0 < len) && (if write then data.length == len else data == [] && !ep)
  | .telemetrySample _ vals => vals.length == 31
  | .getVersion _ req => decide (4 ≤ req.length)
  | .getCapabilities _ req => decide (4 ≤ req.length)
  | .negotiateAlgorithms _ req => decide (4 ≤ req.length)
  | .getDigests _ req => decide (4 ≤ req.length)
  | .getCertificate _ req => decide (4 ≤ req.length)
  | .challenge _ req => decide (4 ≤ req.length)
  | .getMeasurements _ req => decide (4 ≤ req.length)
  | .respondIfReady _ req => decide (4 ≤ req.length)
  | .spdmUnsupportedRequest _ req => decide (4 ≤ req.length)
  | .pldmFruData _ write data _ => write || data == []
  | .requestupdate _ size => decide (size < 2 ^ 32)
  | .updateImageData _ data => data != []
  | .memoryInitialisation refused => distinct refused
  | .avsCurrentRead iface reading => reading.all fun l => l.length == (if iface.val = 0 then 3 else 2)
  | .avsWriteRetry _ tries _ => decide (1 ≤ tries) && decide (tries ≤ 4)
  | .registerWrite _ _ _ bytes _ => decide (0 < bytes)
  | .hostReadCompletion _ _ ok data _ => ok || data == []
  | .duplicateKeyExpiry _ cls _ => decide (cls < 5)

end Sys2Proof
end

