-- ==== Sys2Proof/Laws/PerInstr.lean ====
section
/-! SUPPORT. What the well-formedness check says of each command, as a proposition. -/

namespace Sys2Proof.Laws

theorem distinct_iff {α : Type} [DecidableEq α] (l : List α) : distinct l = true ↔ l.Nodup := by
  induction l with
  | nil => simp [distinct]
  | cons a l ih => simp [distinct, ih]

/-- A command is well formed exactly if its operands meet the condition its row has; rows with none are always. -/
def Wf.Statement : Instr → Prop
  | .patrolScrub a0 errs => (Instr.patrolScrub a0 errs).wf = true ↔ ((errs.map (·.1)).Nodup ∧ ∀ e ∈ errs, e.2 ≠ 0)
  | .segWrite a0 cls a2 => (Instr.segWrite a0 cls a2).wf = true ↔ (cls < 5)
  | .segRead a0 cls a2 => (Instr.segRead a0 cls a2).wf = true ↔ (cls < 5)
  | .segRdata a0 cls a2 => (Instr.segRdata a0 cls a2).wf = true ↔ (cls < 5)
  | .segAdd a0 cls a2 => (Instr.segAdd a0 cls a2).wf = true ↔ (cls < 5)
  | .segMirror a0 cls a2 => (Instr.segMirror a0 cls a2).wf = true ↔ (cls < 5)
  | .transportResend a0 cls a2 => (Instr.transportResend a0 cls a2).wf = true ↔ (cls < 5)
  | .transportGiveUp a0 cls a2 => (Instr.transportGiveUp a0 cls a2).wf = true ↔ (cls < 5)
  | .ethFrameSend a0 cls a2 => (Instr.ethFrameSend a0 cls a2).wf = true ↔ (cls < 5)
  | .pfcRepeat a0 cls => (Instr.pfcRepeat a0 cls).wf = true ↔ (cls < 5)
  | .colChunk a0 cells => (Instr.colChunk a0 cells).wf = true ↔ (cells ≠ [])
  | .timeRequest a0 a1 t => (Instr.timeRequest a0 a1 t).wf = true ↔ (t < 2 ^ 68)
  | .timeReply a0 a1 t => (Instr.timeReply a0 a1 t).wf = true ↔ (t < 2 ^ 68)
  | .timePpsInEdge t => (Instr.timePpsInEdge t).wf = true ↔ (t < 2 ^ 68)
  | .bar4Access a0 a1 write len data ep => (Instr.bar4Access a0 a1 write len data ep).wf = true ↔ (0 < len ∧ if write then data.length = len else data = [] ∧ ep = false)
  | .telemetrySample a0 vals => (Instr.telemetrySample a0 vals).wf = true ↔ (vals.length = 31)
  | .getVersion a0 req => (Instr.getVersion a0 req).wf = true ↔ (4 ≤ req.length)
  | .getCapabilities a0 req => (Instr.getCapabilities a0 req).wf = true ↔ (4 ≤ req.length)
  | .negotiateAlgorithms a0 req => (Instr.negotiateAlgorithms a0 req).wf = true ↔ (4 ≤ req.length)
  | .getDigests a0 req => (Instr.getDigests a0 req).wf = true ↔ (4 ≤ req.length)
  | .getCertificate a0 req => (Instr.getCertificate a0 req).wf = true ↔ (4 ≤ req.length)
  | .challenge a0 req => (Instr.challenge a0 req).wf = true ↔ (4 ≤ req.length)
  | .getMeasurements a0 req => (Instr.getMeasurements a0 req).wf = true ↔ (4 ≤ req.length)
  | .respondIfReady a0 req => (Instr.respondIfReady a0 req).wf = true ↔ (4 ≤ req.length)
  | .spdmUnsupportedRequest a0 req => (Instr.spdmUnsupportedRequest a0 req).wf = true ↔ (4 ≤ req.length)
  | .pldmFruData a0 write data a3 => (Instr.pldmFruData a0 write data a3).wf = true ↔ (write = true ∨ data = [])
  | .requestupdate a0 size => (Instr.requestupdate a0 size).wf = true ↔ (size < 2 ^ 32)
  | .updateImageData a0 data => (Instr.updateImageData a0 data).wf = true ↔ (data ≠ [])
  | .memoryInitialisation refused => (Instr.memoryInitialisation refused).wf = true ↔ (refused.Nodup)
  | .avsCurrentRead iface reading => (Instr.avsCurrentRead iface reading).wf = true ↔ (∀ l, reading = some l → l.length = if iface.val = 0 then 3 else 2)
  | .avsWriteRetry a0 tries a2 => (Instr.avsWriteRetry a0 tries a2).wf = true ↔ (1 ≤ tries ∧ tries ≤ 4)
  | .registerWrite a0 a1 a2 bytes a4 => (Instr.registerWrite a0 a1 a2 bytes a4).wf = true ↔ (0 < bytes)
  | .hostReadCompletion a0 a1 ok data a4 => (Instr.hostReadCompletion a0 a1 ok data a4).wf = true ↔ (ok = true ∨ data = [])
  | .duplicateKeyExpiry a0 cls a2 => (Instr.duplicateKeyExpiry a0 cls a2).wf = true ↔ (cls < 5)
  | i => i.wf = true

namespace Wf

theorem nop x0 : Statement (.nop x0) := rfl
theorem launch x0 : Statement (.launch x0) := rfl
theorem baseadd x0 : Statement (.baseadd x0) := rfl
theorem setpred x0 : Statement (.setpred x0) := rfl
theorem stepend x0 : Statement (.stepend x0) := rfl
theorem post x0 : Statement (.post x0) := rfl
theorem parkpoint x0 : Statement (.parkpoint x0) := rfl
theorem call x0 : Statement (.call x0) := rfl
theorem mmf x0 x1 x2 x3 : Statement (.mmf x0 x1 x2 x3) := rfl
theorem mmbi x0 x1 x2 x3 : Statement (.mmbi x0 x1 x2 x3) := rfl
theorem mmbw x0 x1 x2 x3 : Statement (.mmbw x0 x1 x2 x3) := rfl
theorem erun x0 x1 : Statement (.erun x0 x1) := rfl
theorem estamp x0 : Statement (.estamp x0) := rfl
theorem fcopy x0 x1 : Statement (.fcopy x0 x1) := rfl
theorem fmove x0 x1 : Statement (.fmove x0 x1) := rfl
theorem ftint x0 x1 : Statement (.ftint x0 x1) := rfl
theorem fmirsync x0 x1 : Statement (.fmirsync x0 x1) := rfl
theorem allreduce x0 : Statement (.allreduce x0) := rfl
theorem redscat x0 : Statement (.redscat x0) := rfl
theorem allgather x0 : Statement (.allgather x0) := rfl
theorem bcast x0 : Statement (.bcast x0) := rfl
theorem alltoall x0 : Statement (.alltoall x0) := rfl
theorem shift x0 : Statement (.shift x0) := rfl
theorem permute x0 : Statement (.permute x0) := rfl
theorem telemSnap : Statement .telemSnap := rfl
theorem eventMark : Statement .eventMark := rfl
theorem whlseqSet : Statement .whlseqSet := rfl
theorem shareSet : Statement .shareSet := rfl
theorem gateSet : Statement .gateSet := rfl
theorem ovfClr : Statement .ovfClr := rfl
theorem waitMet x0 : Statement (.waitMet x0) := rfl
theorem commandRetire x0 : Statement (.commandRetire x0) := rfl
theorem sluiceOpen x0 : Statement (.sluiceOpen x0) := rfl
theorem preWake x0 : Statement (.preWake x0) := rfl
theorem stepAdvance x0 : Statement (.stepAdvance x0) := rfl
theorem waitLimitExpiry x0 : Statement (.waitLimitExpiry x0) := rfl
theorem queuePark x0 : Statement (.queuePark x0) := rfl
theorem start x0 x1 : Statement (.start x0 x1) := rfl
theorem resume x0 x1 : Statement (.resume x0 x1) := rfl
theorem parkreq x0 x1 x2 : Statement (.parkreq x0 x1 x2) := rfl
theorem thaw x0 x1 : Statement (.thaw x0 x1) := rfl
theorem thawnext x0 x1 : Statement (.thawnext x0 x1) := rfl
theorem qreset x0 x1 : Statement (.qreset x0 x1) := rfl
theorem matrixParityFault x0 x1 x2 : Statement (.matrixParityFault x0 x1 x2) := rfl
theorem elementParityFault x0 x1 : Statement (.elementParityFault x0 x1) := rfl
theorem flumeParityFault x0 x1 x2 : Statement (.flumeParityFault x0 x1 x2) := rfl
theorem ballastRampDown x0 x1 : Statement (.ballastRampDown x0 x1) := rfl
theorem tileClockGate x0 : Statement (.tileClockGate x0) := rfl
theorem tilePowerGateEntry x0 : Statement (.tilePowerGateEntry x0) := rfl
theorem tileIsolation x0 : Statement (.tileIsolation x0) := rfl
theorem tilePowerGateComplete x0 : Statement (.tilePowerGateComplete x0) := rfl
theorem tileWake x0 : Statement (.tileWake x0) := rfl
theorem tileWakeComplete x0 : Statement (.tileWakeComplete x0) := rfl
theorem tilGateWake x0 x1 : Statement (.tilGateWake x0 x1) := rfl
theorem glbJobseedCommit x0 x1 : Statement (.glbJobseedCommit x0 x1) := rfl
theorem tilOvfClr x0 x1 x2 : Statement (.tilOvfClr x0 x1 x2) := rfl
theorem mxeCntClr x0 x1 x2 : Statement (.mxeCntClr x0 x1 x2) := rfl
theorem eleCntClr x0 x1 : Statement (.eleCntClr x0 x1) := rfl
theorem flmCntClr x0 x1 x2 : Statement (.flmCntClr x0 x1 x2) := rfl
theorem hbcCntClr x0 x1 : Statement (.hbcCntClr x0 x1) := rfl
theorem tilFlagWrite x0 x1 x2 x3 : Statement (.tilFlagWrite x0 x1 x2 x3) := rfl
theorem tilFlagadd x0 x1 x2 x3 : Statement (.tilFlagadd x0 x1 x2 x3) := rfl
theorem go x0 x1 x2 : Statement (.go x0 x1 x2) := rfl
theorem loadDone x0 : Statement (.loadDone x0) := rfl
theorem save x0 x1 x2 : Statement (.save x0 x1 x2) := rfl
theorem saveDone x0 : Statement (.saveDone x0) := rfl
theorem parkall x0 x1 : Statement (.parkall x0 x1) := rfl
theorem patrolScrub x0 x1 : Statement (.patrolScrub x0 x1) := by
  show (distinct (x1.map (·.1)) && x1.all (·.2 != 0)) = true ↔ ((x1.map (·.1)).Nodup ∧ ∀ e ∈ x1, e.2 ≠ 0)
  simp [distinct_iff]
theorem mirRegionEnable x0 x1 : Statement (.mirRegionEnable x0 x1) := rfl
theorem mirctlEn x0 x1 : Statement (.mirctlEn x0 x1) := rfl
theorem linkEn x0 x1 x2 : Statement (.linkEn x0 x1 x2) := rfl
theorem retrain x0 x1 : Statement (.retrain x0 x1) := rfl
theorem park x0 x1 x2 : Statement (.park x0 x1 x2) := rfl
theorem lpm x0 x1 x2 : Statement (.lpm x0 x1 x2) := rfl
theorem lnkCntClr x0 x1 : Statement (.lnkCntClr x0 x1) := rfl
theorem lnkTest x0 x1 x2 x3 : Statement (.lnkTest x0 x1 x2 x3) := rfl
theorem lnkPlanWrite x0 x1 x2 : Statement (.lnkPlanWrite x0 x1 x2) := rfl
theorem linkTrained x0 : Statement (.linkTrained x0) := rfl
theorem trainingTimeout x0 : Statement (.trainingTimeout x0) := rfl
theorem absentRetry x0 : Statement (.absentRetry x0) := rfl
theorem helloTimeout x0 : Statement (.helloTimeout x0) := rfl
theorem helloSend x0 : Statement (.helloSend x0) := rfl
theorem lockLost x0 : Statement (.lockLost x0) := rfl
theorem failedHoldExpiry x0 : Statement (.failedHoldExpiry x0) := rfl
theorem replayTimeout x0 : Statement (.replayTimeout x0) := rfl
theorem cellSend x0 : Statement (.cellSend x0) := rfl
theorem idle x0 x1 x2 : Statement (.idle x0 x1 x2) := rfl
theorem hello x0 x1 : Statement (.hello x0 x1) := rfl
theorem link x0 x1 : Statement (.link x0 x1) := rfl
theorem check x0 : Statement (.check x0) := rfl
theorem arm x0 : Statement (.arm x0) := rfl
theorem disarm x0 : Statement (.disarm x0) := rfl
theorem prtProtoWrite x0 x1 : Statement (.prtProtoWrite x0 x1) := rfl
theorem glbCoordWrite x0 x1 : Statement (.glbCoordWrite x0 x1) := rfl
theorem routingTableWrite x0 x1 x2 x3 : Statement (.routingTableWrite x0 x1 x2 x3) := rfl
theorem segf x0 x1 x2 : Statement (.segf x0 x1 x2) := rfl
theorem seg x0 x1 x2 : Statement (.seg x0 x1 x2) := rfl
theorem segWrite x0 x1 x2 : Statement (.segWrite x0 x1 x2) := decide_eq_true_iff
theorem segRead x0 x1 x2 : Statement (.segRead x0 x1 x2) := decide_eq_true_iff
theorem segRdata x0 x1 x2 : Statement (.segRdata x0 x1 x2) := decide_eq_true_iff
theorem segAdd x0 x1 x2 : Statement (.segAdd x0 x1 x2) := decide_eq_true_iff
theorem segMirror x0 x1 x2 : Statement (.segMirror x0 x1 x2) := decide_eq_true_iff
theorem grant x0 x1 : Statement (.grant x0 x1) := rfl
theorem signal x0 x1 : Statement (.signal x0 x1) := rfl
theorem notice x0 x1 : Statement (.notice x0 x1) := rfl
theorem noticeFull x0 x1 : Statement (.noticeFull x0 x1) := rfl
theorem noticeAborted x0 x1 : Statement (.noticeAborted x0 x1) := rfl
theorem refuse x0 x1 : Statement (.refuse x0 x1) := rfl
theorem flush x0 x1 : Statement (.flush x0 x1) := rfl
theorem adaptiveFallback : Statement .adaptiveFallback := rfl
theorem transportResend x0 x1 x2 : Statement (.transportResend x0 x1 x2) := decide_eq_true_iff
theorem transportGiveUp x0 x1 x2 : Statement (.transportGiveUp x0 x1 x2) := decide_eq_true_iff
theorem open_ x0 : Statement (.open_ x0) := rfl
theorem stamp x0 x1 : Statement (.stamp x0 x1) := rfl
theorem retire x0 : Statement (.retire x0) := rfl
theorem flrep x0 x1 : Statement (.flrep x0 x1) := rfl
theorem flclr x0 : Statement (.flclr x0) := rfl
theorem rteCntClr x0 : Statement (.rteCntClr x0) := rfl
theorem flushReportSend : Statement .flushReportSend := rfl
theorem flushGuardExpiry : Statement .flushGuardExpiry := rfl
theorem ethFrameSend x0 x1 x2 : Statement (.ethFrameSend x0 x1 x2) := decide_eq_true_iff
theorem ethFrameReceive x0 x1 : Statement (.ethFrameReceive x0 x1) := rfl
theorem pfcFrameReceive x0 x1 x2 : Statement (.pfcFrameReceive x0 x1 x2) := rfl
theorem pfcRepeat x0 x1 : Statement (.pfcRepeat x0 x1) := decide_eq_true_iff
theorem lldpSend x0 : Statement (.lldpSend x0) := rfl
theorem lldpReceive x0 x1 : Statement (.lldpReceive x0 x1) := rfl
theorem colChunk x0 x1 : Statement (.colChunk x0 x1) := bne_iff_ne
theorem colGrant x0 x1 : Statement (.colGrant x0 x1) := rfl
theorem close x0 x1 : Statement (.close x0 x1) := rfl
theorem colAbort x0 x1 : Statement (.colAbort x0 x1) := rfl
theorem chunkResend x0 : Statement (.chunkResend x0) := rfl
theorem progressTimeout x0 : Statement (.progressTimeout x0) := rfl
theorem collectiveComplete x0 : Statement (.collectiveComplete x0) := rfl
theorem whlAbort x0 x1 : Statement (.whlAbort x0 x1) := rfl
theorem whlCntClr x0 x1 : Statement (.whlCntClr x0 x1) := rfl
theorem timeRequestSend x0 : Statement (.timeRequestSend x0) := rfl
theorem timeRequest x0 x1 x2 : Statement (.timeRequest x0 x1 x2) := decide_eq_true_iff
theorem timeReply x0 x1 x2 : Statement (.timeReply x0 x1 x2) := decide_eq_true_iff
theorem parentUnusable : Statement .parentUnusable := rfl
theorem timePpsInEdge x0 : Statement (.timePpsInEdge x0) := decide_eq_true_iff
theorem ppsLoss : Statement .ppsLoss := rfl
theorem timePpsOutPulse : Statement .timePpsOutPulse := rfl
theorem capt x0 : Statement (.capt x0) := rfl
theorem ftmLoad x0 : Statement (.ftmLoad x0) := rfl
theorem ftmCntClr x0 : Statement (.ftmCntClr x0) := rfl
theorem perst x0 : Statement (.perst x0) := rfl
theorem functionLevelReset x0 : Statement (.functionLevelReset x0) := rfl
theorem surpriseRemoval x0 : Statement (.surpriseRemoval x0) := rfl
theorem bar4Access x0 x1 x2 x3 x4 x5 : Statement (.bar4Access x0 x1 x2 x3 x4 x5) := by
  show (decide (0 < x3) && (if x2 then x4.length == x3 else x4 == [] && !x5)) = true ↔ (0 < x3 ∧ if x2 then x4.length = x3 else x4 = [] ∧ x5 = false)
  cases x2 <;> simp
theorem hstClaim x0 : Statement (.hstClaim x0) := rfl
theorem hstRelease x0 : Statement (.hstRelease x0) := rfl
theorem hstSeize x0 : Statement (.hstSeize x0) := rfl
theorem hstViolrecRead x0 x1 : Statement (.hstViolrecRead x0 x1) := rfl
theorem hstPortthaw x0 : Statement (.hstPortthaw x0) := rfl
theorem dbl x0 x1 x2 x3 : Statement (.dbl x0 x1 x2 x3) := rfl
theorem mbxPost x0 x1 : Statement (.mbxPost x0 x1) := rfl
theorem postwaitExpiry x0 x1 : Statement (.postwaitExpiry x0 x1) := rfl
theorem mbxCons x0 x1 x2 : Statement (.mbxCons x0 x1 x2) := rfl
theorem mbxclr x0 : Statement (.mbxclr x0) := rfl
theorem hstFwatchArm x0 x1 x2 : Statement (.hstFwatchArm x0 x1 x2) := rfl
theorem dmaProd x0 x1 x2 x3 : Statement (.dmaProd x0 x1 x2 x3) := rfl
theorem dmaCfgEn x0 x1 x2 x3 : Statement (.dmaCfgEn x0 x1 x2 x3) := rfl
theorem dmaDescriptorComplete x0 x1 : Statement (.dmaDescriptorComplete x0 x1) := rfl
theorem quePostrecRead x0 x1 : Statement (.quePostrecRead x0 x1) := rfl
theorem lpcMirunmirRead x0 : Statement (.lpcMirunmirRead x0) := rfl
theorem hstPostrecRead x0 x1 : Statement (.hstPostrecRead x0 x1) := rfl
theorem mgtRepdropRead x0 : Statement (.mgtRepdropRead x0) := rfl
theorem watchdogReset : Statement .watchdogReset := rfl
theorem telemetrySample x0 x1 : Statement (.telemetrySample x0 x1) := beq_iff_eq
theorem mbxTelemetry : Statement .mbxTelemetry := rfl
theorem mbxCertificates : Statement .mbxCertificates := rfl
theorem mbxTagArea x0 : Statement (.mbxTagArea x0) := rfl
theorem mbxUpdate : Statement .mbxUpdate := rfl
theorem mbxMeasurements : Statement .mbxMeasurements := rfl
theorem replyRetry : Statement .replyRetry := rfl
theorem getVersion x0 x1 : Statement (.getVersion x0 x1) := decide_eq_true_iff
theorem getCapabilities x0 x1 : Statement (.getCapabilities x0 x1) := decide_eq_true_iff
theorem negotiateAlgorithms x0 x1 : Statement (.negotiateAlgorithms x0 x1) := decide_eq_true_iff
theorem getDigests x0 x1 : Statement (.getDigests x0 x1) := decide_eq_true_iff
theorem getCertificate x0 x1 : Statement (.getCertificate x0 x1) := decide_eq_true_iff
theorem challenge x0 x1 : Statement (.challenge x0 x1) := decide_eq_true_iff
theorem getMeasurements x0 x1 : Statement (.getMeasurements x0 x1) := decide_eq_true_iff
theorem respondIfReady x0 x1 : Statement (.respondIfReady x0 x1) := decide_eq_true_iff
theorem spdmUnsupportedRequest x0 x1 : Statement (.spdmUnsupportedRequest x0 x1) := decide_eq_true_iff
theorem setEndpointId x0 x1 : Statement (.setEndpointId x0 x1) := rfl
theorem gettid x0 : Statement (.gettid x0) := rfl
theorem settid x0 x1 : Statement (.settid x0 x1) := rfl
theorem getpldmversion x0 x1 : Statement (.getpldmversion x0 x1) := rfl
theorem getpldmtypes x0 : Statement (.getpldmtypes x0) := rfl
theorem getpldmcommands x0 x1 : Statement (.getpldmcommands x0 x1) := rfl
theorem getsensorreading x0 x1 : Statement (.getsensorreading x0 x1) := rfl
theorem getstatesensorreadings x0 x1 : Statement (.getstatesensorreadings x0 x1) := rfl
theorem seteventreceiver x0 x1 : Statement (.seteventreceiver x0 x1) := rfl
theorem pdrRepository x0 x1 : Statement (.pdrRepository x0 x1) := rfl
theorem pldmFruData x0 x1 x2 x3 : Statement (.pldmFruData x0 x1 x2 x3) := by
  show (x1 || x2 == []) = true ↔ (x1 = true ∨ x2 = [])
  simp
theorem pldmInvalidType x0 x1 : Statement (.pldmInvalidType x0 x1) := rfl
theorem requestupdate x0 x1 : Statement (.requestupdate x0 x1) := decide_eq_true_iff
theorem updateImageData x0 x1 : Statement (.updateImageData x0 x1) := bne_iff_ne
theorem updateFlashDone x0 : Statement (.updateFlashDone x0) := rfl
theorem activatefirmware x0 : Statement (.activatefirmware x0) := rfl
theorem recoveryUpdateTimeout : Statement .recoveryUpdateTimeout := rfl
theorem secSvncommit x0 x1 : Statement (.secSvncommit x0 x1) := rfl
theorem svnFuseDone : Statement .svnFuseDone := rfl
theorem coldReset : Statement .coldReset := rfl
theorem deviceReset x0 x1 : Statement (.deviceReset x0 x1) := rfl
theorem tileReset x0 x1 : Statement (.tileReset x0 x1) := rfl
theorem bootRomCheck : Statement .bootRomCheck := rfl
theorem firmwareStart : Statement .firmwareStart := rfl
theorem memoryInitialisation x0 : Statement (.memoryInitialisation x0) := distinct_iff x0
theorem memoryClear : Statement .memoryClear := rfl
theorem deviceReady x0 : Statement (.deviceReady x0) := rfl
theorem eventRecord x0 x1 x2 : Statement (.eventRecord x0 x1 x2) := rfl
theorem redFlashCopy x0 : Statement (.redFlashCopy x0) := rfl
theorem redEscalation : Statement .redEscalation := rfl
theorem tokenRefill : Statement .tokenRefill := rfl
theorem evrFaultClear x0 : Statement (.evrFaultClear x0) := rfl
theorem evrCntClr x0 : Statement (.evrCntClr x0) := rfl
theorem bridgeError x0 : Statement (.bridgeError x0) := rfl
theorem supplyLoss x0 : Statement (.supplyLoss x0) := rfl
theorem supplyDip x0 : Statement (.supplyDip x0) := rfl
theorem thermalTrip x0 : Statement (.thermalTrip x0) := rfl
theorem junctionThrottle x0 x1 : Statement (.junctionThrottle x0 x1) := rfl
theorem prochotNAssert : Statement .prochotNAssert := rfl
theorem prochotNRelease : Statement .prochotNRelease := rfl
theorem currentCap x0 x1 : Statement (.currentCap x0 x1) := rfl
theorem throttleStep x0 : Statement (.throttleStep x0) := rfl
theorem pwrForce x0 x1 x2 : Statement (.pwrForce x0 x1 x2) := rfl
theorem pwrCntClr x0 : Statement (.pwrCntClr x0) := rfl
theorem avsCurrentRead x0 x1 : Statement (.avsCurrentRead x0 x1) := by
  show (x1.all fun l => l.length == (if x0.val = 0 then 3 else 2)) = true ↔ (∀ l, x1 = some l → l.length = if x0.val = 0 then 3 else 2)
  cases x1 <;> simp
theorem avsStatusAlert x0 x1 : Statement (.avsStatusAlert x0 x1) := rfl
theorem avsWriteRetry x0 x1 x2 : Statement (.avsWriteRetry x0 x1 x2) := by
  show (decide (1 ≤ x1) && decide (x1 ≤ 4)) = true ↔ (1 ≤ x1 ∧ x1 ≤ 4)
  simp
theorem memoryOvertemp x0 x1 : Statement (.memoryOvertemp x0 x1) := rfl
theorem bypass : Statement .bypass := rfl
theorem idcode : Statement .idcode := rfl
theorem samplePreload x0 : Statement (.samplePreload x0) := rfl
theorem extest : Statement .extest := rfl
theorem extestPulse : Statement .extestPulse := rfl
theorem extestTrain : Statement .extestTrain := rfl
theorem registerWrite x0 x1 x2 x3 x4 : Statement (.registerWrite x0 x1 x2 x3 x4) := decide_eq_true_iff
theorem discardedCell x0 x1 x2 : Statement (.discardedCell x0 x1 x2) := rfl
theorem supplyValid x0 : Statement (.supplyValid x0) := rfl
theorem resetNRise x0 : Statement (.resetNRise x0) := rfl
theorem perstDeassertion x0 : Statement (.perstDeassertion x0) := rfl
theorem configurationRequest x0 x1 : Statement (.configurationRequest x0 x1) := rfl
theorem hostPortLinkUp x0 : Statement (.hostPortLinkUp x0) := rfl
theorem hostReadCompletion x0 x1 x2 x3 x4 : Statement (.hostReadCompletion x0 x1 x2 x3 x4) := by
  show (x2 || x3 == []) = true ↔ (x2 = true ∨ x3 = [])
  simp
theorem completionTimeout x0 x1 : Statement (.completionTimeout x0 x1) := rfl
theorem duplicateKeyExpiry x0 x1 x2 : Statement (.duplicateKeyExpiry x0 x1 x2) := decide_eq_true_iff
theorem doubledRefresh x0 x1 : Statement (.doubledRefresh x0 x1) := rfl
theorem mbxReservedService x0 : Statement (.mbxReservedService x0) := rfl

end Wf

end Sys2Proof.Laws
end

