-- ==== Sys2Proof/Laws/Queue.lean ====
section
/-! SUPPORT. What the shared stages of a queue's command do, and what an owner's write lets through. -/

namespace Sys2Proof.Machine

variable {s : State}

/-- A command that may begin finds no unretired SETPRED before it. -/
theorem State.predReady_of_mayBegin {q : Nat} {serial : Bool} (h : s.mayBegin q serial = true) : s.predReady q = true := by
  unfold State.mayBegin at h
  split at h
  · unfold State.predReady
    rw [List.isEmpty_iff.mp h]
    rfl
  · exact h

theorem State.HeadRuns.predReady {q op : Nat} {serial : Bool} (h : s.HeadRuns q op serial) : s.predReady q = true :=
  State.predReady_of_mayBegin h.mayBegin

/-- A head command that passes every stage before its work issues as its work answers. -/
theorem runHead_of {q op : Nat} {serial : Bool} {work : Issued → State → State × Issue} (h : s.HeadRuns q op serial) :
    runHead q op serial work s = match (work (s.newIssued q) (bumpUid s)).2 with
      | .issued e => issue q e (work (s.newIssued q) (bumpUid s)).1
      | .held => (work (s.newIssued q) (bumpUid s)).1 := by
  have hw : (s.newIssued q).word = s.headWord q := rfl
  have hp : (s.newIssued q).pass = (s.headCmd q).2.1 := rfl
  have e1 : ((!(s.que q).chosen) && !s.predReady q) = false := by simp [h.predReady]
  have e3 : ((!(s.que q).chosen) && !s.executes (homeSet q) (s.headWord q)) = false := by rcases h.executes with h | h <;> simp [h]
  have e2 : ¬ (hdrWaitFlag (s.headWord q) ≠ 0 ∧ (!(s.que q).waited) = true ∧ (!s.waitMet (homeSet q) (hdrWaitFlag (s.headWord q)) (hdrWaitValue (s.headWord q)) (s.headCmd q).2.1) = true) := by
    rcases h.waited with h | h | h <;> simp [h]
  unfold runHead
  simp only [e1, e3, h.atHead, h.mayBegin, h.fetched, h.awake, Bool.not_true, h.noFreeze, h.noPark, hw, hp, h.signal, if_false, Bool.false_eq_true]
  refine (if_neg e2).trans ?_
  cases (work (s.newIssued q) (bumpUid s)).2 <;> rfl

/-- Within a pass moving past a command changes only PC (R119). -/
theorem advance_within {q : Nat} (h : s.get (QUE_STAT_PC q) + 1 < s.get (QUE_PROG_LEN q)) :
    advance q s = s.set (QUE_STAT_PC q) (s.get (QUE_STAT_PC q) + 1) := by unfold advance; simp only [if_pos h]

/-- Noting the last pass changes a queue's hidden state alone. -/
theorem lastPass_notes {q lim : Nat} : ∃ u, (if lim ≠ 0 ∧ s.get (QUE_PASS_PASS q) = lim then s.setQue q { s.que q with passEnd := true } else s) = { s with ques := u } ∧
    (State.que { s with ques := u } q).issued = (s.que q).issued := by
  split
  · exact ⟨_, rfl, by simp [State.que]⟩
  · exact ⟨_, rfl, rfl⟩

/-- After a pass's last command PC returns to 0 and PASS counts; a queue with no more passes notes it (R119). -/
theorem advance_last {q : Nat} (h : ¬ s.get (QUE_STAT_PC q) + 1 < s.get (QUE_PROG_LEN q)) :
    ∃ u, advance q s = { (s.set (QUE_STAT_PC q) 0).inc (QUE_PASS_PASS q) 1 with ques := u } ∧
        ((advance q s).que q).issued = (s.que q).issued := by
  obtain ⟨u, e, k⟩ := lastPass_notes (s := (s.set (QUE_STAT_PC q) 0).inc (QUE_PASS_PASS q) 1) (q := q) (lim := ((s.set (QUE_STAT_PC q) 0).inc (QUE_PASS_PASS q) 1).get (QUE_PASSLIM_PASSES q))
  have e' : advance q s = { (s.set (QUE_STAT_PC q) 0).inc (QUE_PASS_PASS q) 1 with ques := u } := by
    unfold advance
    simp only [if_neg h]
    exact e
  refine ⟨u, e', ?_⟩
  rw [e']
  exact k

theorem get_set_pc (q v : Nat) : (s.set (QUE_STAT_PC q) v).get (QUE_STAT_PC q) = v % 8192 := by
  rw [State.get_set_same _ _ (by simp [QUE_STAT_PC])]
  simp [QUE_STAT_PC]

theorem get_inc_pass (q n : Nat) : (s.inc (QUE_PASS_PASS q) n).get (QUE_PASS_PASS q) = (s.get (QUE_PASS_PASS q) + n) % 2 ^ 32 := by
  unfold State.inc
  rw [State.get_set_same _ _ (by simp [QUE_PASS_PASS])]
  simp [QUE_PASS_PASS]

theorem get_with_ques (u : Tab QueSt) (f : FRef) : State.get { s with ques := u } f = s.get f := rfl
theorem rd_with_ques (u : Tab QueSt) (a : Nat) : State.rd { s with ques := u } a = s.rd a := rfl

theorem pass_ne_stat (q : Nat) : aQUE_PASS q ≠ aQUE_STAT q := by unfold aQUE_PASS aQUE_STAT; omega

/-- Moving past a command changes only PC and, at the end of a pass, PASS (R119). -/
theorem advance_moves (q : Nat) :
    ((advance q s).que q).issued = (s.que q).issued ∧
    (advance q s).get (QUE_STAT_PC q) = (if s.get (QUE_STAT_PC q) + 1 < s.get (QUE_PROG_LEN q) then (s.get (QUE_STAT_PC q) + 1) % 8192 else 0) ∧
    (advance q s).get (QUE_PASS_PASS q) = (if s.get (QUE_STAT_PC q) + 1 < s.get (QUE_PROG_LEN q) then s.get (QUE_PASS_PASS q)
    else (s.get (QUE_PASS_PASS q) + 1) % 2 ^ 32) ∧
    s.RegsBut (fun a => a = aQUE_STAT q ∨ a = aQUE_PASS q) (advance q s) ∧
    advance q s = { s with regs := (advance q s).regs, ques := (advance q s).ques } := by
  have n1 := pass_ne_stat q
  by_cases hlt : s.get (QUE_STAT_PC q) + 1 < s.get (QUE_PROG_LEN q)
  · rw [advance_within hlt, if_pos hlt, if_pos hlt]
    refine ⟨rfl, get_set_pc _ _, State.get_set_other _ _ n1, ?_, rfl⟩
    intro a ha
    simp only [not_or] at ha
    exact (State.rd_set ..).trans (if_neg ha.1)
  · obtain ⟨u, e⟩ := advance_last hlt
    have k : ∀ a b : State, ∀ v, a = { (b.set (QUE_STAT_PC q) 0).inc (QUE_PASS_PASS q) 1 with ques := v } →
        a = { b with regs := a.regs, ques := a.ques } := by rintro _ b v rfl; rfl
    rw [if_neg hlt, if_neg hlt]
    refine ⟨e.2, ?_, ?_, ?_, k _ _ _ e.1⟩ <;> rw [e.1]
    · rw [get_with_ques]
      exact (State.get_set_other _ _ (Ne.symm n1)).trans ((get_set_pc _ _).trans (by simp))
    · rw [get_with_ques, get_inc_pass, State.get_set_other _ _ n1]
    · intro a ha
      simp only [not_or] at ha
      rw [rd_with_ques]
      exact (State.rd_set ..).trans ((if_neg ha.2).trans ((State.rd_set ..).trans (if_neg ha.1)))

/-- A command that no thaw runs again issues at the end of its queue and moves PC on. -/
theorem issue_fresh {q : Nat} {e : Issued} (h : s.Fresh q) :
    issue q e s = advance q (s.setQue q { s.que q with waited := false, chosen := false, issued := (s.que q).issued ++ [e] }) := by
  unfold issue
  simp only [show s.rerunHead q = none from h]

/-- A command with no effect of its own issues and moves its queue on. -/
theorem quickly_moves (q op : Nat) (b : Bool) (hf : s.Fresh q) (h : s.HeadRuns q op b) :
    s.MovesOn (runHead q op b (quickly fun _ s => s) s) q (s.newIssued q) ∧
      s.RegsBut (fun a => a = aQUE_STAT q ∨ a = aQUE_PASS q) (runHead q op b (quickly fun _ s => s) s) ∧
      runHead q op b (quickly fun _ s => s) s = { s with regs := (runHead q op b (quickly fun _ s => s) s).regs, ques := (runHead q op b (quickly fun _ s => s) s).ques, nextUid := s.nextUid + 1 } := by
  have e : runHead q op b (quickly fun _ s => s) s = advance q ((bumpUid s).setQue q { s.que q with waited := false, chosen := false, issued := (s.que q).issued ++ [s.newIssued q] }) := by
    rw [runHead_of h]
    exact issue_fresh (s := bumpUid s) hf
  rw [e]
  obtain ⟨h1, h2, h3, h4, h5⟩ := advance_moves (s := (bumpUid s).setQue q { s.que q with waited := false, chosen := false, issued := (s.que q).issued ++ [s.newIssued q] }) q
  refine ⟨⟨by rw [h1]; simp, h2, h3⟩, fun a ha => (h4 a ha).trans rfl, h5.trans rfl⟩

/-- A write its port may make has its effect. -/
theorem hostWrite_of {p bar off : Nat} {b : Bool} {eff : State → State} (h : s.mayWrite p b = true) :
    hostWrite p b bar off eff s = eff s := by
  unfold State.mayWrite at h
  simp only [Bool.and_eq_true, Bool.not_eq_true', Bool.or_eq_true] at h
  obtain ⟨⟨h1, h2⟩, h3⟩ := h
  unfold hostWrite
  rw [h1, h2]
  rcases b with _ | _
  · simp
  · have h3 : s.owns p = true := by simpa using h3
    simp [h3]

/-- An owner's write has its effect, after it wakes the tile it reaches. -/
theorem ownerWrite_of {p a : Nat} {eff : State → State} (h : s.mayWrite p true = true) :
    ownerWrite p a eff s = eff (wakeByAccess a s) := hostWrite_of h

/-- A register outside the tiles' blocks, and a tile's gate, wakes nothing. -/
theorem wakeByAccess_of {a : Nat} (h : ¬ (0x01000000 ≤ a ∧ a < 0x02800000 ∧ a % 0x100000 ≠ 0x10)) : wakeByAccess a s = s :=
  if_neg fun k => h ⟨k.1, k.2.1, k.2.2.1⟩

theorem forAll_same {α : Type} {l : List α} {f : α → State → State} (h : ∀ x ∈ l, f x s = s) : forAll l f s = s := by
  induction l with
  | nil => rfl
  | cons x l ih =>
    show forAll l f (f x s) = s
    rw [h x (by simp)]
    exact ih fun y hy => h y (by simp [hy])

/-- With no PFC frame due none leaves. -/
theorem pfcUpdate_quiet (h : s.Quiet) : pfcUpdate s = s := by
  unfold pfcUpdate
  split
  · rfl
  · rename_i hp
    refine forAll_same fun n hn => forAll_same fun k hk => ?_
    obtain ⟨h1, h2⟩ := List.mem_filter.mp hn
    have e := h.pfc (by simpa using hp) n h1 h2 k hk
    simp only [e]
    cases s.classHeld n k <;> simp

/-- With nothing held, on its way or being sent there is nothing to go on with. -/
theorem settleFab_quiet (h : s.Quiet) : settleFab s = s := by
  have hr : routeHeld s = s := by
    have e : s.setFab { s.fab with adapt := s.fab.adapt } = s := rfl
    unfold routeHeld
    rw [h.adapt] at *
    exact e
  unfold settleFab
  rw [hr]
  have hp : pump s = s := by
    unfold pump
    rw [h.sends]
    rfl
  rw [hp]
  unfold drainInbox
  rw [if_pos h.inbox]
  exact pfcUpdate_quiet h

end Sys2Proof.Machine
end

