-- ==== Sys2Proof/Laws/Stores.lean ====
section
/-! SUPPORT. What keeps the stores (`State.KeepsStores`): one lemma for each operation that writes no memory, instruction memory
or accumulator bank, and for each command that `Instr.storesNothing` names. -/

namespace Sys2Proof.Machine

variable {r s : State}

/-- An answer that goes on only to states with the stores of `r`. -/
structure KeepsStoresRes (r : State) (x : Res) : Prop where
  of : ∀ t, x = .next t → r.KeepsStores t

theorem KeepsStoresRes.next {t : State} (h : r.KeepsStores t) : KeepsStoresRes r (.next t) :=
  ⟨fun u e => by cases e; exact h⟩

theorem State.KeepsStores.refl (s : State) : s.KeepsStores s := ⟨rfl, rfl, rfl, rfl, rfl⟩

theorem State.KeepsStores.ite {p : Prop} [Decidable p] {a b : State} (ha : r.KeepsStores a) (hb : r.KeepsStores b) :
    r.KeepsStores (if p then a else b) := by split <;> assumption

theorem State.KeepsStores.foldl {α β : Type} (g : β → State) {l : List α} {f : β → α → β} {b : β} (h : r.KeepsStores (g b))
    (hf : ∀ y x, r.KeepsStores (g y) → r.KeepsStores (g (f y x))) : r.KeepsStores (g (l.foldl f b)) := by
  induction l generalizing b with
  | nil => exact h
  | cons x l ih => exact ih (hf _ _ h)

theorem State.KeepsStores.fold {α : Type} {l : List α} {f : State → α → State} (h : r.KeepsStores s)
    (hf : ∀ s x, r.KeepsStores s → r.KeepsStores (f s x)) : r.KeepsStores (l.foldl f s) := State.KeepsStores.foldl id h hf

theorem forAll_keeps {α : Type} {l : List α} {f : α → State → State} (hf : ∀ x s, r.KeepsStores s → r.KeepsStores (f x s))
    (h : r.KeepsStores s) : r.KeepsStores (forAll l f s) := State.KeepsStores.fold h fun s x => hf x s

theorem State.KeepsStores.same {regs : Tab Word} {rowErr : List (Nat × Nat)} {seedPend : BitVec 96} {ques : Tab QueSt} {landings : Tab RowWrites} {mxes : Tab MxSt} {gates : Tab GateSt} {links : Tab LinkSt} {fab : FabSt} {nextUid : Nat} {ports : Tab PortSt} {dmas : Tab DmaJob} {badBridges : Nat} {wheels : Tab WheelSt} {loads : Tab LoadJob} {mgt : MgtSt} {ftm : FtmSt} {evr : EvrSt} {boot : BootSt} {pwr : PwrSt} {tap : TapSt} {eventReceiver : Option Nat} {out : List Out} {freeCtr : Nat} {pending : List Instr} (h : r.KeepsStores s) :
    r.KeepsStores { regs := regs, mem := s.mem, poison := s.poison, errs := s.errs, rowErr := rowErr, seedPend := seedPend, imem := s.imem, ques := ques, banks := s.banks, landings := landings, mxes := mxes, gates := gates, links := links, fab := fab, nextUid := nextUid, ports := ports, dmas := dmas, badBridges := badBridges, wheels := wheels, loads := loads, mgt := mgt, ftm := ftm, evr := evr, boot := boot, pwr := pwr, tap := tap, eventReceiver := eventReceiver, out := out, freeCtr := freeCtr, pending := pending } :=
  ⟨h.mem, h.poison, h.errs, h.imem, h.banks⟩

theorem State.wr_keeps {a : Nat} {v : Word} (h : r.KeepsStores s) : r.KeepsStores (s.wr a v) := ⟨h.mem, h.poison, h.errs, h.imem, h.banks⟩
theorem State.resetRegs_keeps {a v : Nat} (h : r.KeepsStores s) : r.KeepsStores (s.resetRegs a v) := ⟨h.mem, h.poison, h.errs, h.imem, h.banks⟩
theorem State.setQue_keeps {a : Nat} {v : QueSt} (h : r.KeepsStores s) : r.KeepsStores (s.setQue a v) := ⟨h.mem, h.poison, h.errs, h.imem, h.banks⟩
theorem State.setMxe_keeps {a : Nat} {v : MxSt} (h : r.KeepsStores s) : r.KeepsStores (s.setMxe a v) := ⟨h.mem, h.poison, h.errs, h.imem, h.banks⟩
theorem State.setGate_keeps {a : Nat} {v : GateSt} (h : r.KeepsStores s) : r.KeepsStores (s.setGate a v) := ⟨h.mem, h.poison, h.errs, h.imem, h.banks⟩
theorem State.setPort_keeps {a : Nat} {v : PortSt} (h : r.KeepsStores s) : r.KeepsStores (s.setPort a v) := ⟨h.mem, h.poison, h.errs, h.imem, h.banks⟩
theorem State.setWheel_keeps {a : Nat} {v : WheelSt} (h : r.KeepsStores s) : r.KeepsStores (s.setWheel a v) := ⟨h.mem, h.poison, h.errs, h.imem, h.banks⟩
theorem State.setLink_keeps {a : Nat} {v : LinkSt} (h : r.KeepsStores s) : r.KeepsStores (s.setLink a v) := ⟨h.mem, h.poison, h.errs, h.imem, h.banks⟩
theorem State.setLoad_keeps {a : Nat} {v : LoadJob} (h : r.KeepsStores s) : r.KeepsStores (s.setLoad a v) := ⟨h.mem, h.poison, h.errs, h.imem, h.banks⟩
theorem State.setDom_keeps {a : Nat} {v : DomSt} (h : r.KeepsStores s) : r.KeepsStores (s.setDom a v) := ⟨h.mem, h.poison, h.errs, h.imem, h.banks⟩
theorem State.set_keeps {a : FRef} {v : Nat} (h : r.KeepsStores s) : r.KeepsStores (s.set a v) := ⟨h.mem, h.poison, h.errs, h.imem, h.banks⟩
theorem State.setDma_keeps {p c : Nat} {v : DmaJob} (h : r.KeepsStores s) : r.KeepsStores (s.setDma p c v) := ⟨h.mem, h.poison, h.errs, h.imem, h.banks⟩
theorem State.emit_keeps {v : Out} (h : r.KeepsStores s) : r.KeepsStores (s.emit v) := ⟨h.mem, h.poison, h.errs, h.imem, h.banks⟩
theorem State.inc_keeps {a : FRef} {v : Nat} (h : r.KeepsStores s) : r.KeepsStores (s.inc a v) := ⟨h.mem, h.poison, h.errs, h.imem, h.banks⟩
theorem State.incSat_keeps {a : FRef} {v : Nat} (h : r.KeepsStores s) : r.KeepsStores (s.incSat a v) := ⟨h.mem, h.poison, h.errs, h.imem, h.banks⟩
theorem State.tick_keeps (h : r.KeepsStores s) : r.KeepsStores s.tick := ⟨h.mem, h.poison, h.errs, h.imem, h.banks⟩

theorem raiseVector_keeps {p v : Nat} (h : r.KeepsStores s) : r.KeepsStores (raiseVector p v s) := by
  unfold raiseVector
  repeat' first
    | with_reducible assumption
    | with_reducible apply State.emit_keeps
    | with_reducible apply State.set_keeps
    | with_reducible apply State.KeepsStores.ite

theorem raiseBoth_keeps {v : Nat} (h : r.KeepsStores s) : r.KeepsStores (raiseBoth v s) := raiseVector_keeps (raiseVector_keeps h)

theorem sendPlatformEvent_keeps {a b : Nat} {d : Word} (h : r.KeepsStores s) : r.KeepsStores (sendPlatformEvent a b d s) := by
  unfold sendPlatformEvent
  repeat' first
    | with_reducible assumption
    | with_reducible apply State.emit_keeps
    | split

theorem announce_keeps {code sev : Nat} {d : Word} (hc : sev ≠ 2) (h : r.KeepsStores s) : r.KeepsStores (announce code sev d s) := by
  unfold announce
  extract_lets s1
  have h1 : r.KeepsStores s1 := sendPlatformEvent_keeps h
  clear_value s1
  rw [if_neg hc]
  repeat' first
    | with_reducible assumption
    | with_reducible apply State.set_keeps
    | with_reducible apply raiseBoth_keeps
    | with_reducible apply State.KeepsStores.ite

theorem writeRecord_keeps {c a v : Nat} {d : Word} {b : Bool} (h : r.KeepsStores s) : r.KeepsStores (writeRecord c a v d b s) := by
  unfold writeRecord
  repeat' first
    | with_reducible assumption
    | with_reducible apply State.set_keeps
    | with_reducible apply State.wr_keeps
    | (fail_if_no_progress with_reducible apply State.KeepsStores.same)

theorem recordEvent_keeps {code a : Nat} {d : Word} (hc : redCodes.contains code = false) (h : r.KeepsStores s) :
    r.KeepsStores (recordEvent code a d s) := by
  unfold recordEvent
  have hq := sevOf_quiet (d := s.degraded a) hc
  extract_lets sev
  rw [if_neg (show ¬ sev = 2 from hq)]
  have hs : sev ≠ 2 := hq
  clear_value sev
  repeat' first
    | with_reducible assumption
    | (with_reducible refine announce_keeps hs ?_)
    | with_reducible apply State.set_keeps
    | with_reducible apply State.inc_keeps
    | with_reducible apply State.incSat_keeps
    | with_reducible apply writeRecord_keeps
    | with_reducible apply State.KeepsStores.ite
    | (fail_if_no_progress with_reducible apply State.KeepsStores.same)

theorem event_keeps {code a : Nat} (hc : redCodes.contains code = false) (h : r.KeepsStores s) : r.KeepsStores (event code a s) :=
  recordEvent_keeps hc h

theorem eventD_keeps {code a d : Nat} (hc : redCodes.contains code = false) (h : r.KeepsStores s) : r.KeepsStores (eventD code a d s) :=
  recordEvent_keeps hc h

theorem regTable_quiet : regTable.all (fun r => !redCodes.contains r.grey) = true := by decide +kernel

theorem regRow_quiet {a : Nat} {x : RegRow} (h : regRow a = some x) : redCodes.contains x.grey = false := by
  have := List.all_eq_true.mp regTable_quiet x (List.mem_of_find?_eq_some h)
  simpa using this

theorem writeBits_keeps {a v lo hi : Nat} (h : r.KeepsStores s) : r.KeepsStores (writeBits a v lo hi s) := by
  unfold writeBits
  split
  · exact h
  · rename_i x hx
    exact State.KeepsStores.ite (eventD_keeps (regRow_quiet hx) (State.wr_keeps h)) (State.wr_keeps h)

theorem setPhase_keeps {x0 : Nat} {x1 : Sys2Proof.Machine.GatePhase} (h : r.KeepsStores s) :
    r.KeepsStores (setPhase x0 x1 s) := by
  unfold setPhase
  repeat' first
    | with_reducible assumption
    | (intro _)
    | with_reducible apply State.set_keeps
    | with_reducible apply State.setGate_keeps

theorem wakeTile_keeps {x0 : Nat} (h : r.KeepsStores s) :
    r.KeepsStores (wakeTile x0 s) := by
  unfold wakeTile
  repeat' first
    | with_reducible assumption
    | (intro _)
    | with_reducible apply State.setGate_keeps
    | with_reducible apply setPhase_keeps
    | with_reducible apply State.KeepsStores.ite
    | with_reducible apply State.KeepsStores.fold
    | (fail_if_no_progress with_reducible apply State.KeepsStores.same)
    | extract_lets
    | split

theorem grind_keeps {x0 : Nat} {x1 : Nat} {x2 : Nat} (h : r.KeepsStores s) :
    r.KeepsStores (grind x0 x1 x2 s) := by
  unfold grind
  repeat' first
    | with_reducible assumption
    | with_reducible apply State.inc_keeps
    | with_reducible apply State.setMxe_keeps
    | (fail_if_no_progress with_reducible apply State.KeepsStores.same)
    | extract_lets

theorem releaseEngine_keeps {x0 x1 : Nat} (h : r.KeepsStores s) :
    r.KeepsStores (releaseEngine x0 x1 s) := by
  unfold releaseEngine
  repeat' first
    | with_reducible assumption
    | (intro _)
    | with_reducible apply grind_keeps
    | with_reducible apply State.set_keeps
    | with_reducible apply State.setMxe_keeps
    | with_reducible apply State.KeepsStores.ite
    | (fail_if_no_progress with_reducible apply State.KeepsStores.same)
    | extract_lets
    | split

theorem releasePreWake_keeps {x0 : Nat} {x1 : List Nat} (h : r.KeepsStores s) :
    r.KeepsStores (releasePreWake x0 x1 s) := by
  unfold releasePreWake
  repeat' first
    | with_reducible assumption
    | (intro _)
    | with_reducible apply forAll_keeps
    | with_reducible apply State.setQue_keeps
    | with_reducible apply releaseEngine_keeps
    | with_reducible apply State.KeepsStores.ite
    | (fail_if_no_progress with_reducible apply State.KeepsStores.same)
    | extract_lets
    | split

theorem discardSluice_keeps {x0 : Nat} (h : r.KeepsStores s) :
    r.KeepsStores (discardSluice x0 s) := by
  unfold discardSluice
  repeat' first
    | with_reducible assumption
    | (intro _)
    | with_reducible apply State.setQue_keeps
    | with_reducible apply releasePreWake_keeps
    | with_reducible apply State.KeepsStores.ite
    | (fail_if_no_progress with_reducible apply State.KeepsStores.same)
    | extract_lets
    | split

theorem freezeQueue_keeps {x0 : Nat} {x1 : Nat} {x2 : Nat} {x3 : Nat} {x4 : Nat} (h : r.KeepsStores s) :
    r.KeepsStores (freezeQueue x0 x1 x2 x3 x4 s) := by
  unfold freezeQueue
  repeat' first
    | with_reducible assumption
    | with_reducible apply discardSluice_keeps
    | (intro _)
    | with_reducible apply State.set_keeps
    | with_reducible apply State.wr_keeps
    | with_reducible apply State.KeepsStores.ite

theorem waitFor_keeps {x0 : Nat} {x1 : Nat} {x2 : Nat} (h : r.KeepsStores s) :
    r.KeepsStores (waitFor x0 x1 x2 s) := by
  unfold waitFor
  repeat' first
    | with_reducible assumption
    | (intro _)
    | with_reducible apply State.set_keeps

theorem markAbort_keeps {x0 : Nat} {x1 : Nat} (h : r.KeepsStores s) :
    r.KeepsStores (markAbort x0 x1 s) := by
  unfold markAbort
  repeat' first
    | with_reducible assumption
    | (intro _)
    | with_reducible apply State.set_keeps
    | with_reducible apply State.KeepsStores.ite

theorem State.setGroup_keeps {x1 : Nat} {x2 : Bool} (h : r.KeepsStores s) :
    r.KeepsStores (State.setGroup s x1 x2) := by
  unfold State.setGroup
  repeat' first
    | with_reducible assumption
    | (intro _)
    | with_reducible apply State.set_keeps

theorem invalidateGroups_keeps {x0 : List (Nat × Bool × List (BitVec 32))} (h : r.KeepsStores s) :
    r.KeepsStores (invalidateGroups x0 s) := by
  unfold invalidateGroups
  repeat' first
    | with_reducible assumption
    | (intro _)
    | with_reducible apply forAll_keeps
    | with_reducible apply State.setGroup_keeps

theorem collFailed_keeps {x0 : Nat} {x1 : Sys2Proof.Machine.Coll} {x2 : Nat} {x3 : Nat} (h : r.KeepsStores s) :
    r.KeepsStores (collFailed x0 x1 x2 x3 s) := by
  unfold collFailed
  repeat' first
    | with_reducible assumption
    | (intro _)
    | with_reducible apply State.set_keeps
    | with_reducible apply State.setWheel_keeps
    | with_reducible apply State.KeepsStores.ite

theorem freezeHead_keeps {x0 : Nat} {x1 : Nat} {x2 : Nat} (hc : redCodes.contains x1 = false) (h : r.KeepsStores s) :
    r.KeepsStores (freezeHead x0 x1 x2 s) := by
  unfold freezeHead
  repeat' first
    | with_reducible assumption
    | (intro _)
    | with_reducible apply freezeQueue_keeps
    | (with_reducible refine eventD_keeps (by decide) ?_)
    | (with_reducible refine eventD_keeps (by assumption) ?_)
    | with_reducible apply State.setQue_keeps

theorem advance_keeps {x0 : Nat} (h : r.KeepsStores s) :
    r.KeepsStores (advance x0 s) := by
  unfold advance
  repeat' first
    | with_reducible assumption
    | (intro _)
    | with_reducible apply State.set_keeps
    | with_reducible apply State.inc_keeps
    | with_reducible apply State.setQue_keeps
    | with_reducible apply State.KeepsStores.ite

theorem issue_keeps {x0 : Nat} {x1 : Sys2Proof.Machine.Issued} (h : r.KeepsStores s) :
    r.KeepsStores (issue x0 x1 s) := by
  unfold issue
  repeat' first
    | with_reducible assumption
    | (intro _)
    | with_reducible apply State.setQue_keeps
    | with_reducible apply advance_keeps
    | with_reducible apply State.KeepsStores.ite
    | with_reducible apply State.KeepsStores.fold
    | (fail_if_no_progress with_reducible apply State.KeepsStores.same)
    | extract_lets
    | split

theorem bumpUid_keeps  (h : r.KeepsStores s) :
    r.KeepsStores (bumpUid s) := by
  unfold bumpUid
  repeat' first
    | with_reducible assumption
    | (intro _)
    | with_reducible apply State.KeepsStores.ite
    | with_reducible apply State.KeepsStores.fold
    | (fail_if_no_progress with_reducible apply State.KeepsStores.same)

theorem runHead_keeps {x0 : Nat} {x1 : Nat} {x2 : Bool} {x3 : Sys2Proof.Machine.Issued → Sys2Proof.Machine.State → Sys2Proof.Machine.State × Sys2Proof.Machine.Issue} (h3 : ∀ y0 s, r.KeepsStores s → r.KeepsStores (x3 y0 s).1) (h : r.KeepsStores s) :
    r.KeepsStores (runHead x0 x1 x2 x3 s) := by
  unfold runHead
  repeat' first
    | with_reducible assumption
    | (intro _)
    | with_reducible apply wakeTile_keeps
    | with_reducible apply freezeQueue_keeps
    | with_reducible apply State.setQue_keeps
    | with_reducible apply waitFor_keeps
    | (with_reducible refine freezeHead_keeps (by decide) ?_)
    | (with_reducible refine freezeHead_keeps (by assumption) ?_)
    | with_reducible apply issue_keeps
    | with_reducible apply bumpUid_keeps
    | with_reducible apply State.KeepsStores.ite
    | with_reducible apply State.KeepsStores.fold
    | with_reducible apply h3
    | (fail_if_no_progress with_reducible apply State.KeepsStores.same)
    | extract_lets
    | split

theorem trackRow_keeps {x0 : Sys2Proof.Machine.Home} {x1 : Nat} (h : r.KeepsStores s) :
    r.KeepsStores (trackRow x0 x1 s) := by
  unfold trackRow
  repeat' first
    | with_reducible assumption
    | (intro _)
    | (with_reducible refine eventD_keeps (by decide) ?_)
    | (with_reducible refine eventD_keeps (by assumption) ?_)
    | with_reducible apply State.KeepsStores.ite
    | with_reducible apply State.KeepsStores.fold
    | (fail_if_no_progress with_reducible apply State.KeepsStores.same)
    | extract_lets
    | split

theorem lastErr_keeps {x0 : Sys2Proof.Machine.Home} {x1 : Nat} {x2 : Nat} (h : r.KeepsStores s) :
    r.KeepsStores (lastErr x0 x1 x2 s) := by
  unfold lastErr
  repeat' first
    | with_reducible assumption
    | (intro _)
    | with_reducible apply State.set_keeps
    | with_reducible apply State.KeepsStores.ite
    | with_reducible apply State.KeepsStores.fold
    | (fail_if_no_progress with_reducible apply State.KeepsStores.same)
    | extract_lets
    | split

theorem countErr_keeps {x0 : Sys2Proof.Machine.Home} {x1 : Bool} (h : r.KeepsStores s) :
    r.KeepsStores (countErr x0 x1 s) := by
  unfold countErr
  repeat' first
    | with_reducible assumption
    | (intro _)
    | with_reducible apply State.inc_keeps
    | with_reducible apply State.KeepsStores.ite
    | with_reducible apply State.KeepsStores.fold
    | (fail_if_no_progress with_reducible apply State.KeepsStores.same)
    | extract_lets
    | split

theorem writePred_keeps {x0 : Nat} {x1 : Sys2Proof.Machine.Issued} {x2 : Bool} (h : r.KeepsStores s) :
    r.KeepsStores (writePred x0 x1 x2 s) := by
  unfold writePred
  repeat' first
    | with_reducible assumption
    | (intro _)
    | with_reducible apply State.set_keeps

theorem abortedNotice_keeps {x0 : Nat} {x1 : Nat} (h : r.KeepsStores s) :
    r.KeepsStores (abortedNotice x0 x1 s) := by
  unfold abortedNotice
  repeat' first
    | with_reducible assumption
    | (intro _)
    | with_reducible apply State.incSat_keeps
    | (with_reducible refine event_keeps (by decide) ?_)
    | (with_reducible refine event_keeps (by assumption) ?_)
    | with_reducible apply State.KeepsStores.ite
    | with_reducible apply State.KeepsStores.fold
    | (fail_if_no_progress with_reducible apply State.KeepsStores.same)
    | extract_lets
    | split

theorem State.setFab_keeps {x1 : Sys2Proof.Machine.FabSt} (h : r.KeepsStores s) :
    r.KeepsStores (State.setFab s x1) := by
  unfold State.setFab
  repeat' first
    | with_reducible assumption
    | (intro _)
    | with_reducible apply State.KeepsStores.ite
    | with_reducible apply State.KeepsStores.fold
    | (fail_if_no_progress with_reducible apply State.KeepsStores.same)

theorem countDrop_keeps {x0 : Sys2Proof.CellBits} (h : r.KeepsStores s) :
    r.KeepsStores (countDrop x0 s) := by
  unfold countDrop
  repeat' first
    | with_reducible assumption
    | (intro _)
    | with_reducible apply State.inc_keeps
    | with_reducible apply State.KeepsStores.ite

theorem onoff_keeps {x0 : Nat} {x1 : Nat} (h : r.KeepsStores s) :
    r.KeepsStores (onoff x0 x1 s) := by
  unfold onoff
  repeat' first
    | with_reducible assumption
    | (intro _)
    | with_reducible apply State.setLink_keeps
    | with_reducible apply State.KeepsStores.ite

theorem giveRoom_keeps {x0 : Option (Nat × Nat)} (h : r.KeepsStores s) :
    r.KeepsStores (giveRoom x0 s) := by
  unfold giveRoom
  repeat' first
    | with_reducible assumption
    | (intro _)
    | with_reducible apply onoff_keeps
    | with_reducible apply State.set_keeps
    | with_reducible apply State.KeepsStores.ite
    | with_reducible apply State.KeepsStores.fold
    | (fail_if_no_progress with_reducible apply State.KeepsStores.same)
    | extract_lets
    | split

theorem discardRouted_keeps {x0 : Bool} {x1 : Sys2Proof.Machine.QCell} (h : r.KeepsStores s) :
    r.KeepsStores (discardRouted x0 x1 s) := by
  unfold discardRouted
  repeat' first
    | with_reducible assumption
    | (intro _)
    | with_reducible apply countDrop_keeps
    | with_reducible apply State.inc_keeps
    | with_reducible apply giveRoom_keeps
    | with_reducible apply State.KeepsStores.ite

theorem takeRoom_keeps {x0 : Option (Nat × Nat)} (h : r.KeepsStores s) :
    r.KeepsStores (takeRoom x0 s) := by
  unfold takeRoom
  repeat' first
    | with_reducible assumption
    | (intro _)
    | with_reducible apply onoff_keeps
    | with_reducible apply State.set_keeps
    | with_reducible apply State.KeepsStores.ite
    | with_reducible apply State.KeepsStores.fold
    | (fail_if_no_progress with_reducible apply State.KeepsStores.same)
    | extract_lets
    | split

theorem holdCell_keeps {x0 : Bool} {x1 : Sys2Proof.Machine.QCell} (h : r.KeepsStores s) :
    r.KeepsStores (holdCell x0 x1 s) := by
  unfold holdCell
  repeat' first
    | with_reducible assumption
    | (intro _)
    | with_reducible apply takeRoom_keeps
    | with_reducible apply State.setFab_keeps
    | with_reducible apply State.KeepsStores.ite

theorem advancePath_keeps {x0 : Sys2Proof.Machine.QCell} (h : r.KeepsStores s) :
    r.KeepsStores (advancePath x0 s) := by
  unfold advancePath
  repeat' first
    | with_reducible assumption
    | (intro _)
    | with_reducible apply State.setFab_keeps

theorem markCe_keeps {x0 : Nat} {x1 : Nat} {x2 : Sys2Proof.Machine.QCell} (h : r.KeepsStores s) :
    r.KeepsStores (markCe x0 x1 x2 s).2 := by
  unfold markCe
  repeat' first
    | with_reducible assumption
    | (intro _)
    | with_reducible apply State.inc_keeps
    | with_reducible apply State.KeepsStores.ite
    | with_reducible apply State.KeepsStores.fold
    | (fail_if_no_progress with_reducible apply State.KeepsStores.same)
    | extract_lets
    | split

theorem enqueue_keeps {x0 : Nat} {x1 : Nat} {x2 : Nat} {x3 : Sys2Proof.Machine.QCell} (h : r.KeepsStores s) :
    r.KeepsStores (enqueue x0 x1 x2 x3 s) := by
  unfold enqueue
  repeat' first
    | with_reducible assumption
    | (intro _)
    | with_reducible apply markCe_keeps
    | with_reducible apply State.setLink_keeps
    | with_reducible apply State.KeepsStores.ite

theorem discardWhy_keeps {x0 : Bool} {x1 : Nat} {x2 : QCell} (h : r.KeepsStores s) :
    r.KeepsStores (discardWhy x0 x1 x2 s) := by
  unfold discardWhy
  repeat' first
    | with_reducible assumption
    | (with_reducible refine eventD_keeps (by decide) ?_)
    | (with_reducible refine eventD_keeps (by assumption) ?_)
    | with_reducible apply discardRouted_keeps

theorem openPath_keeps {x0 : QCell} {x1 : Option (Nat × Nat)} {x2 : Nat} (h : r.KeepsStores s) :
    r.KeepsStores (openPath x0 x1 x2 s) := by
  unfold openPath
  repeat' first
    | with_reducible assumption
    | (intro _)
    | with_reducible apply State.setFab_keeps
    | with_reducible apply State.KeepsStores.ite
    | (fail_if_no_progress with_reducible apply State.KeepsStores.same)
    | extract_lets
    | split

theorem routeEscape_keeps {x0 : Bool} {x1 : Option (Nat × Nat)} {x2 : Nat} {x3 : Sys2Proof.Machine.QCell} (h : r.KeepsStores s) :
    r.KeepsStores (routeEscape x0 x1 x2 x3 s) := by
  unfold routeEscape
  repeat' first
    | with_reducible assumption
    | (intro _)
    | (with_reducible refine eventD_keeps (by decide) ?_)
    | (with_reducible refine eventD_keeps (by assumption) ?_)
    | with_reducible apply openPath_keeps
    | with_reducible apply discardRouted_keeps
    | with_reducible apply takeRoom_keeps
    | with_reducible apply enqueue_keeps
    | with_reducible apply State.KeepsStores.ite
    | with_reducible apply State.KeepsStores.fold
    | (fail_if_no_progress with_reducible apply State.KeepsStores.same)
    | with_reducible apply discardWhy_keeps
    | extract_lets
    | split

theorem routeAdaptive_keeps {x0 : Bool} {x1 : Nat} {x2 : Sys2Proof.Machine.QCell} (h : r.KeepsStores s) :
    r.KeepsStores (routeAdaptive x0 x1 x2 s) := by
  unfold routeAdaptive
  repeat' first
    | with_reducible assumption
    | (intro _)
    | with_reducible apply routeEscape_keeps
    | with_reducible apply holdCell_keeps
    | with_reducible apply takeRoom_keeps
    | with_reducible apply enqueue_keeps
    | with_reducible apply openPath_keeps
    | with_reducible apply State.KeepsStores.ite
    | with_reducible apply State.KeepsStores.fold
    | (fail_if_no_progress with_reducible apply State.KeepsStores.same)
    | with_reducible apply discardWhy_keeps
    | extract_lets
    | split

theorem routeCell_keeps {x0 : Bool} {x1 : Sys2Proof.Machine.QCell} (h : r.KeepsStores s) :
    r.KeepsStores (routeCell x0 x1 s) := by
  unfold routeCell
  repeat' first
    | with_reducible assumption
    | (intro _)
    | (with_reducible refine event_keeps (by decide) ?_)
    | (with_reducible refine event_keeps (by assumption) ?_)
    | with_reducible apply discardRouted_keeps
    | with_reducible apply holdCell_keeps
    | with_reducible apply takeRoom_keeps
    | with_reducible apply advancePath_keeps
    | with_reducible apply enqueue_keeps
    | with_reducible apply routeEscape_keeps
    | with_reducible apply routeAdaptive_keeps
    | with_reducible apply State.KeepsStores.ite
    | with_reducible apply State.KeepsStores.fold
    | (fail_if_no_progress with_reducible apply State.KeepsStores.same)
    | with_reducible apply discardWhy_keeps
    | extract_lets
    | split

theorem originate_keeps {x0 : Nat} {x1 : Sys2Proof.CellBits} (h : r.KeepsStores s) :
    r.KeepsStores (originate x0 x1 s) := by
  unfold originate
  repeat' first
    | with_reducible assumption
    | (intro _)
    | with_reducible apply State.inc_keeps
    | with_reducible apply State.setFab_keeps
    | with_reducible apply routeCell_keeps
    | with_reducible apply State.KeepsStores.ite

theorem setSend_keeps {x0 : Nat} {x1 : Sys2Proof.Machine.Send → Sys2Proof.Machine.Send} (h : r.KeepsStores s) :
    r.KeepsStores (setSend x0 x1 s) := by
  unfold setSend
  repeat' first
    | with_reducible assumption
    | (intro _)
    | with_reducible apply State.setFab_keeps

theorem setWin_keeps {x0 : Nat} {x1 : Nat} {x2 : Sys2Proof.Machine.Win → Sys2Proof.Machine.Win} (h : r.KeepsStores s) :
    r.KeepsStores (setWin x0 x1 x2 s) := by
  unfold setWin
  repeat' first
    | with_reducible assumption
    | (intro _)
    | with_reducible apply State.setFab_keeps

theorem takeWin_keeps {x0 : Win} (h : r.KeepsStores s) :
    r.KeepsStores (takeWin x0 s) := by
  unfold takeWin
  repeat' first
    | with_reducible assumption
    | (intro _)
    | with_reducible apply setWin_keeps
    | with_reducible apply State.setFab_keeps
    | with_reducible apply State.KeepsStores.ite
    | (fail_if_no_progress with_reducible apply State.KeepsStores.same)
    | extract_lets
    | split

theorem sendCells_keeps {x0 : Nat} {x1 : Nat} (h : r.KeepsStores s) :
    r.KeepsStores (sendCells x0 x1 s) := by
  induction x1 generalizing s with
  | zero => exact h
  | succ k ih =>
  simp -zeta only [sendCells]
  repeat' first
    | with_reducible assumption
    | with_reducible apply ih
    | with_reducible apply originate_keeps
    | with_reducible apply setSend_keeps
    | with_reducible apply setWin_keeps
    | with_reducible apply State.KeepsStores.ite
    | with_reducible apply State.KeepsStores.fold
    | (fail_if_no_progress with_reducible apply State.KeepsStores.same)
    | with_reducible apply takeWin_keeps
    | split

theorem startSend_keeps {x0 : Nat} (h : r.KeepsStores s) :
    r.KeepsStores (startSend x0 s) := by
  unfold startSend
  repeat' first
    | with_reducible assumption
    | (intro _)
    | with_reducible apply State.setFab_keeps
    | with_reducible apply setSend_keeps
    | with_reducible apply State.KeepsStores.ite
    | with_reducible apply State.KeepsStores.fold
    | (fail_if_no_progress with_reducible apply State.KeepsStores.same)
    | extract_lets
    | split

theorem pump_keeps  (h : r.KeepsStores s) :
    r.KeepsStores (pump s) := by
  unfold pump
  repeat' first
    | with_reducible assumption
    | (intro _)
    | with_reducible apply forAll_keeps
    | with_reducible apply sendCells_keeps
    | with_reducible apply startSend_keeps

theorem sendMessage_keeps {x0 : Nat} {x1 : Nat} {x2 : List Sys2Proof.CellBits} {x3 : Sys2Proof.Machine.Origin} (h : r.KeepsStores s) :
    r.KeepsStores (sendMessage x0 x1 x2 x3 s) := by
  unfold sendMessage
  repeat' first
    | with_reducible assumption
    | (intro _)
    | with_reducible apply pump_keeps
    | with_reducible apply State.setFab_keeps
    | with_reducible apply State.KeepsStores.ite
    | with_reducible apply State.KeepsStores.fold
    | (fail_if_no_progress with_reducible apply State.KeepsStores.same)

theorem clearMailbox_keeps {x0 : Nat} (h : r.KeepsStores s) :
    r.KeepsStores (clearMailbox x0 s).1 := by
  unfold clearMailbox
  repeat' first
    | with_reducible assumption
    | (intro _)
    | with_reducible apply abortedNotice_keeps
    | with_reducible apply sendMessage_keeps
    | with_reducible apply forAll_keeps
    | with_reducible apply State.set_keeps
    | with_reducible apply State.KeepsStores.ite

theorem clearMailboxes_keeps {x0 : Nat} {x1 : Nat} (h : r.KeepsStores s) :
    r.KeepsStores (clearMailboxes x0 x1 s) := by
  unfold clearMailboxes
  repeat' first
    | with_reducible assumption
    | (intro _)
    | with_reducible apply clearMailbox_keeps
    | (with_reducible refine eventD_keeps (by decide) ?_)
    | (with_reducible refine eventD_keeps (by assumption) ?_)
    | with_reducible apply State.KeepsStores.ite
    | with_reducible apply State.KeepsStores.fold
    | (fail_if_no_progress with_reducible apply State.KeepsStores.same)
    | extract_lets
    | split
    | (fail_if_no_progress beta_reduce)
    | with_reducible apply State.KeepsStores.foldl Prod.fst

theorem State.setMgt_keeps {x1 : Sys2Proof.Machine.MgtSt} (h : r.KeepsStores s) :
    r.KeepsStores (State.setMgt s x1) := by
  unfold State.setMgt
  repeat' first
    | with_reducible assumption
    | (intro _)
    | with_reducible apply State.KeepsStores.ite
    | with_reducible apply State.KeepsStores.fold
    | (fail_if_no_progress with_reducible apply State.KeepsStores.same)

theorem mapIssued_keeps {x0 : Nat} {x1 : Sys2Proof.Machine.Issued → Sys2Proof.Machine.Issued} (h : r.KeepsStores s) :
    r.KeepsStores (mapIssued x0 x1 s) := by
  unfold mapIssued
  repeat' first
    | with_reducible assumption
    | (intro _)
    | with_reducible apply State.setQue_keeps

theorem setIssued_keeps {x0 : Nat} {x1 : Nat} {x2 : Sys2Proof.Machine.Issued → Sys2Proof.Machine.Issued} (h : r.KeepsStores s) :
    r.KeepsStores (setIssued x0 x1 x2 s) := by
  unfold setIssued
  repeat' first
    | with_reducible assumption
    | (intro _)
    | with_reducible apply mapIssued_keeps

theorem showEngine_keeps {x0 : Nat} (h : r.KeepsStores s) :
    r.KeepsStores (showEngine x0 s) := by
  unfold showEngine
  repeat' first
    | with_reducible assumption
    | (intro _)
    | with_reducible apply State.set_keeps
    | with_reducible apply State.KeepsStores.ite

theorem pwrCtrl_keeps {x0 : Nat} (h : r.KeepsStores s) :
    r.KeepsStores (pwrCtrl x0 s) := by
  unfold pwrCtrl
  repeat' first
    | with_reducible assumption
    | (intro _)
    | with_reducible apply State.wr_keeps
    | with_reducible apply forAll_keeps
    | with_reducible apply State.KeepsStores.ite

theorem showCauses_keeps {x0 : Nat} (h : r.KeepsStores s) :
    r.KeepsStores (showCauses x0 s) := by
  unfold showCauses
  repeat' first
    | with_reducible assumption
    | (intro _)
    | with_reducible apply State.set_keeps

theorem stretchWrite_keeps {x0 : Nat} {x1 : Nat} {x2 : Nat} {x3 : Nat} (h : r.KeepsStores s) :
    r.KeepsStores (stretchWrite x0 x1 x2 x3 s) := by
  unfold stretchWrite
  repeat' first
    | with_reducible assumption
    | (intro _)
    | with_reducible apply showCauses_keeps
    | with_reducible apply writeBits_keeps

theorem powerBlock_keeps {x0 : Nat} {x1 : Nat} {x2 : Nat} {x3 : Nat} (h : r.KeepsStores s) :
    r.KeepsStores (powerBlock x0 x1 x2 x3 s) := by
  unfold powerBlock
  repeat' first
    | with_reducible assumption
    | (intro _)
    | with_reducible apply pwrCtrl_keeps
    | with_reducible apply stretchWrite_keeps
    | with_reducible apply writeBits_keeps
    | with_reducible apply State.KeepsStores.ite

theorem releaseWindow_keeps {x0 : Sys2Proof.Machine.Send} (h : r.KeepsStores s) :
    r.KeepsStores (releaseWindow x0 s) := by
  unfold releaseWindow
  repeat' first
    | with_reducible assumption
    | (intro _)
    | with_reducible apply State.setFab_keeps
    | with_reducible apply State.KeepsStores.ite
    | with_reducible apply setWin_keeps
    | (fail_if_no_progress with_reducible apply State.KeepsStores.same)
    | split

theorem restNumber_keeps {x0 : Send} (h : r.KeepsStores s) :
    r.KeepsStores (restNumber x0 s) := by
  unfold restNumber
  repeat' first
    | with_reducible assumption
    | (intro _)
    | with_reducible apply State.setFab_keeps
    | (fail_if_no_progress with_reducible apply State.KeepsStores.same)
    | split

theorem dropSends_keeps {x0 : Sys2Proof.Machine.Send → Bool} (h : r.KeepsStores s) :
    r.KeepsStores (dropSends x0 s) := by
  unfold dropSends
  repeat' first
    | with_reducible assumption
    | (intro _)
    | with_reducible apply forAll_keeps
    | with_reducible apply releaseWindow_keeps
    | with_reducible apply State.setFab_keeps
    | with_reducible apply restNumber_keeps
    | (fail_if_no_progress with_reducible apply State.KeepsStores.same)
    | extract_lets

theorem abandonRemote_keeps {x0 : Nat} (h : r.KeepsStores s) :
    r.KeepsStores (abandonRemote x0 s) := by
  unfold abandonRemote
  repeat' first
    | with_reducible assumption
    | (intro _)
    | with_reducible apply dropSends_keeps
    | with_reducible apply State.setFab_keeps

theorem updColl_keeps {x0 : Nat} {x1 : Sys2Proof.Machine.Coll → Sys2Proof.Machine.Coll} (h : r.KeepsStores s) :
    r.KeepsStores (updColl x0 x1 s) := by
  unfold updColl
  repeat' first
    | with_reducible assumption
    | (intro _)
    | with_reducible apply State.setWheel_keeps

theorem beginTransfer_keeps {x0 : Nat} {x1 : Sys2Proof.Machine.Chunk} (h : r.KeepsStores s) :
    r.KeepsStores (beginTransfer x0 x1 s) := by
  unfold beginTransfer
  repeat' first
    | with_reducible assumption
    | (intro _)
    | with_reducible apply updColl_keeps

theorem leaveRoutine_keeps {x0 : Nat} {x1 : Sys2Proof.Machine.CmdStatus} (h : r.KeepsStores s) :
    r.KeepsStores (leaveRoutine x0 x1 s) := by
  unfold leaveRoutine
  repeat' first
    | with_reducible assumption
    | (intro _)
    | with_reducible apply mapIssued_keeps
    | with_reducible apply State.set_keeps
    | with_reducible apply State.setQue_keeps

theorem freezeRoutine_keeps {x0 : Nat} {x1 : Nat} (hc : redCodes.contains x1 = false) (h : r.KeepsStores s) :
    r.KeepsStores (freezeRoutine x0 x1 s) := by
  unfold freezeRoutine
  repeat' first
    | with_reducible assumption
    | (intro _)
    | with_reducible apply leaveRoutine_keeps
    | with_reducible apply freezeQueue_keeps
    | (with_reducible refine event_keeps (by decide) ?_)
    | (with_reducible refine event_keeps (by assumption) ?_)

theorem routineOutside_keeps {x0 : Nat} (h : r.KeepsStores s) :
    r.KeepsStores (routineOutside x0 s) := by
  unfold routineOutside
  repeat' first
    | with_reducible assumption
    | (intro _)
    | (with_reducible refine freezeRoutine_keeps (by decide) ?_)

theorem sendLocal_keeps {x0 : Nat} {x1 : Nat} {x2 : Nat} (h : r.KeepsStores s) :
    r.KeepsStores (sendLocal x0 x1 x2 s) := by
  unfold sendLocal
  repeat' first
    | with_reducible assumption
    | (intro _)
    | with_reducible apply State.emit_keeps

theorem sendIdle_keeps {x0 : Nat} (h : r.KeepsStores s) :
    r.KeepsStores (sendIdle x0 s) := by
  unfold sendIdle
  repeat' first
    | with_reducible assumption
    | (intro _)
    | with_reducible apply sendLocal_keeps
    | with_reducible apply State.setLink_keeps

theorem violation_keeps {x0 : Nat} {x1 : Nat} {x2 : Nat} (h : r.KeepsStores s) :
    r.KeepsStores (violation x0 x1 x2 s) := by
  unfold violation
  repeat' first
    | with_reducible assumption
    | (intro _)
    | with_reducible apply State.set_keeps
    | with_reducible apply State.setPort_keeps
    | with_reducible apply raiseBoth_keeps
    | (with_reducible refine event_keeps (by decide) ?_)
    | (with_reducible refine event_keeps (by assumption) ?_)
    | with_reducible apply State.KeepsStores.ite

theorem hostWrite_keeps {x0 : Nat} {x1 : Bool} {x2 : Nat} {x3 : Nat} {x4 : Sys2Proof.Machine.State → Sys2Proof.Machine.State} (h4 : ∀ s, r.KeepsStores s → r.KeepsStores (x4 s)) (h : r.KeepsStores s) :
    r.KeepsStores (hostWrite x0 x1 x2 x3 x4 s) := by
  unfold hostWrite
  repeat' first
    | with_reducible assumption
    | (intro _)
    | with_reducible apply State.incSat_keeps
    | with_reducible apply violation_keeps
    | with_reducible apply State.KeepsStores.ite
    | with_reducible apply State.KeepsStores.fold
    | with_reducible apply h4

theorem rampDown_keeps {x0 : Nat} {x1 : Nat} (h : r.KeepsStores s) :
    r.KeepsStores (rampDown x0 x1 s) := by
  unfold rampDown
  repeat' first
    | with_reducible assumption
    | with_reducible apply grind_keeps
    | with_reducible apply State.set_keeps
    | with_reducible apply State.setMxe_keeps
    | with_reducible apply State.KeepsStores.ite
    | (fail_if_no_progress with_reducible apply State.KeepsStores.same)
    | extract_lets
    | split

theorem loseArrays_keeps {x0 : Nat} (h : r.KeepsStores s) :
    r.KeepsStores (loseArrays x0 s) := by
  unfold loseArrays
  repeat' first
    | with_reducible assumption
    | (intro _)
    | with_reducible apply forAll_keeps
    | with_reducible apply State.setMxe_keeps
    | with_reducible apply State.set_keeps
    | with_reducible apply rampDown_keeps
    | (fail_if_no_progress with_reducible apply State.KeepsStores.same)
    | extract_lets

theorem runTile_keeps {x0 : Nat} (h : r.KeepsStores s) :
    r.KeepsStores (runTile x0 s) := by
  unfold runTile
  repeat' first
    | with_reducible assumption
    | (intro _)
    | with_reducible apply forAll_keeps
    | with_reducible apply State.setMxe_keeps
    | with_reducible apply setPhase_keeps
    | with_reducible apply State.KeepsStores.ite
    | (fail_if_no_progress with_reducible apply State.KeepsStores.same)
    | extract_lets
    | split

theorem accessTile_keeps {x0 : Nat} (h : r.KeepsStores s) :
    r.KeepsStores (accessTile x0 s) := by
  unfold accessTile
  repeat' first
    | with_reducible assumption
    | with_reducible apply runTile_keeps
    | with_reducible apply loseArrays_keeps
    | with_reducible apply State.setGate_keeps
    | (fail_if_no_progress with_reducible apply State.KeepsStores.same)
    | extract_lets
    | split

theorem wakeByAccess_keeps {x0 : Nat} (h : r.KeepsStores s) :
    r.KeepsStores (wakeByAccess x0 s) := by
  unfold wakeByAccess
  repeat' first
    | with_reducible assumption
    | (intro _)
    | with_reducible apply wakeTile_keeps
    | with_reducible apply State.KeepsStores.ite
    | with_reducible apply accessTile_keeps
    | split

theorem ownerWrite_keeps {x0 : Nat} {x1 : Nat} {x2 : Sys2Proof.Machine.State → Sys2Proof.Machine.State} (h2 : ∀ s, r.KeepsStores s → r.KeepsStores (x2 s)) (h : r.KeepsStores s) :
    r.KeepsStores (ownerWrite x0 x1 x2 s) := by
  unfold ownerWrite
  repeat' first
    | with_reducible assumption
    | (intro _)
    | with_reducible apply hostWrite_keeps
    | with_reducible apply wakeByAccess_keeps
    | with_reducible apply State.KeepsStores.ite
    | with_reducible apply State.KeepsStores.fold
    | with_reducible apply h2

theorem lnkTestWrite_keeps {x0 : Nat} {x1 : Nat} {x2 : Nat} {x3 : Nat} (h : r.KeepsStores s) :
    r.KeepsStores (lnkTestWrite x0 x1 x2 x3 s) := by
  unfold lnkTestWrite
  repeat' first
    | with_reducible assumption
    | (intro _)
    | (with_reducible refine event_keeps (by decide) ?_)
    | (with_reducible refine event_keeps (by assumption) ?_)
    | with_reducible apply writeBits_keeps
    | with_reducible apply State.emit_keeps
    | with_reducible apply State.KeepsStores.ite

theorem pfcUpdate_keeps  (h : r.KeepsStores s) :
    r.KeepsStores (pfcUpdate s) := by
  unfold pfcUpdate
  repeat' first
    | with_reducible assumption
    | (intro _)
    | with_reducible apply forAll_keeps
    | with_reducible apply State.emit_keeps
    | with_reducible apply State.setLink_keeps
    | with_reducible apply State.KeepsStores.ite

theorem sendCell_keeps {x0 : Nat} {x1 : Nat} {x2 : Nat} {x3 : Nat} {x4 : Nat} (h : r.KeepsStores s) :
    r.KeepsStores (sendCell x0 x1 x2 x3 x4 s) := by
  unfold sendCell
  repeat' first
    | with_reducible assumption
    | (intro _)
    | with_reducible apply originate_keeps

theorem sendGrant_keeps {x0 : Nat} {x1 : Nat} {x2 : Nat} {x3 : Nat} {x4 : Bool} {x5 : Bool} {x6 : List Sys2Proof.Machine.PayField} (h : r.KeepsStores s) :
    r.KeepsStores (sendGrant x0 x1 x2 x3 x4 x5 x6 s) := by
  unfold sendGrant
  repeat' first
    | with_reducible assumption
    | (intro _)
    | with_reducible apply sendCell_keeps

theorem segmentArrives_keeps {x0 : Sys2Proof.CellBits} (h : r.KeepsStores s) :
    r.KeepsStores (segmentArrives x0 s) := by
  unfold segmentArrives
  repeat' first
    | with_reducible assumption
    | (intro _)
    | with_reducible apply State.setFab_keeps
    | with_reducible apply sendGrant_keeps
    | with_reducible apply State.KeepsStores.ite
    | with_reducible apply State.KeepsStores.fold
    | (fail_if_no_progress with_reducible apply State.KeepsStores.same)
    | extract_lets
    | split

theorem windowGrant_keeps {x0 : Sys2Proof.Machine.Send} {x1 : Nat} {x2 : Bool} (h : r.KeepsStores s) :
    r.KeepsStores (windowGrant x0 x1 x2 s) := by
  unfold windowGrant
  repeat' first
    | with_reducible assumption
    | (intro _)
    | with_reducible apply setWin_keeps
    | with_reducible apply setSend_keeps
    | with_reducible apply State.KeepsStores.ite

theorem startGateTimer_keeps {x0 : Nat} (h : r.KeepsStores s) :
    r.KeepsStores (startGateTimer x0 s) := by
  unfold startGateTimer
  repeat' first
    | with_reducible assumption
    | with_reducible apply State.setGate_keeps
    | with_reducible apply State.KeepsStores.ite
    | (fail_if_no_progress with_reducible apply State.KeepsStores.same)
    | split

theorem restTile_keeps {x0 : Nat} (h : r.KeepsStores s) :
    r.KeepsStores (restTile x0 s) := by
  unfold restTile
  repeat' first
    | with_reducible assumption
    | with_reducible apply startGateTimer_keeps
    | with_reducible apply State.KeepsStores.ite
    | split

theorem freezeSoon_keeps {x0 : Nat} {x1 : Nat} {x2 : Nat} (hc : redCodes.contains x1 = false) (h : r.KeepsStores s) :
    r.KeepsStores (freezeSoon x0 x1 x2 s) := by
  unfold freezeSoon
  repeat' first
    | with_reducible assumption
    | (intro _)
    | with_reducible apply State.setQue_keeps
    | with_reducible apply restTile_keeps
    | with_reducible apply freezeQueue_keeps
    | with_reducible apply State.KeepsStores.ite
    | (fail_if_no_progress with_reducible apply State.KeepsStores.same)
    | split

theorem fireWatches_keeps {x0 : Nat} {x1 : Nat} (h : r.KeepsStores s) :
    r.KeepsStores (fireWatches x0 x1 s) := by
  unfold fireWatches
  repeat' first
    | with_reducible assumption
    | (intro _)
    | with_reducible apply forAll_keeps
    | with_reducible apply raiseVector_keeps
    | with_reducible apply State.set_keeps
    | with_reducible apply State.KeepsStores.ite

theorem wakeSet_keeps {x0 : Nat} (h : r.KeepsStores s) :
    r.KeepsStores (wakeSet x0 s) := by
  unfold wakeSet
  repeat' first
    | with_reducible assumption
    | (intro _)
    | with_reducible apply wakeTile_keeps
    | with_reducible apply State.KeepsStores.ite

theorem flagChanged_keeps {x0 : Nat} {x1 : Nat} (h : r.KeepsStores s) :
    r.KeepsStores (flagChanged x0 x1 s) := by
  unfold flagChanged
  repeat' first
    | with_reducible assumption
    | (intro _)
    | with_reducible apply fireWatches_keeps
    | with_reducible apply wakeSet_keeps
    | with_reducible apply State.KeepsStores.ite

theorem addFlag_keeps {x0 : Nat} {x1 : Nat} {x2 : Nat} (h : r.KeepsStores s) :
    r.KeepsStores (addFlag x0 x1 x2 s) := by
  unfold addFlag
  repeat' first
    | with_reducible assumption
    | (intro _)
    | with_reducible apply flagChanged_keeps
    | with_reducible apply State.set_keeps
    | with_reducible apply State.KeepsStores.ite

theorem hostPostOutcome_keeps {x0 : Nat} {x1 : Nat} {x2 : Nat} (h : r.KeepsStores s) :
    r.KeepsStores (hostPostOutcome x0 x1 x2 s) := by
  unfold hostPostOutcome
  repeat' first
    | with_reducible assumption
    | (intro _)
    | with_reducible apply State.setPort_keeps
    | with_reducible apply State.set_keeps
    | with_reducible apply State.emit_keeps
    | with_reducible apply raiseVector_keeps
    | with_reducible apply State.KeepsStores.ite
    | with_reducible apply State.KeepsStores.fold
    | (fail_if_no_progress with_reducible apply State.KeepsStores.same)
    | extract_lets
    | split

theorem mirsyncDone_keeps {x0 : Nat} {x1 : Sys2Proof.Machine.Issued} (h : r.KeepsStores s) :
    r.KeepsStores (mirsyncDone x0 x1 s) := by
  unfold mirsyncDone
  repeat' first
    | with_reducible assumption
    | (intro _)
    | with_reducible apply State.set_keeps
    | with_reducible apply addFlag_keeps
    | with_reducible apply State.KeepsStores.ite

theorem clearWaits_keeps {x0 : Nat} (h : r.KeepsStores s) :
    r.KeepsStores (clearWaits x0 s) := by
  unfold clearWaits
  repeat' first
    | with_reducible assumption
    | (intro _)
    | with_reducible apply forAll_keeps
    | with_reducible apply State.setQue_keeps
    | with_reducible apply State.set_keeps
    | with_reducible apply mirsyncDone_keeps
    | with_reducible apply State.KeepsStores.ite
    | with_reducible apply showEngine_keeps
    | (fail_if_no_progress with_reducible apply State.KeepsStores.same)
    | extract_lets
    | split

theorem failIssued_keeps {x0 : Nat} {x1 : Nat} {x2 : Nat} (hc : redCodes.contains x2 = false) (h : r.KeepsStores s) :
    r.KeepsStores (failIssued x0 x1 x2 s) := by
  unfold failIssued
  repeat' first
    | with_reducible assumption
    | (intro _)
    | with_reducible apply dropSends_keeps
    | with_reducible apply State.setFab_keeps
    | with_reducible apply setIssued_keeps
    | with_reducible apply freezeQueue_keeps
    | with_reducible apply State.KeepsStores.ite
    | with_reducible apply State.KeepsStores.fold
    | (fail_if_no_progress with_reducible apply State.KeepsStores.same)
    | with_reducible apply showEngine_keeps
    | extract_lets
    | split

theorem mirrorLost_keeps  (h : r.KeepsStores s) :
    r.KeepsStores (mirrorLost s) := by
  unfold mirrorLost
  repeat' first
    | with_reducible assumption
    | (intro _)
    | (with_reducible refine event_keeps (by decide) ?_)
    | (with_reducible refine event_keeps (by assumption) ?_)
    | with_reducible apply State.set_keeps
    | with_reducible apply dropSends_keeps
    | with_reducible apply forAll_keeps
    | with_reducible apply setIssued_keeps
    | (with_reducible refine failIssued_keeps (by decide) ?_)
    | (with_reducible refine failIssued_keeps (by assumption) ?_)
    | with_reducible apply State.KeepsStores.ite
    | with_reducible apply State.setFab_keeps
    | with_reducible apply showEngine_keeps
    | (fail_if_no_progress with_reducible apply State.KeepsStores.same)
    | extract_lets
    | split

theorem addCounts_keeps {x0 : Nat} {x1 : Sys2Proof.Machine.Tally} (h : r.KeepsStores s) :
    r.KeepsStores (addCounts x0 x1 s) := by
  unfold addCounts
  repeat' first
    | with_reducible assumption
    | (intro _)
    | with_reducible apply State.incSat_keeps
    | with_reducible apply State.set_keeps
    | with_reducible apply State.KeepsStores.ite

theorem addReturned_keeps {x0 : Sys2Proof.Machine.Send} {x1 : Sys2Proof.CellBits} (h : r.KeepsStores s) :
    r.KeepsStores (addReturned x0 x1 s) := by
  unfold addReturned
  repeat' first
    | with_reducible assumption
    | (intro _)
    | with_reducible apply addCounts_keeps
    | with_reducible apply State.KeepsStores.ite
    | with_reducible apply State.KeepsStores.fold
    | (fail_if_no_progress with_reducible apply State.KeepsStores.same)
    | extract_lets
    | split

theorem keepKey_keeps {x0 : Nat} {x1 : Nat} {x2 : Nat} (h : r.KeepsStores s) :
    r.KeepsStores (keepKey x0 x1 x2 s) := by
  unfold keepKey
  repeat' first
    | with_reducible assumption
    | (intro _)
    | with_reducible apply State.setFab_keeps

theorem deliverOnce_keeps {x0 : Nat} {x1 : Nat} {x2 : Nat} {x3 : Nat} {x4 : Nat} {x5 : Sys2Proof.Machine.State → Sys2Proof.Machine.State} {x6 : Sys2Proof.Machine.State → Sys2Proof.Machine.State × Bool} (h5 : ∀ s, r.KeepsStores s → r.KeepsStores (x5 s)) (h6 : ∀ s, r.KeepsStores s → r.KeepsStores (x6 s).1) (h : r.KeepsStores s) :
    r.KeepsStores (deliverOnce x0 x1 x2 x3 x4 x5 x6 s) := by
  unfold deliverOnce
  repeat' first
    | with_reducible assumption
    | (intro _)
    | (with_reducible refine event_keeps (by decide) ?_)
    | (with_reducible refine event_keeps (by assumption) ?_)
    | with_reducible apply State.inc_keeps
    | with_reducible apply keepKey_keeps
    | with_reducible apply State.KeepsStores.ite
    | with_reducible apply State.KeepsStores.fold
    | with_reducible apply h5
    | with_reducible apply h6

theorem sendRefuse_keeps {x0 : Nat} {x1 : Nat} {x2 : Nat} {x3 : Nat} (h : r.KeepsStores s) :
    r.KeepsStores (sendRefuse x0 x1 x2 x3 s) := by
  unfold sendRefuse
  repeat' first
    | with_reducible assumption
    | (intro _)
    | with_reducible apply sendCell_keeps

theorem accessSet_keeps {x0 : Nat} (h : r.KeepsStores s) :
    r.KeepsStores (accessSet x0 s) := by
  unfold accessSet
  repeat' first
    | with_reducible assumption
    | with_reducible apply accessTile_keeps
    | with_reducible apply State.KeepsStores.ite
    | split

theorem signalArrives_keeps {x0 : Sys2Proof.CellBits} (h : r.KeepsStores s) :
    r.KeepsStores (signalArrives x0 s) := by
  unfold signalArrives
  repeat' first
    | with_reducible assumption
    | (intro _)
    | with_reducible apply sendGrant_keeps
    | with_reducible apply deliverOnce_keeps
    | with_reducible apply sendRefuse_keeps
    | with_reducible apply addFlag_keeps
    | with_reducible apply wakeSet_keeps
    | with_reducible apply State.KeepsStores.ite
    | with_reducible apply State.KeepsStores.fold
    | (fail_if_no_progress with_reducible apply State.KeepsStores.same)
    | with_reducible apply accessSet_keeps
    | extract_lets
    | split

theorem acceptNotice_keeps {x0 : Nat} {x1 : Nat} {x2 : Nat} {x3 : Nat} {x4 : Nat} (h : r.KeepsStores s) :
    r.KeepsStores (acceptNotice x0 x1 x2 x3 x4 s).1 := by
  unfold acceptNotice
  repeat' first
    | with_reducible assumption
    | (intro _)
    | with_reducible apply State.wr_keeps
    | with_reducible apply State.set_keeps
    | with_reducible apply raiseVector_keeps
    | with_reducible apply State.KeepsStores.ite
    | with_reducible apply State.KeepsStores.fold
    | (fail_if_no_progress with_reducible apply State.KeepsStores.same)
    | extract_lets
    | split

theorem noticeArrives_keeps {x0 : Sys2Proof.CellBits} (h : r.KeepsStores s) :
    r.KeepsStores (noticeArrives x0 s) := by
  unfold noticeArrives
  repeat' first
    | with_reducible assumption
    | (intro _)
    | with_reducible apply sendGrant_keeps
    | with_reducible apply deliverOnce_keeps
    | with_reducible apply sendRefuse_keeps
    | with_reducible apply acceptNotice_keeps
    | with_reducible apply sendMessage_keeps
    | with_reducible apply State.KeepsStores.ite
    | with_reducible apply State.KeepsStores.fold
    | (fail_if_no_progress with_reducible apply State.KeepsStores.same)
    | extract_lets
    | split

theorem noticeAbortedArrives_keeps {x0 : Sys2Proof.CellBits} (h : r.KeepsStores s) :
    r.KeepsStores (noticeAbortedArrives x0 s) := by
  unfold noticeAbortedArrives
  repeat' first
    | with_reducible assumption
    | (intro _)
    | with_reducible apply sendGrant_keeps
    | with_reducible apply deliverOnce_keeps
    | with_reducible apply abortedNotice_keeps

theorem flushArrives_keeps {x0 : Sys2Proof.CellBits} (h : r.KeepsStores s) :
    r.KeepsStores (flushArrives x0 s) := by
  unfold flushArrives
  repeat' first
    | with_reducible assumption
    | (intro _)
    | with_reducible apply State.inc_keeps
    | with_reducible apply State.setFab_keeps
    | (with_reducible refine event_keeps (by decide) ?_)
    | (with_reducible refine event_keeps (by assumption) ?_)
    | with_reducible apply State.set_keeps
    | with_reducible apply State.KeepsStores.ite

theorem routeHeld_keeps  (h : r.KeepsStores s) :
    r.KeepsStores (routeHeld s) := by
  unfold routeHeld
  repeat' first
    | with_reducible assumption
    | (intro _)
    | with_reducible apply forAll_keeps
    | with_reducible apply routeCell_keeps
    | with_reducible apply State.setFab_keeps

theorem updatePort_keeps {x0 : Nat} (h : r.KeepsStores s) :
    r.KeepsStores (updatePort x0 s) := by
  unfold updatePort
  repeat' first
    | with_reducible assumption
    | (intro _)
    | with_reducible apply State.set_keeps
    | (with_reducible refine eventD_keeps (by decide) ?_)
    | (with_reducible refine eventD_keeps (by assumption) ?_)
    | with_reducible apply State.KeepsStores.ite
    | with_reducible apply State.setFab_keeps
    | (with_reducible refine event_keeps (by decide) ?_)
    | (with_reducible refine event_keeps (by assumption) ?_)
    | with_reducible apply State.KeepsStores.fold
    | (fail_if_no_progress with_reducible apply State.KeepsStores.same)
    | extract_lets
    | split

theorem updatePorts_keeps  (h : r.KeepsStores s) :
    r.KeepsStores (updatePorts s) := by
  unfold updatePorts
  repeat' first
    | with_reducible assumption
    | (intro _)
    | with_reducible apply forAll_keeps
    | with_reducible apply updatePort_keeps

theorem setLinkState_keeps {x0 : Nat} {x1 : Nat} (h : r.KeepsStores s) :
    r.KeepsStores (setLinkState x0 x1 s) := by
  unfold setLinkState
  repeat' first
    | with_reducible assumption
    | (intro _)
    | with_reducible apply State.set_keeps
    | with_reducible apply updatePorts_keeps
    | with_reducible apply State.KeepsStores.ite

theorem dropQueued_keeps {x0 : Nat} {x1 : Sys2Proof.Machine.QCell} (h : r.KeepsStores s) :
    r.KeepsStores (dropQueued x0 x1 s) := by
  unfold dropQueued
  repeat' first
    | with_reducible assumption
    | (intro _)
    | with_reducible apply giveRoom_keeps
    | with_reducible apply countDrop_keeps
    | with_reducible apply State.inc_keeps

theorem clearQueue_keeps {x0 : Nat} (h : r.KeepsStores s) :
    r.KeepsStores (clearQueue x0 s) := by
  unfold clearQueue
  repeat' first
    | with_reducible assumption
    | (intro _)
    | with_reducible apply forAll_keeps
    | with_reducible apply dropQueued_keeps
    | with_reducible apply State.setLink_keeps
    | with_reducible apply State.setFab_keeps

theorem dropCopies_keeps {x0 : Nat} (h : r.KeepsStores s) :
    r.KeepsStores (dropCopies x0 s) := by
  unfold dropCopies
  repeat' first
    | with_reducible assumption
    | (intro _)
    | with_reducible apply forAll_keeps
    | with_reducible apply countDrop_keeps
    | with_reducible apply State.inc_keeps
    | with_reducible apply State.setLink_keeps

theorem leaveActive_keeps {x0 : Nat} {x1 : Nat} (h : r.KeepsStores s) :
    r.KeepsStores (leaveActive x0 x1 s) := by
  unfold leaveActive
  repeat' first
    | with_reducible assumption
    | (intro _)
    | with_reducible apply clearQueue_keeps
    | with_reducible apply dropCopies_keeps
    | with_reducible apply setLinkState_keeps
    | with_reducible apply State.KeepsStores.ite

theorem mismatchEvent_keeps {x0 : Nat} {x1 : Nat} (h : r.KeepsStores s) :
    r.KeepsStores (mismatchEvent x0 x1 s) := by
  unfold mismatchEvent
  repeat' first
    | with_reducible assumption
    | (intro _)
    | (with_reducible refine eventD_keeps (by decide) ?_)
    | (with_reducible refine eventD_keeps (by assumption) ?_)
    | with_reducible apply State.KeepsStores.ite

theorem evaluate_keeps {x0 : Nat} (h : r.KeepsStores s) :
    r.KeepsStores (evaluate x0 s) := by
  unfold evaluate
  repeat' first
    | with_reducible assumption
    | (intro _)
    | with_reducible apply State.set_keeps
    | (with_reducible refine event_keeps (by decide) ?_)
    | (with_reducible refine event_keeps (by assumption) ?_)
    | with_reducible apply setLinkState_keeps
    | with_reducible apply leaveActive_keeps
    | with_reducible apply mismatchEvent_keeps
    | with_reducible apply State.KeepsStores.ite

theorem storeHello_keeps {x0 : Nat} {x1 : Nat → Nat → Nat} (h : r.KeepsStores s) :
    r.KeepsStores (storeHello x0 x1 s) := by
  unfold storeHello
  repeat' first
    | with_reducible assumption
    | (intro _)
    | with_reducible apply State.wr_keeps

theorem lldpArrives_keeps {x0 : Nat} {x1 : List Nat} (h : r.KeepsStores s) :
    r.KeepsStores (lldpArrives x0 x1 s) := by
  unfold lldpArrives
  repeat' first
    | with_reducible assumption
    | (intro _)
    | with_reducible apply State.wr_keeps
    | with_reducible apply evaluate_keeps
    | with_reducible apply State.setLink_keeps
    | with_reducible apply storeHello_keeps
    | with_reducible apply State.KeepsStores.ite
    | with_reducible apply State.KeepsStores.fold
    | (fail_if_no_progress with_reducible apply State.KeepsStores.same)
    | extract_lets
    | split

theorem applyTally_keeps {x0 : Nat} {x1 : Nat} {x2 : Nat} {x3 : Nat} {x4 : Sys2Proof.Machine.Tally} (h : r.KeepsStores s) :
    r.KeepsStores (applyTally x0 x1 x2 x3 x4 s) := by
  unfold applyTally
  repeat' first
    | with_reducible assumption
    | (intro _)
    | with_reducible apply addCounts_keeps
    | with_reducible apply State.set_keeps
    | with_reducible apply State.KeepsStores.ite
    | with_reducible apply State.KeepsStores.fold
    | (fail_if_no_progress with_reducible apply State.KeepsStores.same)
    | extract_lets
    | split

theorem hostWriteOut_keeps {x0 : Nat} {x1 : Nat} {x2 : Bool} {x3 : List (Sys2Proof.Byte × Bool)} (h : r.KeepsStores s) :
    r.KeepsStores (hostWriteOut x0 x1 x2 x3 s) := by
  unfold hostWriteOut
  repeat' first
    | with_reducible assumption
    | (intro _)
    | with_reducible apply forAll_keeps
    | with_reducible apply State.emit_keeps
    | (with_reducible refine event_keeps (by decide) ?_)
    | (with_reducible refine event_keeps (by assumption) ?_)
    | with_reducible apply State.KeepsStores.ite

theorem tintLines_keeps {x0 : Nat} {x1 : Nat} {x2 : Nat} {x3 : Nat} {x4 : Nat} (h : r.KeepsStores s) :
    r.KeepsStores (tintLines x0 x1 x2 x3 x4 s) := by
  unfold tintLines
  repeat' first
    | with_reducible assumption
    | (intro _)
    | with_reducible apply forAll_keeps
    | with_reducible apply State.set_keeps
    | with_reducible apply State.inc_keeps
    | with_reducible apply State.KeepsStores.ite

theorem mirrorOut_keeps {x0 : Nat} {x1 : Nat} (h : r.KeepsStores s) :
    r.KeepsStores (mirrorOut x0 x1 s).1 := by
  unfold mirrorOut
  repeat' first
    | with_reducible assumption
    | (intro _)
    | with_reducible apply sendMessage_keeps
    | with_reducible apply State.KeepsStores.ite
    | with_reducible apply State.KeepsStores.fold
    | (fail_if_no_progress with_reducible apply State.KeepsStores.same)
    | extract_lets
    | split
    | (fail_if_no_progress beta_reduce)
    | with_reducible apply State.KeepsStores.foldl Prod.fst

theorem requestPiece_keeps {x0 : Nat} {x1 : Nat} {x2 : Nat} {x3 : Sys2Proof.Machine.Place} {x4 : Nat} (h : r.KeepsStores s) :
    r.KeepsStores (requestPiece x0 x1 x2 x3 x4 s) := by
  unfold requestPiece
  repeat' first
    | with_reducible assumption
    | (intro _)
    | with_reducible apply sendMessage_keeps
    | with_reducible apply bumpUid_keeps
    | with_reducible apply State.setFab_keeps
    | with_reducible apply State.emit_keeps
    | with_reducible apply State.KeepsStores.ite

theorem dmaRead_keeps {x0 : Nat} {x1 : Nat} {x2 : Nat} {x3 : Nat} (h : r.KeepsStores s) :
    r.KeepsStores (dmaRead x0 x1 x2 x3 s) := by
  unfold dmaRead
  repeat' first
    | with_reducible assumption
    | (intro _)
    | with_reducible apply State.emit_keeps
    | with_reducible apply State.setDma_keeps
    | with_reducible apply State.KeepsStores.ite
    | with_reducible apply State.KeepsStores.fold
    | (fail_if_no_progress with_reducible apply State.KeepsStores.same)

theorem countUnmirrored_keeps {x0 : Nat} {x1 : Nat} (h : r.KeepsStores s) :
    r.KeepsStores (countUnmirrored x0 x1 s) := by
  unfold countUnmirrored
  repeat' first
    | with_reducible assumption
    | (intro _)
    | with_reducible apply State.incSat_keeps
    | with_reducible apply State.KeepsStores.ite

theorem clearOvf_keeps {x0 : Nat} (h : r.KeepsStores s) :
    r.KeepsStores (clearOvf x0 s) := by
  unfold clearOvf
  repeat' first
    | with_reducible assumption
    | (intro _)
    | with_reducible apply State.set_keeps
    | with_reducible apply State.resetRegs_keeps

theorem dropReasm_keeps {x0 : Sys2Proof.Machine.Reasm} (h : r.KeepsStores s) :
    r.KeepsStores (dropReasm x0 s) := by
  unfold dropReasm
  repeat' first
    | with_reducible assumption
    | (intro _)
    | with_reducible apply State.setFab_keeps

theorem refuseSeg_keeps {x0 : Sys2Proof.Machine.Reasm} {x1 : Nat} (h : r.KeepsStores s) :
    r.KeepsStores (refuseSeg x0 x1 s) := by
  unfold refuseSeg
  repeat' first
    | with_reducible assumption
    | (intro _)
    | with_reducible apply sendRefuse_keeps

theorem setPhaseBoot_keeps {x0 : Sys2Proof.Machine.BootPhase} (h : r.KeepsStores s) :
    r.KeepsStores (setPhaseBoot x0 s) := by
  unfold setPhaseBoot
  repeat' first
    | with_reducible assumption
    | (intro _)
    | with_reducible apply State.KeepsStores.ite
    | with_reducible apply State.KeepsStores.fold
    | (fail_if_no_progress with_reducible apply State.KeepsStores.same)

theorem writeSetpoint_keeps {x0 : Nat} (h : r.KeepsStores s) :
    r.KeepsStores (writeSetpoint x0 s) := by
  unfold writeSetpoint
  repeat' first
    | with_reducible assumption
    | (intro _)
    | with_reducible apply State.emit_keeps
    | with_reducible apply State.set_keeps

theorem setFlag_keeps {x0 : Nat} {x1 : Nat} {x2 : Nat} (h : r.KeepsStores s) :
    r.KeepsStores (setFlag x0 x1 x2 s) := by
  unfold setFlag
  repeat' first
    | with_reducible assumption
    | (intro _)
    | with_reducible apply flagChanged_keeps
    | with_reducible apply State.set_keeps
    | with_reducible apply State.KeepsStores.ite

theorem sendNak_keeps {x0 : Nat} (h : r.KeepsStores s) :
    r.KeepsStores (sendNak x0 s) := by
  unfold sendNak
  repeat' first
    | with_reducible assumption
    | (intro _)
    | with_reducible apply sendLocal_keeps
    | with_reducible apply State.setLink_keeps
    | with_reducible apply State.KeepsStores.ite

theorem discardCell_keeps {x0 : Nat} (h : r.KeepsStores s) :
    r.KeepsStores (discardCell x0 s) := by
  unfold discardCell
  repeat' first
    | with_reducible assumption
    | (intro _)
    | with_reducible apply sendNak_keeps
    | with_reducible apply State.inc_keeps

theorem applyAck_keeps {x0 : Nat} {x1 : Nat} (h : r.KeepsStores s) :
    r.KeepsStores (applyAck x0 x1 s) := by
  unfold applyAck
  repeat' first
    | with_reducible assumption
    | (intro _)
    | with_reducible apply State.setLink_keeps
    | with_reducible apply State.KeepsStores.ite

theorem applyEnvelope_keeps {x0 : Nat} {x1 : Sys2Proof.CellBits} (h : r.KeepsStores s) :
    r.KeepsStores (applyEnvelope x0 x1 s) := by
  unfold applyEnvelope
  repeat' first
    | with_reducible assumption
    | (intro _)
    | with_reducible apply applyAck_keeps
    | with_reducible apply State.setLink_keeps

theorem receive_keeps {x0 : Nat} {x1 : Sys2Proof.CellBits} (h : r.KeepsStores s) :
    r.KeepsStores (receive x0 x1 s).1 := by
  unfold receive
  repeat' first
    | with_reducible assumption
    | (intro _)
    | with_reducible apply discardCell_keeps
    | with_reducible apply applyEnvelope_keeps
    | (with_reducible refine event_keeps (by decide) ?_)
    | (with_reducible refine event_keeps (by assumption) ?_)
    | with_reducible apply State.inc_keeps
    | with_reducible apply sendNak_keeps
    | with_reducible apply State.setLink_keeps
    | with_reducible apply countDrop_keeps
    | with_reducible apply State.KeepsStores.ite
    | with_reducible apply State.KeepsStores.fold
    | (fail_if_no_progress with_reducible apply State.KeepsStores.same)
    | extract_lets
    | split

theorem wheelSend_keeps {x0 : Nat} {x1 : Nat} {x2 : Nat} {x3 : Nat} {x4 : Nat} {x5 : Nat} {x6 : Nat} {x7 : Bool} {x8 : Bool} (h : r.KeepsStores s) :
    r.KeepsStores (wheelSend x0 x1 x2 x3 x4 x5 x6 x7 x8 s) := by
  unfold wheelSend
  repeat' first
    | with_reducible assumption
    | (intro _)
    | with_reducible apply enqueue_keeps

theorem sendChunk_keeps {x0 : Nat} {x1 : Nat} {x2 : Sys2Proof.Machine.Coll} {x3 : Sys2Proof.Machine.Chunk} (h : r.KeepsStores s) :
    r.KeepsStores (sendChunk x0 x1 x2 x3 s) := by
  unfold sendChunk
  repeat' first
    | with_reducible assumption
    | (intro _)
    | with_reducible apply wheelSend_keeps
    | with_reducible apply forAll_keeps
    | with_reducible apply State.inc_keeps

theorem sendQueued_keeps {x0 : Nat} {x1 : Nat} (h : r.KeepsStores s) :
    r.KeepsStores (sendQueued x0 x1 s) := by
  induction x1 generalizing s with
  | zero => exact h
  | succ k ih =>
  simp -zeta only [sendQueued]
  repeat' first
    | with_reducible assumption
    | (intro _)
    | with_reducible apply ih
    | with_reducible apply sendChunk_keeps
    | with_reducible apply updColl_keeps
    | with_reducible apply State.KeepsStores.ite
    | with_reducible apply State.KeepsStores.fold
    | (fail_if_no_progress with_reducible apply State.KeepsStores.same)
    | extract_lets
    | split

theorem wheelTally_keeps {x0 : Nat} {x1 : Sys2Proof.Machine.Coll} {x2 : Sys2Proof.Machine.Tally} (h : r.KeepsStores s) :
    r.KeepsStores (wheelTally x0 x1 x2 s) := by
  unfold wheelTally
  repeat' first
    | with_reducible assumption
    | (intro _)
    | with_reducible apply applyTally_keeps
    | with_reducible apply State.KeepsStores.ite

theorem keepSums_keeps {x0 : Nat} {x1 : Nat} {x2 : List (Nat × Sys2Proof.Machine.Val × Bool × Bool)} (h : r.KeepsStores s) :
    r.KeepsStores (keepSums x0 x1 x2 s) := by
  unfold keepSums
  repeat' first
    | with_reducible assumption
    | (intro _)
    | with_reducible apply wheelTally_keeps
    | with_reducible apply updColl_keeps
    | with_reducible apply State.KeepsStores.ite
    | with_reducible apply State.KeepsStores.fold
    | (fail_if_no_progress with_reducible apply State.KeepsStores.same)
    | extract_lets
    | split

theorem passOn_keeps {x0 : Nat} {x1 : Sys2Proof.Machine.Chunk} (h : r.KeepsStores s) :
    r.KeepsStores (passOn x0 x1 s) := by
  unfold passOn
  repeat' first
    | with_reducible assumption
    | (intro _)
    | with_reducible apply updColl_keeps

theorem reduceChunk_keeps {x0 : Nat} {x1 : Sys2Proof.Machine.Chunk} (h : r.KeepsStores s) :
    r.KeepsStores (reduceChunk x0 x1 s) := by
  unfold reduceChunk
  repeat' first
    | with_reducible assumption
    | (intro _)
    | with_reducible apply wheelTally_keeps
    | with_reducible apply keepSums_keeps
    | with_reducible apply passOn_keeps
    | with_reducible apply updColl_keeps
    | with_reducible apply State.KeepsStores.ite
    | with_reducible apply State.KeepsStores.fold
    | (fail_if_no_progress with_reducible apply State.KeepsStores.same)
    | extract_lets
    | split

theorem directChunk_keeps {x0 : Nat} {x1 : Sys2Proof.Machine.Chunk} (h : r.KeepsStores s) :
    r.KeepsStores (directChunk x0 x1 s) := by
  unfold directChunk
  repeat' first
    | with_reducible assumption
    | (intro _)
    | with_reducible apply updColl_keeps
    | with_reducible apply passOn_keeps
    | with_reducible apply State.KeepsStores.ite
    | with_reducible apply State.KeepsStores.fold
    | (fail_if_no_progress with_reducible apply State.KeepsStores.same)
    | extract_lets
    | split

theorem moveChunk_keeps {x0 : Nat} {x1 : Sys2Proof.Machine.Chunk} (h : r.KeepsStores s) :
    r.KeepsStores (moveChunk x0 x1 s) := by
  unfold moveChunk
  repeat' first
    | with_reducible assumption
    | (intro _)
    | with_reducible apply updColl_keeps
    | with_reducible apply passOn_keeps
    | with_reducible apply State.KeepsStores.ite
    | with_reducible apply State.KeepsStores.fold
    | (fail_if_no_progress with_reducible apply State.KeepsStores.same)
    | extract_lets
    | split

theorem gatherChunk_keeps {x0 : Nat} {x1 : Sys2Proof.Machine.Chunk} (h : r.KeepsStores s) :
    r.KeepsStores (gatherChunk x0 x1 s) := by
  unfold gatherChunk
  repeat' first
    | with_reducible assumption
    | (intro _)
    | with_reducible apply updColl_keeps
    | with_reducible apply passOn_keeps
    | with_reducible apply State.KeepsStores.ite
    | with_reducible apply State.KeepsStores.fold
    | (fail_if_no_progress with_reducible apply State.KeepsStores.same)
    | extract_lets
    | split

theorem takeChunk_keeps {x0 : Nat} {x1 : Sys2Proof.Machine.Chunk} (h : r.KeepsStores s) :
    r.KeepsStores (takeChunk x0 x1 s) := by
  unfold takeChunk
  repeat' first
    | with_reducible assumption
    | (intro _)
    | with_reducible apply updColl_keeps
    | with_reducible apply reduceChunk_keeps
    | with_reducible apply directChunk_keeps
    | with_reducible apply moveChunk_keeps
    | with_reducible apply gatherChunk_keeps
    | with_reducible apply State.KeepsStores.ite
    | with_reducible apply State.KeepsStores.fold
    | (fail_if_no_progress with_reducible apply State.KeepsStores.same)
    | extract_lets
    | split

theorem beginReduce_keeps {x0 : Nat} {x1 : Nat} (h : r.KeepsStores s) :
    r.KeepsStores (beginReduce x0 x1 s) := by
  unfold beginReduce
  repeat' first
    | with_reducible assumption
    | (intro _)
    | with_reducible apply keepSums_keeps
    | with_reducible apply beginTransfer_keeps
    | with_reducible apply wheelTally_keeps
    | with_reducible apply updColl_keeps
    | with_reducible apply State.KeepsStores.ite
    | with_reducible apply State.KeepsStores.fold
    | (fail_if_no_progress with_reducible apply State.KeepsStores.same)
    | extract_lets
    | split

theorem beginGather_keeps {x0 : Nat} {x1 : Nat} (h : r.KeepsStores s) :
    r.KeepsStores (beginGather x0 x1 s) := by
  unfold beginGather
  repeat' first
    | with_reducible assumption
    | (intro _)
    | with_reducible apply beginTransfer_keeps
    | with_reducible apply forAll_keeps
    | with_reducible apply updColl_keeps
    | with_reducible apply State.KeepsStores.ite
    | with_reducible apply State.KeepsStores.fold
    | (fail_if_no_progress with_reducible apply State.KeepsStores.same)
    | extract_lets
    | split

theorem beginDirect_keeps {x0 : Nat} (h : r.KeepsStores s) :
    r.KeepsStores (beginDirect x0 s) := by
  unfold beginDirect
  repeat' first
    | with_reducible assumption
    | (intro _)
    | with_reducible apply beginTransfer_keeps
    | with_reducible apply updColl_keeps
    | with_reducible apply State.KeepsStores.ite
    | with_reducible apply State.KeepsStores.fold
    | (fail_if_no_progress with_reducible apply State.KeepsStores.same)
    | extract_lets
    | split

theorem beginMove_keeps {x0 : Nat} (h : r.KeepsStores s) :
    r.KeepsStores (beginMove x0 s) := by
  unfold beginMove
  repeat' first
    | with_reducible assumption
    | (intro _)
    | with_reducible apply forAll_keeps
    | with_reducible apply beginTransfer_keeps
    | with_reducible apply updColl_keeps
    | with_reducible apply State.KeepsStores.ite
    | with_reducible apply State.KeepsStores.fold
    | (fail_if_no_progress with_reducible apply State.KeepsStores.same)
    | extract_lets
    | split

theorem wheelCtl_keeps {x0 : Nat} {x1 : Nat} {x2 : Bool} {x3 : Nat} {x4 : Nat} (h : r.KeepsStores s) :
    r.KeepsStores (wheelCtl x0 x1 x2 x3 x4 s) := by
  unfold wheelCtl
  repeat' first
    | with_reducible assumption
    | (intro _)
    | with_reducible apply wheelSend_keeps
    | with_reducible apply State.KeepsStores.ite
    | with_reducible apply State.KeepsStores.fold
    | (fail_if_no_progress with_reducible apply State.KeepsStores.same)
    | extract_lets
    | split

theorem beginClose_keeps {x0 : Nat} {x1 : Nat} (h : r.KeepsStores s) :
    r.KeepsStores (beginClose x0 x1 s) := by
  unfold beginClose
  repeat' first
    | with_reducible assumption
    | (intro _)
    | with_reducible apply State.set_keeps
    | with_reducible apply updColl_keeps
    | with_reducible apply forAll_keeps
    | with_reducible apply wheelCtl_keeps
    | with_reducible apply State.KeepsStores.ite
    | with_reducible apply State.KeepsStores.fold
    | (fail_if_no_progress with_reducible apply State.KeepsStores.same)
    | extract_lets
    | split

theorem beginStage_keeps {x0 : Nat} {x1 : Sys2Proof.Machine.WStage} (h : r.KeepsStores s) :
    r.KeepsStores (beginStage x0 x1 s) := by
  unfold beginStage
  repeat' first
    | with_reducible assumption
    | (intro _)
    | with_reducible apply beginReduce_keeps
    | with_reducible apply beginGather_keeps
    | with_reducible apply beginDirect_keeps
    | with_reducible apply beginMove_keeps
    | with_reducible apply beginClose_keeps
    | with_reducible apply State.KeepsStores.ite
    | with_reducible apply State.KeepsStores.fold
    | (fail_if_no_progress with_reducible apply State.KeepsStores.same)
    | extract_lets
    | split

theorem finishDirect_keeps {x0 : Nat} (h : r.KeepsStores s) :
    r.KeepsStores (finishDirect x0 s) := by
  unfold finishDirect
  repeat' first
    | with_reducible assumption
    | (intro _)
    | with_reducible apply updColl_keeps
    | with_reducible apply keepSums_keeps
    | with_reducible apply wheelTally_keeps
    | with_reducible apply State.KeepsStores.ite
    | with_reducible apply State.KeepsStores.fold
    | (fail_if_no_progress with_reducible apply State.KeepsStores.same)
    | extract_lets
    | split

theorem mergeClose_keeps {x0 : Nat} {x1 : Nat} {x2 : Bool} {x3 : Nat} {x4 : Bool} {x5 : Bool} (h : r.KeepsStores s) :
    r.KeepsStores (mergeClose x0 x1 x2 x3 x4 x5 s) := by
  unfold mergeClose
  repeat' first
    | with_reducible assumption
    | (intro _)
    | with_reducible apply updColl_keeps
    | with_reducible apply wheelCtl_keeps
    | with_reducible apply State.KeepsStores.ite
    | with_reducible apply State.KeepsStores.fold
    | (fail_if_no_progress with_reducible apply State.KeepsStores.same)
    | extract_lets
    | split

theorem grantChunk_keeps {x0 : Nat} {x1 : Nat} {x2 : Nat} (h : r.KeepsStores s) :
    r.KeepsStores (grantChunk x0 x1 x2 s) := by
  unfold grantChunk
  repeat' first
    | with_reducible assumption
    | (intro _)
    | with_reducible apply wheelSend_keeps
    | with_reducible apply State.KeepsStores.ite
    | split

theorem abortBoth_keeps {x0 : Nat} {x1 : Sys2Proof.Machine.Coll} {x2 : Nat} (h : r.KeepsStores s) :
    r.KeepsStores (abortBoth x0 x1 x2 s) := by
  unfold abortBoth
  repeat' first
    | with_reducible assumption
    | (intro _)
    | with_reducible apply forAll_keeps
    | with_reducible apply wheelCtl_keeps
    | with_reducible apply State.KeepsStores.ite

theorem failLink_keeps {x0 : Nat} {x1 : Nat} (h : r.KeepsStores s) :
    r.KeepsStores (failLink x0 x1 s) := by
  unfold failLink
  repeat' first
    | with_reducible assumption
    | (intro _)
    | with_reducible apply leaveActive_keeps
    | with_reducible apply State.setLink_keeps
    | with_reducible apply State.set_keeps
    | (with_reducible refine eventD_keeps (by decide) ?_)
    | (with_reducible refine eventD_keeps (by assumption) ?_)
    | (with_reducible refine event_keeps (by decide) ?_)
    | (with_reducible refine event_keeps (by assumption) ?_)
    | with_reducible apply State.KeepsStores.ite

theorem replay_keeps {x0 : Nat} (h : r.KeepsStores s) :
    r.KeepsStores (replay x0 s) := by
  unfold replay
  repeat' first
    | with_reducible assumption
    | (intro _)
    | with_reducible apply failLink_keeps
    | (with_reducible refine event_keeps (by decide) ?_)
    | (with_reducible refine event_keeps (by assumption) ?_)
    | with_reducible apply State.inc_keeps
    | with_reducible apply State.setLink_keeps
    | with_reducible apply forAll_keeps
    | with_reducible apply State.emit_keeps
    | with_reducible apply State.KeepsStores.ite

theorem finalGrant_keeps {x0 : Sys2Proof.Machine.Reasm} {x1 : List Sys2Proof.Machine.PayField} (h : r.KeepsStores s) :
    r.KeepsStores (finalGrant x0 x1 s) := by
  unfold finalGrant
  repeat' first
    | with_reducible assumption
    | (intro _)
    | with_reducible apply sendGrant_keeps

theorem becomeAbsent_keeps {x0 : Nat} (h : r.KeepsStores s) :
    r.KeepsStores (becomeAbsent x0 s) := by
  unfold becomeAbsent
  repeat' first
    | with_reducible assumption
    | (intro _)
    | (with_reducible refine event_keeps (by decide) ?_)
    | (with_reducible refine event_keeps (by assumption) ?_)
    | with_reducible apply State.set_keeps
    | with_reducible apply leaveActive_keeps

theorem writeReg_keeps {x0 : Nat} {x1 : Nat} (h : r.KeepsStores s) :
    r.KeepsStores (writeReg x0 x1 s) := by
  unfold writeReg
  repeat' first
    | with_reducible assumption
    | (intro _)
    | with_reducible apply writeBits_keeps

theorem startTraining_keeps {x0 : Nat} (h : r.KeepsStores s) :
    r.KeepsStores (startTraining x0 s) := by
  unfold startTraining
  repeat' first
    | with_reducible assumption
    | (intro _)
    | with_reducible apply leaveActive_keeps
    | with_reducible apply State.setLink_keeps
    | with_reducible apply forAll_keeps
    | with_reducible apply State.setFab_keeps
    | with_reducible apply State.set_keeps
    | with_reducible apply State.KeepsStores.ite

theorem lnkCtrl_keeps {x0 : Nat} {x1 : Nat} (h : r.KeepsStores s) :
    r.KeepsStores (lnkCtrl x0 x1 s) := by
  unfold lnkCtrl
  repeat' first
    | with_reducible assumption
    | (intro _)
    | with_reducible apply writeReg_keeps
    | with_reducible apply forAll_keeps
    | with_reducible apply State.wr_keeps
    | with_reducible apply leaveActive_keeps
    | with_reducible apply State.set_keeps
    | with_reducible apply startTraining_keeps
    | with_reducible apply evaluate_keeps
    | with_reducible apply State.KeepsStores.ite

theorem armBases_keeps {x0 : Nat} {x1 : Sys2Proof.Machine.Image} (h : r.KeepsStores s) :
    r.KeepsStores (armBases x0 x1 s) := by
  unfold armBases
  repeat' first
    | with_reducible assumption
    | (intro _)
    | with_reducible apply forAll_keeps
    | with_reducible apply State.set_keeps
    | with_reducible apply State.wr_keeps
    | with_reducible apply State.KeepsStores.ite

theorem setDiscard_keeps {x0 : Nat} (h : r.KeepsStores s) :
    r.KeepsStores (setDiscard x0 s) := by
  unfold setDiscard
  repeat' first
    | with_reducible assumption
    | (intro _)
    | (with_reducible refine event_keeps (by decide) ?_)

theorem flagWrite_keeps {x0 : Nat} {x1 : Nat} {x2 : Nat} (h : r.KeepsStores s) :
    r.KeepsStores (flagWrite x0 x1 x2 s) := by
  unfold flagWrite
  repeat' first
    | with_reducible assumption
    | (intro _)
    | with_reducible apply setDiscard_keeps
    | with_reducible apply setFlag_keeps
    | with_reducible apply State.KeepsStores.ite

theorem quickly_keeps {x0 : Sys2Proof.Machine.Issued → Sys2Proof.Machine.State → Sys2Proof.Machine.State} {x1 : Sys2Proof.Machine.Issued} (h0 : ∀ y0 s, r.KeepsStores s → r.KeepsStores (x0 y0 s)) (h : r.KeepsStores s) :
    r.KeepsStores (quickly x0 x1 s).1 := by
  unfold quickly
  repeat' first
    | with_reducible assumption
    | (intro _)
    | with_reducible apply State.KeepsStores.ite
    | with_reducible apply State.KeepsStores.fold
    | with_reducible apply h0

theorem spend_keeps {x0 : Nat} (h : r.KeepsStores s) :
    r.KeepsStores (spend x0 s) := by
  unfold spend
  repeat' first
    | with_reducible assumption
    | (intro _)
    | with_reducible apply State.KeepsStores.ite
    | with_reducible apply State.KeepsStores.fold
    | (fail_if_no_progress with_reducible apply State.KeepsStores.same)

theorem spdmAnswer_keeps {x0 : Sys2Proof.Binding} {x1 : Nat} {x2 : Sys2Proof.Machine.MctpMsg} (h : r.KeepsStores s) :
    r.KeepsStores (spdmAnswer x0 x1 x2 s) := by
  unfold spdmAnswer
  repeat' first
    | with_reducible assumption
    | (intro _)
    | with_reducible apply State.emit_keeps
    | with_reducible apply spend_keeps
    | with_reducible apply State.KeepsStores.ite
    | with_reducible apply State.KeepsStores.fold
    | (fail_if_no_progress with_reducible apply State.KeepsStores.same)

theorem resetQueue_keeps {x0 : Nat} (h : r.KeepsStores s) :
    r.KeepsStores (resetQueue x0 s) := by
  unfold resetQueue
  repeat' first
    | with_reducible assumption
    | with_reducible apply discardSluice_keeps
    | (intro _)
    | with_reducible apply State.wr_keeps
    | with_reducible apply forAll_keeps
    | with_reducible apply State.set_keeps
    | with_reducible apply State.setQue_keeps

theorem runAgain_keeps {x0 : Nat} (h : r.KeepsStores s) :
    r.KeepsStores (runAgain x0 s) := by
  unfold runAgain
  repeat' first
    | with_reducible assumption
    | (intro _)
    | with_reducible apply State.set_keeps

theorem thawed_keeps {x0 : Nat} (h : r.KeepsStores s) :
    r.KeepsStores (thawed x0 s) := by
  unfold thawed
  repeat' first
    | with_reducible assumption
    | (intro _)
    | with_reducible apply State.setQue_keeps
    | with_reducible apply State.wr_keeps
    | with_reducible apply runAgain_keeps
    | with_reducible apply State.set_keeps
    | with_reducible apply State.KeepsStores.ite

theorem dropFreezer_keeps {x0 : Nat} (h : r.KeepsStores s) :
    r.KeepsStores (dropFreezer x0 s) := by
  unfold dropFreezer
  repeat' first
    | with_reducible assumption
    | (intro _)
    | with_reducible apply State.setQue_keeps
    | with_reducible apply advance_keeps
    | with_reducible apply State.KeepsStores.ite
    | with_reducible apply State.KeepsStores.fold
    | (fail_if_no_progress with_reducible apply State.KeepsStores.same)
    | extract_lets
    | split

theorem queCtrl_keeps {x0 : Nat} {x1 : Nat} (h : r.KeepsStores s) :
    r.KeepsStores (queCtrl x0 x1 s) := by
  unfold queCtrl
  repeat' first
    | with_reducible assumption
    | (intro _)
    | with_reducible apply State.set_keeps
    | with_reducible apply State.setQue_keeps
    | with_reducible apply resetQueue_keeps
    | with_reducible apply runAgain_keeps
    | with_reducible apply thawed_keeps
    | with_reducible apply dropFreezer_keeps
    | with_reducible apply State.KeepsStores.ite

theorem queCtrlWrite_keeps {x0 : Nat} {x1 : Nat} {x2 : Nat} (h : r.KeepsStores s) :
    r.KeepsStores (queCtrlWrite x0 x1 x2 s) := by
  unfold queCtrlWrite
  repeat' first
    | with_reducible assumption
    | (intro _)
    | with_reducible apply ownerWrite_keeps
    | with_reducible apply queCtrl_keeps

theorem holdSeed_keeps {x0 : Nat} {x1 : Nat} (h : r.KeepsStores s) :
    r.KeepsStores (holdSeed x0 x1 s) := by
  unfold holdSeed
  repeat' first
    | with_reducible assumption
    | (intro _)
    | with_reducible apply State.KeepsStores.ite
    | with_reducible apply State.KeepsStores.fold
    | (fail_if_no_progress with_reducible apply State.KeepsStores.same)

theorem clearErrCounts_keeps {x0 : Bool} (h : r.KeepsStores s) :
    r.KeepsStores (clearErrCounts x0 s) := by
  unfold clearErrCounts
  repeat' first
    | with_reducible assumption
    | (intro _)
    | with_reducible apply forAll_keeps
    | with_reducible apply State.wr_keeps
    | with_reducible apply State.KeepsStores.ite

theorem updateMirror_keeps  (h : r.KeepsStores s) :
    r.KeepsStores (updateMirror s) := by
  unfold updateMirror
  repeat' first
    | with_reducible assumption
    | (intro _)
    | with_reducible apply State.set_keeps

theorem mirCtlWrite_keeps {x0 : Nat} {x1 : Nat} {x2 : Nat} (h : r.KeepsStores s) :
    r.KeepsStores (mirCtlWrite x0 x1 x2 s) := by
  unfold mirCtlWrite
  repeat' first
    | with_reducible assumption
    | (intro _)
    | with_reducible apply writeBits_keeps
    | with_reducible apply updateMirror_keeps
    | with_reducible apply State.set_keeps
    | with_reducible apply State.KeepsStores.ite
    | with_reducible apply State.setFab_keeps
    | (fail_if_no_progress with_reducible apply State.KeepsStores.same)
    | extract_lets
    | split

theorem mirBaseWrite_keeps {x0 : Nat} {x1 : Nat} {x2 : Nat} {x3 : Nat} (h : r.KeepsStores s) :
    r.KeepsStores (mirBaseWrite x0 x1 x2 x3 s) := by
  unfold mirBaseWrite
  repeat' first
    | with_reducible assumption
    | (intro _)
    | (with_reducible refine event_keeps (by decide) ?_)
    | (with_reducible refine event_keeps (by assumption) ?_)
    | with_reducible apply writeBits_keeps
    | with_reducible apply State.set_keeps
    | with_reducible apply updateMirror_keeps
    | with_reducible apply State.KeepsStores.ite

theorem memoryBlock_keeps {x0 : Nat} {x1 : Nat} {x2 : Nat} {x3 : Nat} (h : r.KeepsStores s) :
    r.KeepsStores (memoryBlock x0 x1 x2 x3 s) := by
  unfold memoryBlock
  repeat' first
    | with_reducible assumption
    | (intro _)
    | (with_reducible refine event_keeps (by decide) ?_)
    | (with_reducible refine event_keeps (by assumption) ?_)
    | with_reducible apply writeBits_keeps
    | with_reducible apply clearErrCounts_keeps
    | with_reducible apply mirCtlWrite_keeps
    | with_reducible apply mirBaseWrite_keeps
    | with_reducible apply State.KeepsStores.ite

theorem routeDiscard_keeps  (h : r.KeepsStores s) :
    r.KeepsStores (routeDiscard s) := by
  unfold routeDiscard
  repeat' first
    | with_reducible assumption
    | (intro _)
    | (with_reducible refine event_keeps (by decide) ?_)

theorem retireShade_keeps  (h : r.KeepsStores s) :
    r.KeepsStores (retireShade s) := by
  unfold retireShade
  repeat' first
    | with_reducible assumption
    | (intro _)
    | with_reducible apply State.set_keeps
    | with_reducible apply routeDiscard_keeps
    | with_reducible apply State.KeepsStores.ite
    | with_reducible apply State.KeepsStores.fold
    | (fail_if_no_progress with_reducible apply State.KeepsStores.same)
    | extract_lets
    | split

theorem setRequests_keeps {x0 : Nat} {x1 : Sys2Proof.Machine.DomSt} (h : r.KeepsStores s) :
    r.KeepsStores (setRequests x0 x1 s) := by
  unfold setRequests
  repeat' first
    | with_reducible assumption
    | (intro _)
    | with_reducible apply showCauses_keeps
    | with_reducible apply State.setDom_keeps

theorem released_keeps {x0 : Nat} {x1 : Nat} (h : r.KeepsStores s) :
    r.KeepsStores (released x0 x1 s) := by
  unfold released
  repeat' first
    | with_reducible assumption
    | (intro _)
    | (with_reducible refine eventD_keeps (by decide) ?_)

theorem tableWrite_keeps {x0 : Nat} {x1 : Nat} {x2 : Nat} {x3 : Nat} {x4 : Nat} (h : r.KeepsStores s) :
    r.KeepsStores (tableWrite x0 x1 x2 x3 x4 s) := by
  unfold tableWrite
  repeat' first
    | with_reducible assumption
    | (intro _)
    | with_reducible apply writeBits_keeps
    | (with_reducible refine event_keeps (by decide) ?_)
    | (with_reducible refine event_keeps (by assumption) ?_)
    | with_reducible apply State.KeepsStores.ite

theorem statusWrite_keeps {x0 : Nat} {x1 : Nat} {x2 : Nat} {x3 : Nat} {x4 : Sys2Proof.Machine.FRef} {x5 : Nat} (h : r.KeepsStores s) :
    r.KeepsStores (statusWrite x0 x1 x2 x3 x4 x5 s) := by
  unfold statusWrite
  repeat' first
    | with_reducible assumption
    | (intro _)
    | with_reducible apply writeBits_keeps
    | with_reducible apply State.wr_keeps
    | with_reducible apply State.KeepsStores.ite

theorem flushVectors_keeps {x0 : Nat} (h : r.KeepsStores s) :
    r.KeepsStores (flushVectors x0 s) := by
  unfold flushVectors
  repeat' first
    | with_reducible assumption
    | (intro _)
    | with_reducible apply State.emit_keeps
    | with_reducible apply State.set_keeps
    | with_reducible apply State.KeepsStores.ite
    | with_reducible apply State.KeepsStores.fold

theorem dmaCfgWrite_keeps {x0 : Nat} {x1 : Nat} {x2 : Nat} {x3 : Nat} {x4 : Nat} (h : r.KeepsStores s) :
    r.KeepsStores (dmaCfgWrite x0 x1 x2 x3 x4 s) := by
  unfold dmaCfgWrite
  repeat' first
    | with_reducible assumption
    | (intro _)
    | with_reducible apply writeBits_keeps
    | with_reducible apply State.set_keeps
    | with_reducible apply State.setDma_keeps
    | with_reducible apply State.KeepsStores.ite

theorem dmaKick_keeps {x0 : Nat} {x1 : Nat} (h : r.KeepsStores s) :
    r.KeepsStores (dmaKick x0 x1 s) := by
  unfold dmaKick
  repeat' first
    | with_reducible assumption
    | (intro _)
    | with_reducible apply State.set_keeps
    | with_reducible apply dmaRead_keeps
    | with_reducible apply State.KeepsStores.ite

theorem dmaProdWrite_keeps {x0 : Nat} {x1 : Nat} {x2 : Nat} (h : r.KeepsStores s) :
    r.KeepsStores (dmaProdWrite x0 x1 x2 s) := by
  unfold dmaProdWrite
  repeat' first
    | with_reducible assumption
    | (intro _)
    | (with_reducible refine event_keeps (by decide) ?_)
    | (with_reducible refine event_keeps (by assumption) ?_)
    | with_reducible apply dmaKick_keeps
    | with_reducible apply State.set_keeps
    | with_reducible apply State.KeepsStores.ite

theorem b4mapWrite_keeps {x0 : Nat} {x1 : Nat} {x2 : Nat} {x3 : Nat} {x4 : Nat} (h : r.KeepsStores s) :
    r.KeepsStores (b4mapWrite x0 x1 x2 x3 x4 s) := by
  unfold b4mapWrite
  repeat' first
    | with_reducible assumption
    | (intro _)
    | with_reducible apply writeBits_keeps
    | with_reducible apply State.setPort_keeps
    | (with_reducible refine eventD_keeps (by decide) ?_)
    | (with_reducible refine eventD_keeps (by assumption) ?_)
    | with_reducible apply State.set_keeps
    | with_reducible apply State.KeepsStores.ite

theorem fwatchWrite_keeps {x0 : Nat} {x1 : Nat} {x2 : Nat} {x3 : Nat} {x4 : Nat} (h : r.KeepsStores s) :
    r.KeepsStores (fwatchWrite x0 x1 x2 x3 x4 s) := by
  unfold fwatchWrite
  repeat' first
    | with_reducible assumption
    | (intro _)
    | with_reducible apply writeBits_keeps
    | with_reducible apply fireWatches_keeps
    | with_reducible apply State.KeepsStores.ite

theorem refuseReserved_keeps  (h : r.KeepsStores s) :
    r.KeepsStores (refuseReserved s) := by
  unfold refuseReserved
  repeat' first
    | with_reducible assumption
    | (intro _)
    | with_reducible apply forAll_keeps
    | with_reducible apply dropReasm_keeps
    | with_reducible apply refuseSeg_keeps

theorem baseAdd_keeps {x0 : Nat} {x1 : Sys2Proof.Machine.Issued} (h : r.KeepsStores s) :
    r.KeepsStores (baseAdd x0 x1 s).1 := by
  unfold baseAdd
  repeat' first
    | with_reducible assumption
    | (intro _)
    | with_reducible apply forAll_keeps
    | with_reducible apply State.set_keeps
    | with_reducible apply State.wr_keeps
    | (with_reducible refine freezeHead_keeps (by decide) ?_)
    | (with_reducible refine freezeHead_keeps (by assumption) ?_)
    | with_reducible apply State.KeepsStores.ite
    | with_reducible apply State.KeepsStores.fold
    | (fail_if_no_progress with_reducible apply State.KeepsStores.same)
    | extract_lets
    | split

theorem flumeMirsync_keeps {x0 : Nat} {x1 : Sys2Proof.Machine.Issued} (h : r.KeepsStores s) :
    r.KeepsStores (flumeMirsync x0 x1 s).1 := by
  unfold flumeMirsync
  repeat' first
    | with_reducible assumption
    | (intro _)
    | (with_reducible refine event_keeps (by decide) ?_)
    | (with_reducible refine event_keeps (by assumption) ?_)
    | (with_reducible refine freezeHead_keeps (by decide) ?_)
    | (with_reducible refine freezeHead_keeps (by assumption) ?_)
    | with_reducible apply mirsyncDone_keeps
    | with_reducible apply State.KeepsStores.ite
    | with_reducible apply State.KeepsStores.fold
    | (fail_if_no_progress with_reducible apply State.KeepsStores.same)
    | extract_lets
    | split

theorem dropReply_keeps  (h : r.KeepsStores s) :
    r.KeepsStores (dropReply s) := by
  unfold dropReply
  repeat' first
    | with_reducible assumption
    | (intro _)
    | (with_reducible refine event_keeps (by decide) ?_)
    | (with_reducible refine event_keeps (by assumption) ?_)
    | with_reducible apply State.incSat_keeps

theorem postReply_keeps {x0 : Sys2Proof.Machine.Reply} (h : r.KeepsStores s) :
    r.KeepsStores (postReply x0 s) := by
  unfold postReply
  repeat' first
    | with_reducible assumption
    | (intro _)
    | with_reducible apply acceptNotice_keeps
    | with_reducible apply State.tick_keeps
    | with_reducible apply spend_keeps
    | with_reducible apply dropReply_keeps
    | with_reducible apply State.KeepsStores.ite
    | with_reducible apply State.KeepsStores.fold
    | (fail_if_no_progress with_reducible apply State.KeepsStores.same)

theorem updateFailed_keeps {x0 : Nat} (h : r.KeepsStores s) :
    r.KeepsStores (updateFailed x0 s) := by
  unfold updateFailed
  repeat' first
    | with_reducible assumption
    | (intro _)
    | with_reducible apply State.set_keeps
    | with_reducible apply State.KeepsStores.ite
    | with_reducible apply State.KeepsStores.fold
    | (fail_if_no_progress with_reducible apply State.KeepsStores.same)

theorem updateRejected_keeps {x0 : Nat} (h : r.KeepsStores s) :
    r.KeepsStores (updateRejected x0 s) := by
  unfold updateRejected
  repeat' first
    | with_reducible assumption
    | (intro _)
    | (with_reducible refine event_keeps (by decide) ?_)
    | (with_reducible refine event_keeps (by assumption) ?_)
    | with_reducible apply updateFailed_keeps

theorem showProgress_keeps {x0 : Nat} (h : r.KeepsStores s) :
    r.KeepsStores (showProgress x0 s) := by
  unfold showProgress
  repeat' first
    | with_reducible assumption
    | (intro _)
    | with_reducible apply State.set_keeps

theorem autoClear_keeps {x0 : Nat} (h : r.KeepsStores s) :
    r.KeepsStores (autoClear x0 s) := by
  unfold autoClear
  repeat' first
    | with_reducible assumption
    | (intro _)
    | with_reducible apply forAll_keeps
    | with_reducible apply clearOvf_keeps
    | with_reducible apply State.KeepsStores.ite

theorem readReply_keeps {x0 : Nat} {x1 : Sys2Proof.Word} (h : r.KeepsStores s) :
    r.KeepsStores (readReply x0 x1 s) := by
  unfold readReply
  repeat' first
    | with_reducible assumption
    | (intro _)
    | with_reducible apply State.emit_keeps

theorem ownReply_keeps {x0 : Nat} {x1 : Nat} (h : r.KeepsStores s) :
    r.KeepsStores (ownReply x0 x1 s) := by
  unfold ownReply
  repeat' first
    | with_reducible assumption
    | (intro _)
    | with_reducible apply readReply_keeps

theorem parkAll_keeps {x0 : Nat} (h : r.KeepsStores s) :
    r.KeepsStores (parkAll x0 s) := by
  unfold parkAll
  repeat' first
    | with_reducible assumption
    | (intro _)
    | with_reducible apply forAll_keeps
    | with_reducible apply State.set_keeps
    | with_reducible apply State.KeepsStores.ite

theorem refuseLoad_keeps {x0 : Nat} {x1 : Nat} (h : r.KeepsStores s) :
    r.KeepsStores (refuseLoad x0 x1 s) := by
  unfold refuseLoad
  repeat' first
    | with_reducible assumption
    | (intro _)
    | with_reducible apply State.set_keeps

theorem startSave_keeps {x0 : Nat} (h : r.KeepsStores s) :
    r.KeepsStores (startSave x0 s) := by
  unfold startSave
  repeat' first
    | with_reducible assumption
    | (intro _)
    | with_reducible apply refuseLoad_keeps
    | with_reducible apply State.setLoad_keeps
    | with_reducible apply State.set_keeps
    | with_reducible apply State.KeepsStores.ite

theorem startLoad_keeps {x0 : Nat} (h : r.KeepsStores s) :
    r.KeepsStores (startLoad x0 s) := by
  unfold startLoad
  repeat' first
    | with_reducible assumption
    | (intro _)
    | with_reducible apply refuseLoad_keeps
    | with_reducible apply State.setLoad_keeps
    | with_reducible apply State.set_keeps
    | with_reducible apply State.KeepsStores.ite

theorem ldCtrl_keeps {x0 : Nat} {x1 : Nat} {x2 : Nat} {x3 : Nat} (h : r.KeepsStores s) :
    r.KeepsStores (ldCtrl x0 x1 x2 x3 s) := by
  unfold ldCtrl
  repeat' first
    | with_reducible assumption
    | (intro _)
    | with_reducible apply writeBits_keeps
    | with_reducible apply parkAll_keeps
    | with_reducible apply State.set_keeps
    | with_reducible apply startSave_keeps
    | with_reducible apply startLoad_keeps
    | with_reducible apply State.KeepsStores.ite

theorem freezeEngineD_keeps {x0 : Nat} {x1 : Nat} {x2 : Nat} (hc : redCodes.contains x1 = false) (h : r.KeepsStores s) :
    r.KeepsStores (freezeEngineD x0 x1 x2 s) := by
  unfold freezeEngineD
  repeat' first
    | with_reducible assumption
    | (intro _)
    | with_reducible apply freezeQueue_keeps
    | (with_reducible refine eventD_keeps (by decide) ?_)
    | (with_reducible refine eventD_keeps (by assumption) ?_)
    | with_reducible apply State.setQue_keeps

theorem freezeEngine_keeps {x0 : Nat} {x1 : Nat} (hc : redCodes.contains x1 = false) (h : r.KeepsStores s) :
    r.KeepsStores (freezeEngine x0 x1 s) := by
  unfold freezeEngine
  repeat' first
    | with_reducible assumption
    | (intro _)
    | (with_reducible refine freezeEngineD_keeps (by decide) ?_)
    | (with_reducible refine freezeEngineD_keeps (by assumption) ?_)

theorem recordHazard_keeps {x0 : Nat} {x1 : Nat} {x2 : Nat} {x3 : Nat} {x4 : Nat} {x5 : Nat} {x6 : Bool} (h : r.KeepsStores s) :
    r.KeepsStores (recordHazard x0 x1 x2 x3 x4 x5 x6 s) := by
  unfold recordHazard
  repeat' first
    | with_reducible assumption
    | (intro _)
    | with_reducible apply State.wr_keeps
    | with_reducible apply State.set_keeps
    | (with_reducible refine recordEvent_keeps (by decide) ?_)
    | (with_reducible refine recordEvent_keeps (by assumption) ?_)
    | with_reducible apply State.KeepsStores.ite

theorem ERun.hazards_keeps {x0 : Sys2Proof.Machine.ERun} {x1 : Nat} (h : r.KeepsStores s) :
    r.KeepsStores (ERun.hazards x0 x1 s).1 := by
  unfold ERun.hazards
  repeat' first
    | with_reducible assumption
    | (intro _)
    | with_reducible apply recordHazard_keeps
    | with_reducible apply State.KeepsStores.ite
    | with_reducible apply State.KeepsStores.fold
    | (fail_if_no_progress with_reducible apply State.KeepsStores.same)
    | extract_lets
    | split
    | (fail_if_no_progress beta_reduce)
    | with_reducible apply State.KeepsStores.foldl Prod.fst

theorem revalidate_keeps {x0 : Nat} {x1 : Nat} {x2 : Sys2Proof.Machine.MxCmd} {x3 : Sys2Proof.Machine.MxRep} {x4 : Nat} (h : r.KeepsStores s) :
    r.KeepsStores (revalidate x0 x1 x2 x3 x4 s) := by
  unfold revalidate
  repeat' first
    | with_reducible assumption
    | (intro _)
    | with_reducible apply forAll_keeps
    | with_reducible apply State.setGroup_keeps
    | with_reducible apply State.KeepsStores.ite

theorem frameDiscard_keeps {x0 : Nat} (h : r.KeepsStores s) :
    r.KeepsStores (frameDiscard x0 s) := by
  unfold frameDiscard
  repeat' first
    | with_reducible assumption
    | (intro _)
    | (with_reducible refine event_keeps (by decide) ?_)
    | (with_reducible refine event_keeps (by assumption) ?_)
    | with_reducible apply State.inc_keeps

theorem pldmAnswer_keeps {x0 : Sys2Proof.Binding} {x1 : Bool} {x2 : Sys2Proof.Machine.State → Sys2Proof.Machine.State × Sys2Proof.Machine.MctpMsg} (h2 : ∀ s, r.KeepsStores s → r.KeepsStores (x2 s).1) (h : r.KeepsStores s) :
    r.KeepsStores (pldmAnswer x0 x1 x2 s) := by
  unfold pldmAnswer
  repeat' first
    | with_reducible assumption
    | (intro _)
    | with_reducible apply State.emit_keeps
    | with_reducible apply State.tick_keeps
    | with_reducible apply State.KeepsStores.ite
    | with_reducible apply State.KeepsStores.fold
    | with_reducible apply h2

theorem commitSeed_keeps {x0 : BitVec 32} (h : r.KeepsStores s) :
    r.KeepsStores (commitSeed x0 s) := by
  unfold commitSeed
  repeat' first
    | with_reducible assumption
    | (intro _)
    | with_reducible apply State.wr_keeps

theorem evaluateAll_keeps  (h : r.KeepsStores s) :
    r.KeepsStores (evaluateAll s) := by
  unfold evaluateAll
  repeat' first
    | with_reducible assumption
    | (intro _)
    | with_reducible apply forAll_keeps
    | with_reducible apply evaluate_keeps

theorem coordWrite_keeps {x0 : Nat} {x1 : Nat} {x2 : Nat} (h : r.KeepsStores s) :
    r.KeepsStores (coordWrite x0 x1 x2 s) := by
  unfold coordWrite
  repeat' first
    | with_reducible assumption
    | (intro _)
    | (with_reducible refine event_keeps (by decide) ?_)
    | (with_reducible refine event_keeps (by assumption) ?_)
    | with_reducible apply writeBits_keeps
    | with_reducible apply evaluateAll_keeps
    | with_reducible apply State.set_keeps
    | with_reducible apply State.KeepsStores.ite

theorem endPosts_keeps  (h : r.KeepsStores s) :
    r.KeepsStores (endPosts s) := by
  unfold endPosts
  repeat' first
    | with_reducible assumption
    | (intro _)
    | with_reducible apply forAll_keeps
    | with_reducible apply hostPostOutcome_keeps

theorem loseSlots_keeps {x0 : Nat} (h : r.KeepsStores s) :
    r.KeepsStores (loseSlots x0 s) := by
  unfold loseSlots
  repeat' first
    | with_reducible assumption
    | (intro _)
    | with_reducible apply forAll_keeps
    | with_reducible apply State.tick_keeps
    | with_reducible apply State.wr_keeps
    | with_reducible apply State.KeepsStores.ite

theorem interruptCommit_keeps  (h : r.KeepsStores s) :
    r.KeepsStores (interruptCommit s) := by
  unfold interruptCommit
  repeat' first
    | with_reducible assumption
    | (intro _)
    | with_reducible apply State.tick_keeps
    | with_reducible apply State.set_keeps
    | with_reducible apply State.KeepsStores.ite
    | with_reducible apply State.KeepsStores.fold
    | (fail_if_no_progress with_reducible apply State.KeepsStores.same)
    | extract_lets
    | split

theorem tryStart_keeps  (h : r.KeepsStores s) :
    r.KeepsStores (tryStart s) := by
  unfold tryStart
  repeat' first
    | with_reducible assumption
    | (intro _)
    | with_reducible apply setPhaseBoot_keeps
    | with_reducible apply State.set_keeps
    | with_reducible apply State.KeepsStores.ite

theorem setMeasurement_keeps {x0 : Nat} {x1 : Option Nat} (h : r.KeepsStores s) :
    r.KeepsStores (setMeasurement x0 x1 s) := by
  unfold setMeasurement
  repeat' first
    | with_reducible assumption
    | (intro _)
    | with_reducible apply State.KeepsStores.ite
    | with_reducible apply State.KeepsStores.fold
    | (fail_if_no_progress with_reducible apply State.KeepsStores.same)

theorem mxeStatWrite_keeps {x0 : Nat} {x1 : Nat} {x2 : Nat} {x3 : Nat} {x4 : Nat} (h : r.KeepsStores s) :
    r.KeepsStores (mxeStatWrite x0 x1 x2 x3 x4 s) := by
  unfold mxeStatWrite
  repeat' first
    | with_reducible assumption
    | (intro _)
    | with_reducible apply writeBits_keeps
    | with_reducible apply State.wr_keeps
    | with_reducible apply State.KeepsStores.ite

theorem ovfWrite_keeps {x0 : Nat} {x1 : Nat} {x2 : Nat} {x3 : Nat} (h : r.KeepsStores s) :
    r.KeepsStores (ovfWrite x0 x1 x2 x3 s) := by
  unfold ovfWrite
  repeat' first
    | with_reducible assumption
    | (intro _)
    | with_reducible apply clearOvf_keeps
    | with_reducible apply writeBits_keeps
    | with_reducible apply State.KeepsStores.ite

theorem keepField_keeps {x0 : Sys2Proof.Machine.FRef} {x1 : Nat} {x2 : Nat} {x3 : Sys2Proof.Machine.State} (hc : redCodes.contains x1 = false) (h : r.KeepsStores s) :
    r.KeepsStores (keepField x0 x1 x2 x3 s) := by
  unfold keepField
  repeat' first
    | with_reducible assumption
    | (intro _)
    | (with_reducible refine event_keeps (by decide) ?_)
    | (with_reducible refine event_keeps (by assumption) ?_)
    | with_reducible apply State.set_keeps
    | with_reducible apply State.KeepsStores.ite

theorem flagLinkWrite_keeps {x0 : Nat} {x1 : Nat} {x2 : Nat} {x3 : Nat} {x4 : Nat} (h : r.KeepsStores s) :
    r.KeepsStores (flagLinkWrite x0 x1 x2 x3 x4 s) := by
  unfold flagLinkWrite
  repeat' first
    | with_reducible assumption
    | (intro _)
    | with_reducible apply writeBits_keeps
    | with_reducible apply setDiscard_keeps
    | (with_reducible refine keepField_keeps (by decide) ?_)
    | (with_reducible refine keepField_keeps (by assumption) ?_)
    | with_reducible apply State.KeepsStores.ite
    | (with_reducible refine event_keeps (by decide) ?_)
    | (with_reducible refine event_keeps (by assumption) ?_)
    | extract_lets
    | split

theorem setBlock_keeps {x0 : Nat} {x1 : Nat} {x2 : Nat} {x3 : Nat} {x4 : Nat} (h : r.KeepsStores s) :
    r.KeepsStores (setBlock x0 x1 x2 x3 x4 s) := by
  unfold setBlock
  repeat' first
    | with_reducible assumption
    | (intro _)
    | with_reducible apply flagWrite_keeps
    | with_reducible apply addFlag_keeps
    | with_reducible apply flagLinkWrite_keeps
    | with_reducible apply ldCtrl_keeps
    | with_reducible apply setDiscard_keeps
    | with_reducible apply writeBits_keeps
    | with_reducible apply State.KeepsStores.ite

theorem countWaiting_keeps {x0 : Nat} {x1 : Nat} (h : r.KeepsStores s) :
    r.KeepsStores (countWaiting x0 x1 s) := by
  unfold countWaiting
  repeat' first
    | with_reducible assumption
    | (intro _)
    | with_reducible apply forAll_keeps
    | with_reducible apply State.inc_keeps
    | with_reducible apply State.KeepsStores.ite

theorem ageFlaps_keeps  (h : r.KeepsStores s) :
    r.KeepsStores (ageFlaps s) := by
  unfold ageFlaps
  repeat' first
    | with_reducible assumption
    | (intro _)
    | with_reducible apply forAll_keeps
    | with_reducible apply State.set_keeps

theorem State.advanceTo_keeps {x1 : Nat} (h : r.KeepsStores s) :
    r.KeepsStores (State.advanceTo s x1) := by
  unfold State.advanceTo
  repeat' first
    | with_reducible assumption
    | (intro _)
    | with_reducible apply State.wr_keeps
    | with_reducible apply State.set_keeps
    | with_reducible apply countWaiting_keeps
    | with_reducible apply forAll_keeps
    | with_reducible apply State.inc_keeps
    | with_reducible apply State.KeepsStores.ite
    | with_reducible apply ageFlaps_keeps
    | extract_lets
    | split

theorem forwardSignal_keeps {x0 : Nat} {x1 : Nat} {x2 : Nat} {x3 : Nat} (h : r.KeepsStores s) :
    r.KeepsStores (forwardSignal x0 x1 x2 x3 s) := by
  unfold forwardSignal
  repeat' first
    | with_reducible assumption
    | (intro _)
    | with_reducible apply addFlag_keeps
    | with_reducible apply wakeSet_keeps
    | (with_reducible refine freezeSoon_keeps (by decide) ?_)
    | (with_reducible refine freezeSoon_keeps (by assumption) ?_)
    | (with_reducible refine event_keeps (by decide) ?_)
    | (with_reducible refine event_keeps (by assumption) ?_)
    | with_reducible apply State.set_keeps
    | with_reducible apply sendMessage_keeps
    | with_reducible apply State.KeepsStores.ite
    | with_reducible apply accessSet_keeps
    | extract_lets
    | split

theorem doSignal_keeps {x0 : Nat} {x1 : Sys2Proof.Machine.Issued} (h : r.KeepsStores s) :
    r.KeepsStores (doSignal x0 x1 s) := by
  unfold doSignal
  repeat' first
    | with_reducible assumption
    | (intro _)
    | with_reducible apply forwardSignal_keeps
    | with_reducible apply addFlag_keeps
    | with_reducible apply State.KeepsStores.ite

theorem reportExchange_keeps {x0 : Nat} {x1 : Int} {x2 : Int} (h : r.KeepsStores s) :
    r.KeepsStores (reportExchange x0 x1 x2 s) := by
  unfold reportExchange
  repeat' first
    | with_reducible assumption
    | (intro _)
    | with_reducible apply State.tick_keeps
    | with_reducible apply State.set_keeps

theorem dropPosts_keeps {x0 : Nat} (h : r.KeepsStores s) :
    r.KeepsStores (dropPosts x0 s) := by
  unfold dropPosts
  repeat' first
    | with_reducible assumption
    | (intro _)
    | with_reducible apply State.setPort_keeps
    | with_reducible apply State.setFab_keeps
    | with_reducible apply forAll_keeps
    | with_reducible apply State.set_keeps

theorem routine_keeps {x0 : Nat} {x1 : Nat → Nat → Nat → Sys2Proof.Machine.State → Sys2Proof.Machine.State} (h1 : ∀ y0 y1 y2 s, r.KeepsStores s → r.KeepsStores (x1 y0 y1 y2 s)) (h : r.KeepsStores s) :
    r.KeepsStores (routine x0 x1 s) := by
  unfold routine
  repeat' first
    | with_reducible assumption
    | (intro _)
    | with_reducible apply State.KeepsStores.ite
    | with_reducible apply State.KeepsStores.fold
    | with_reducible apply h1
    | (fail_if_no_progress with_reducible apply State.KeepsStores.same)
    | extract_lets
    | split

theorem routineEnd_keeps {x0 : Nat} (h : r.KeepsStores s) :
    r.KeepsStores (routineEnd x0 s) := by
  unfold routineEnd
  repeat' first
    | with_reducible assumption
    | (intro _)
    | with_reducible apply leaveRoutine_keeps

theorem writeShares_keeps {x0 : List Nat} (h : r.KeepsStores s) :
    r.KeepsStores (writeShares x0 s) := by
  unfold writeShares
  repeat' first
    | with_reducible assumption
    | (intro _)
    | with_reducible apply State.set_keeps
    | with_reducible apply forAll_keeps
    | (with_reducible refine event_keeps (by decide) ?_)
    | (with_reducible refine event_keeps (by assumption) ?_)
    | with_reducible apply State.KeepsStores.ite
    | with_reducible apply State.KeepsStores.fold
    | (fail_if_no_progress with_reducible apply State.KeepsStores.same)
    | extract_lets
    | split

theorem evrCtrl_keeps {x0 : Nat} {x1 : Nat} {x2 : Nat} (h : r.KeepsStores s) :
    r.KeepsStores (evrCtrl x0 x1 x2 s) := by
  unfold evrCtrl
  repeat' first
    | with_reducible assumption
    | (intro _)
    | with_reducible apply writeBits_keeps
    | with_reducible apply State.wr_keeps
    | with_reducible apply State.KeepsStores.ite

theorem moveTimes_keeps {x0 : Int} (h : r.KeepsStores s) :
    r.KeepsStores (moveTimes x0 s) := by
  unfold moveTimes
  repeat' first
    | with_reducible assumption
    | (intro _)
    | with_reducible apply forAll_keeps
    | with_reducible apply State.setLink_keeps
    | with_reducible apply State.setFab_keeps
    | with_reducible apply State.setMxe_keeps
    | with_reducible apply State.setWheel_keeps
    | (fail_if_no_progress with_reducible apply State.KeepsStores.same)
    | extract_lets

theorem stepTo_keeps {x0 : Nat} (h : r.KeepsStores s) :
    r.KeepsStores (stepTo x0 s) := by
  unfold stepTo
  repeat' first
    | with_reducible assumption
    | (intro _)
    | with_reducible apply State.wr_keeps
    | with_reducible apply forAll_keeps
    | with_reducible apply State.setLink_keeps
    | with_reducible apply State.setFab_keeps
    | (with_reducible refine eventD_keeps (by decide) ?_)
    | (with_reducible refine eventD_keeps (by assumption) ?_)
    | with_reducible apply State.KeepsStores.ite
    | with_reducible apply State.KeepsStores.fold
    | (fail_if_no_progress with_reducible apply State.KeepsStores.same)
    | with_reducible apply moveTimes_keeps
    | extract_lets

theorem ftmLoad_keeps  (h : r.KeepsStores s) :
    r.KeepsStores (ftmLoad s) := by
  unfold ftmLoad
  repeat' first
    | with_reducible assumption
    | (intro _)
    | with_reducible apply stepTo_keeps
    | (with_reducible refine event_keeps (by decide) ?_)
    | (with_reducible refine event_keeps (by assumption) ?_)
    | with_reducible apply State.KeepsStores.ite
    | with_reducible apply State.KeepsStores.fold
    | (fail_if_no_progress with_reducible apply State.KeepsStores.same)

theorem ftmCtrl_keeps {x0 : Nat} (h : r.KeepsStores s) :
    r.KeepsStores (ftmCtrl x0 s) := by
  unfold ftmCtrl
  repeat' first
    | with_reducible assumption
    | (intro _)
    | with_reducible apply State.wr_keeps
    | with_reducible apply ftmLoad_keeps
    | with_reducible apply State.KeepsStores.ite

theorem lnkCfgWrite_keeps {x0 : Nat} {x1 : Nat} {x2 : Nat} {x3 : Nat} (h : r.KeepsStores s) :
    r.KeepsStores (lnkCfgWrite x0 x1 x2 x3 s) := by
  unfold lnkCfgWrite
  repeat' first
    | with_reducible assumption
    | (intro _)
    | with_reducible apply writeBits_keeps
    | with_reducible apply State.set_keeps
    | with_reducible apply evaluate_keeps
    | (with_reducible refine event_keeps (by decide) ?_)
    | (with_reducible refine event_keeps (by assumption) ?_)
    | with_reducible apply State.KeepsStores.ite

theorem planEntryWrite_keeps {x0 : Nat} {x1 : Nat} {x2 : Nat} {x3 : Nat} {x4 : Nat} (h : r.KeepsStores s) :
    r.KeepsStores (planEntryWrite x0 x1 x2 x3 x4 s) := by
  unfold planEntryWrite
  repeat' first
    | with_reducible assumption
    | (intro _)
    | with_reducible apply evaluate_keeps
    | with_reducible apply writeBits_keeps

theorem hostEqWrite_keeps {x0 : Nat} {x1 : Nat} {x2 : Nat} {x3 : Nat} {x4 : Nat} (h : r.KeepsStores s) :
    r.KeepsStores (hostEqWrite x0 x1 x2 x3 x4 s) := by
  unfold hostEqWrite
  repeat' first
    | with_reducible assumption
    | (intro _)
    | with_reducible apply writeBits_keeps
    | (with_reducible refine eventD_keeps (by decide) ?_)
    | (with_reducible refine eventD_keeps (by assumption) ?_)
    | with_reducible apply State.set_keeps
    | with_reducible apply State.KeepsStores.ite

theorem planCheck_keeps  (h : r.KeepsStores s) :
    r.KeepsStores (planCheck s).1 := by
  unfold planCheck
  repeat' first
    | with_reducible assumption
    | (intro _)
    | with_reducible apply State.set_keeps
    | with_reducible apply State.KeepsStores.ite
    | with_reducible apply State.KeepsStores.fold
    | (fail_if_no_progress with_reducible apply State.KeepsStores.same)
    | extract_lets
    | split

theorem planCtl_keeps {x0 : Nat} (h : r.KeepsStores s) :
    r.KeepsStores (planCtl x0 s) := by
  unfold planCtl
  repeat' first
    | with_reducible assumption
    | (intro _)
    | with_reducible apply writeReg_keeps
    | (with_reducible refine event_keeps (by decide) ?_)
    | (with_reducible refine event_keeps (by assumption) ?_)
    | with_reducible apply State.set_keeps
    | with_reducible apply planCheck_keeps
    | with_reducible apply State.KeepsStores.ite

theorem protoWrite_keeps {x0 : Nat} {x1 : Nat} {x2 : Nat} (h : r.KeepsStores s) :
    r.KeepsStores (protoWrite x0 x1 x2 s) := by
  unfold protoWrite
  repeat' first
    | with_reducible assumption
    | (intro _)
    | with_reducible apply evaluateAll_keeps
    | with_reducible apply writeBits_keeps

theorem openShade_keeps  (h : r.KeepsStores s) :
    r.KeepsStores (openShade s) := by
  unfold openShade
  repeat' first
    | with_reducible assumption
    | (intro _)
    | with_reducible apply forAll_keeps
    | with_reducible apply State.wr_keeps
    | with_reducible apply State.set_keeps
    | with_reducible apply routeDiscard_keeps
    | with_reducible apply State.KeepsStores.ite
    | with_reducible apply State.KeepsStores.fold
    | (fail_if_no_progress with_reducible apply State.KeepsStores.same)
    | extract_lets
    | split

theorem rteCntClr_keeps  (h : r.KeepsStores s) :
    r.KeepsStores (rteCntClr s) := by
  unfold rteCntClr
  repeat' first
    | with_reducible assumption
    | (intro _)
    | with_reducible apply forAll_keeps
    | with_reducible apply State.wr_keeps

theorem flushClear_keeps  (h : r.KeepsStores s) :
    r.KeepsStores (flushClear s) := by
  unfold flushClear
  repeat' first
    | with_reducible assumption
    | (intro _)
    | with_reducible apply State.set_keeps
    | with_reducible apply forAll_keeps
    | with_reducible apply State.wr_keeps
    | with_reducible apply State.setFab_keeps

theorem stampShade_keeps {x0 : Nat} (h : r.KeepsStores s) :
    r.KeepsStores (stampShade x0 s) := by
  unfold stampShade
  repeat' first
    | with_reducible assumption
    | (intro _)
    | with_reducible apply State.set_keeps
    | with_reducible apply routeDiscard_keeps
    | with_reducible apply State.KeepsStores.ite

theorem flushReport_keeps  (h : r.KeepsStores s) :
    r.KeepsStores (flushReport s) := by
  unfold flushReport
  repeat' first
    | with_reducible assumption
    | (intro _)
    | with_reducible apply sendCell_keeps
    | with_reducible apply State.setFab_keeps
    | with_reducible apply State.KeepsStores.ite
    | with_reducible apply State.KeepsStores.fold
    | (fail_if_no_progress with_reducible apply State.KeepsStores.same)
    | extract_lets
    | split

theorem setFlrep_keeps {x0 : Bool} (h : r.KeepsStores s) :
    r.KeepsStores (setFlrep x0 s) := by
  unfold setFlrep
  repeat' first
    | with_reducible assumption
    | (intro _)
    | with_reducible apply flushReport_keeps
    | with_reducible apply State.set_keeps
    | with_reducible apply State.setFab_keeps
    | with_reducible apply State.KeepsStores.ite

theorem rteCtrlWrite_keeps {x0 : Nat} (h : r.KeepsStores s) :
    r.KeepsStores (rteCtrlWrite x0 s) := by
  unfold rteCtrlWrite
  repeat' first
    | with_reducible assumption
    | (intro _)
    | with_reducible apply openShade_keeps
    | with_reducible apply rteCntClr_keeps
    | with_reducible apply flushClear_keeps
    | with_reducible apply retireShade_keeps
    | with_reducible apply stampShade_keeps
    | with_reducible apply setFlrep_keeps
    | with_reducible apply State.KeepsStores.ite

theorem ethWrite_keeps {x0 : Nat} {x1 : Nat} {x2 : Nat} {x3 : Nat} (h : r.KeepsStores s) :
    r.KeepsStores (ethWrite x0 x1 x2 x3 s) := by
  unfold ethWrite
  repeat' first
    | with_reducible assumption
    | (intro _)
    | with_reducible apply writeBits_keeps
    | (with_reducible refine event_keeps (by decide) ?_)
    | (with_reducible refine event_keeps (by assumption) ?_)
    | with_reducible apply evaluateAll_keeps
    | with_reducible apply State.KeepsStores.ite

theorem wheelCntClr_keeps {x0 : Nat} (h : r.KeepsStores s) :
    r.KeepsStores (wheelCntClr x0 s) := by
  unfold wheelCntClr
  repeat' first
    | with_reducible assumption
    | (intro _)
    | with_reducible apply forAll_keeps
    | with_reducible apply State.wr_keeps

theorem svnCommit_keeps {x0 : Nat} (h : r.KeepsStores s) :
    r.KeepsStores (svnCommit x0 s) := by
  unfold svnCommit
  repeat' first
    | with_reducible assumption
    | (intro _)
    | (with_reducible refine event_keeps (by decide) ?_)
    | (with_reducible refine event_keeps (by assumption) ?_)
    | with_reducible apply State.KeepsStores.ite
    | with_reducible apply State.KeepsStores.fold
    | (fail_if_no_progress with_reducible apply State.KeepsStores.same)

theorem securityBlock_keeps {x0 : Nat} {x1 : Nat} {x2 : Nat} {x3 : Nat} (h : r.KeepsStores s) :
    r.KeepsStores (securityBlock x0 x1 x2 x3 s) := by
  unfold securityBlock
  repeat' first
    | with_reducible assumption
    | (intro _)
    | with_reducible apply svnCommit_keeps
    | (with_reducible refine event_keeps (by decide) ?_)
    | (with_reducible refine event_keeps (by assumption) ?_)
    | with_reducible apply writeBits_keeps
    | with_reducible apply State.KeepsStores.ite

theorem dmaKickAll_keeps {x0 : Nat} (h : r.KeepsStores s) :
    r.KeepsStores (dmaKickAll x0 s) := by
  unfold dmaKickAll
  repeat' first
    | with_reducible assumption
    | (intro _)
    | with_reducible apply forAll_keeps
    | with_reducible apply dmaKick_keeps

theorem bar4Resize_keeps {x0 : Nat} {x1 : Nat} (h : r.KeepsStores s) :
    r.KeepsStores (bar4Resize x0 x1 s) := by
  unfold bar4Resize
  repeat' first
    | with_reducible assumption
    | (intro _)
    | with_reducible apply State.setPort_keeps

theorem preWakeTiles_keeps {x0 : Nat} {x1 : Sys2Proof.CmdBits} (h : r.KeepsStores s) :
    r.KeepsStores (preWakeTiles x0 x1 s) := by
  unfold preWakeTiles
  repeat' first
    | with_reducible assumption
    | with_reducible apply State.setQue_keeps
    | (intro _)
    | with_reducible apply forAll_keeps
    | with_reducible apply State.setMxe_keeps
    | with_reducible apply State.set_keeps
    | with_reducible apply wakeTile_keeps
    | with_reducible apply State.KeepsStores.ite
    | (fail_if_no_progress with_reducible apply State.KeepsStores.same)
    | extract_lets
    | split

theorem launchArrives_keeps {x0 : Nat} {x1 : Sys2Proof.Machine.Issued} (h : r.KeepsStores s) :
    r.KeepsStores (launchArrives x0 x1 s).1 := by
  unfold launchArrives
  repeat' first
    | with_reducible assumption
    | (intro _)
    | (with_reducible refine eventD_keeps (by decide) ?_)
    | (with_reducible refine eventD_keeps (by assumption) ?_)
    | with_reducible apply releasePreWake_keeps
    | with_reducible apply preWakeTiles_keeps
    | with_reducible apply doSignal_keeps
    | (with_reducible refine freezeHead_keeps (by decide) ?_)
    | (with_reducible refine freezeHead_keeps (by assumption) ?_)
    | with_reducible apply State.setQue_keeps
    | with_reducible apply waitFor_keeps
    | with_reducible apply State.KeepsStores.ite
    | with_reducible apply State.KeepsStores.fold
    | (fail_if_no_progress with_reducible apply State.KeepsStores.same)
    | extract_lets
    | split

theorem readClear_keeps {x0 : Nat} {x1 : Nat} {x2 : Sys2Proof.Machine.FRef} (h : r.KeepsStores s) :
    r.KeepsStores (readClear x0 x1 x2 s) := by
  unfold readClear
  repeat' first
    | with_reducible assumption
    | (intro _)
    | with_reducible apply State.set_keeps
    | with_reducible apply readReply_keeps

theorem resend_keeps {x0 : Nat} (h : r.KeepsStores s) :
    r.KeepsStores (resend x0 s) := by
  unfold resend
  repeat' first
    | with_reducible assumption
    | (intro _)
    | with_reducible apply State.inc_keeps
    | with_reducible apply setWin_keeps
    | with_reducible apply pump_keeps
    | with_reducible apply setSend_keeps
    | with_reducible apply State.KeepsStores.ite
    | with_reducible apply State.KeepsStores.fold
    | (fail_if_no_progress with_reducible apply State.KeepsStores.same)
    | extract_lets
    | split

theorem takeSample_keeps {x0 : List (BitVec 32)} (h : r.KeepsStores s) :
    r.KeepsStores (takeSample x0 s) := by
  unfold takeSample
  repeat' first
    | with_reducible assumption
    | (intro _)
    | with_reducible apply forAll_keeps
    | with_reducible apply State.set_keeps
    | with_reducible apply State.KeepsStores.ite
    | with_reducible apply State.KeepsStores.fold
    | (fail_if_no_progress with_reducible apply State.KeepsStores.same)

theorem newParent_keeps {x0 : Nat} (h : r.KeepsStores s) :
    r.KeepsStores (newParent x0 s) := by
  unfold newParent
  repeat' first
    | with_reducible assumption
    | (intro _)
    | with_reducible apply State.set_keeps
    | with_reducible apply State.KeepsStores.ite
    | with_reducible apply State.KeepsStores.fold
    | (fail_if_no_progress with_reducible apply State.KeepsStores.same)

theorem adoptRole_keeps  (h : r.KeepsStores s) :
    r.KeepsStores (adoptRole s) := by
  unfold adoptRole
  repeat' first
    | with_reducible assumption
    | (intro _)
    | with_reducible apply newParent_keeps
    | with_reducible apply State.set_keeps
    | with_reducible apply State.KeepsStores.ite
    | with_reducible apply State.KeepsStores.fold
    | (fail_if_no_progress with_reducible apply State.KeepsStores.same)

theorem sendSequenced_keeps {x0 : Nat} {x1 : Sys2Proof.CellBits} (h : r.KeepsStores s) :
    r.KeepsStores (sendSequenced x0 x1 s) := by
  unfold sendSequenced
  repeat' first
    | with_reducible assumption
    | (intro _)
    | with_reducible apply State.emit_keeps
    | with_reducible apply State.inc_keeps
    | with_reducible apply State.setLink_keeps

theorem sendChosen_keeps {x0 : Nat} {x1 : Nat} {x2 : Nat} {x3 : Sys2Proof.Machine.QCell} {x4 : Nat} {x5 : Nat} {x6 : Nat} (h : r.KeepsStores s) :
    r.KeepsStores (sendChosen x0 x1 x2 x3 x4 x5 x6 s) := by
  unfold sendChosen
  repeat' first
    | with_reducible assumption
    | (intro _)
    | with_reducible apply State.setLink_keeps
    | with_reducible apply sendSequenced_keeps
    | with_reducible apply giveRoom_keeps

theorem cellSlot_keeps {x0 : Nat} (h : r.KeepsStores s) :
    r.KeepsStores (cellSlot x0 s) := by
  unfold cellSlot
  repeat' first
    | with_reducible assumption
    | (intro _)
    | with_reducible apply sendIdle_keeps
    | with_reducible apply sendChosen_keeps
    | with_reducible apply State.KeepsStores.ite
    | with_reducible apply State.KeepsStores.fold
    | (fail_if_no_progress with_reducible apply State.KeepsStores.same)
    | extract_lets
    | split
    | (fail_if_no_progress beta_reduce)
    | (dsimp +zetaDelta -failIfUnchanged only [] at ⊢; split)

theorem tapPut_keeps {x0 : Sys2Proof.Machine.TapInstr} {x1 : Option (BitVec 32)} (h : r.KeepsStores s) :
    r.KeepsStores (tapPut x0 x1 s) := by
  unfold tapPut
  repeat' first
    | with_reducible assumption
    | (intro _)
    | with_reducible apply State.KeepsStores.ite
    | with_reducible apply State.KeepsStores.fold
    | (fail_if_no_progress with_reducible apply State.KeepsStores.same)

theorem tapBypass_keeps  (h : r.KeepsStores s) :
    r.KeepsStores (tapBypass s) := by
  unfold tapBypass
  repeat' first
    | with_reducible assumption
    | (intro _)
    | with_reducible apply tapPut_keeps

theorem tapDrive_keeps {x0 : Sys2Proof.Machine.TapInstr} (h : r.KeepsStores s) :
    r.KeepsStores (tapDrive x0 s) := by
  unfold tapDrive
  repeat' first
    | with_reducible assumption
    | (intro _)
    | with_reducible apply tapBypass_keeps
    | with_reducible apply tapPut_keeps
    | with_reducible apply State.KeepsStores.ite

theorem writeCopy_keeps {x0 : Nat} (h : r.KeepsStores s) :
    r.KeepsStores (writeCopy x0 s) := by
  unfold writeCopy
  repeat' first
    | with_reducible assumption
    | (intro _)
    | with_reducible apply State.set_keeps
    | with_reducible apply State.KeepsStores.ite
    | with_reducible apply State.KeepsStores.fold
    | (fail_if_no_progress with_reducible apply State.KeepsStores.same)

theorem carry_keeps {x0 : Nat} (h : r.KeepsStores s) :
    r.KeepsStores (carry x0 s) := by
  unfold carry
  repeat' first
    | with_reducible assumption
    | (intro _)
    | with_reducible apply State.advanceTo_keeps
    | with_reducible apply State.KeepsStores.ite

theorem loadFlashRing_keeps  (h : r.KeepsStores s) :
    r.KeepsStores (loadFlashRing s) := by
  unfold loadFlashRing
  repeat' first
    | with_reducible assumption
    | (intro _)
    | with_reducible apply State.resetRegs_keeps
    | with_reducible apply forAll_keeps
    | with_reducible apply State.wr_keeps
    | with_reducible apply State.set_keeps

theorem changeOwner_keeps {x0 : Nat} (h : r.KeepsStores s) :
    r.KeepsStores (changeOwner x0 s) := by
  unfold changeOwner
  repeat' first
    | with_reducible assumption
    | (intro _)
    | with_reducible apply State.inc_keeps
    | with_reducible apply State.set_keeps
    | with_reducible apply raiseBoth_keeps
    | (with_reducible refine eventD_keeps (by decide) ?_)

theorem portConfigReset_keeps {x0 : Nat} (h : r.KeepsStores s) :
    r.KeepsStores (portConfigReset x0 s) := by
  unfold portConfigReset
  repeat' first
    | with_reducible assumption
    | (intro _)
    | with_reducible apply State.setPort_keeps
    | with_reducible apply State.wr_keeps
    | with_reducible apply State.set_keeps
    | with_reducible apply State.resetRegs_keeps

theorem releaseFreeze_keeps {x0 : Nat} (h : r.KeepsStores s) :
    r.KeepsStores (releaseFreeze x0 s) := by
  unfold releaseFreeze
  repeat' first
    | with_reducible assumption
    | (intro _)
    | with_reducible apply State.set_keeps
    | with_reducible apply State.setPort_keeps

theorem measured_keeps {x0 : Nat} {x1 : List Nat} (h : r.KeepsStores s) :
    r.KeepsStores (measured x0 x1 s) := by
  unfold measured
  repeat' first
    | with_reducible assumption
    | (intro _)
    | with_reducible apply forAll_keeps
    | with_reducible apply State.wr_keeps
    | with_reducible apply setMeasurement_keeps
    | with_reducible apply State.set_keeps

theorem armPeriods_keeps {x0 : Nat} {x1 : Sys2Proof.Machine.Image} (h : r.KeepsStores s) :
    r.KeepsStores (armPeriods x0 x1 s) := by
  unfold armPeriods
  repeat' first
    | with_reducible assumption
    | (intro _)
    | with_reducible apply forAll_keeps
    | with_reducible apply State.set_keeps
    | with_reducible apply State.resetRegs_keeps

theorem armQueue_keeps {x0 : Nat} {x1 : Nat} (h : r.KeepsStores s) :
    r.KeepsStores (armQueue x0 x1 s) := by
  unfold armQueue
  repeat' first
    | with_reducible assumption
    | (intro _)
    | with_reducible apply State.set_keeps
    | with_reducible apply State.wr_keeps
    | with_reducible apply forAll_keeps
    | with_reducible apply State.setQue_keeps

theorem resumeQueue_keeps {x0 : Nat} {x1 : Nat} {x2 : Nat} (h : r.KeepsStores s) :
    r.KeepsStores (resumeQueue x0 x1 x2 s) := by
  unfold resumeQueue
  repeat' first
    | with_reducible assumption
    | (intro _)
    | with_reducible apply armQueue_keeps
    | with_reducible apply State.set_keeps
    | with_reducible apply forAll_keeps
    | with_reducible apply State.wr_keeps
    | with_reducible apply State.setQue_keeps

theorem resumeSet_keeps {x0 : Nat} {x1 : Nat} (h : r.KeepsStores s) :
    r.KeepsStores (resumeSet x0 x1 s) := by
  unfold resumeSet
  repeat' first
    | with_reducible assumption
    | (intro _)
    | with_reducible apply State.wr_keeps
    | with_reducible apply State.set_keeps
    | with_reducible apply forAll_keeps
    | with_reducible apply State.KeepsStores.ite
    | with_reducible apply State.KeepsStores.fold

theorem armFlags_keeps {x0 : Nat} {x1 : Sys2Proof.Machine.Image} (h : r.KeepsStores s) :
    r.KeepsStores (armFlags x0 x1 s) := by
  unfold armFlags
  repeat' first
    | with_reducible assumption
    | (intro _)
    | with_reducible apply forAll_keeps
    | with_reducible apply State.set_keeps
    | with_reducible apply State.resetRegs_keeps
    | with_reducible apply State.wr_keeps

theorem slew_keeps  (h : r.KeepsStores s) :
    r.KeepsStores (slew s) := by
  unfold slew
  repeat' first
    | with_reducible assumption
    | (intro _)
    | with_reducible apply State.tick_keeps
    | with_reducible apply State.set_keeps

theorem fecCount_keeps {x0 : Nat} {x1 : Sys2Proof.Fec} (h : r.KeepsStores s) :
    r.KeepsStores (fecCount x0 x1 s) := by
  unfold fecCount
  repeat' first
    | with_reducible assumption
    | (intro _)
    | with_reducible apply State.inc_keeps
    | with_reducible apply State.setLink_keeps
    | (with_reducible refine event_keeps (by decide) ?_)
    | (with_reducible refine event_keeps (by assumption) ?_)
    | with_reducible apply failLink_keeps
    | with_reducible apply State.KeepsStores.ite

theorem loadTile_keeps {x0 : Nat} {x1 : Sys2Proof.Machine.MxCmd} {x2 : Sys2Proof.Machine.MxRep} (h : r.KeepsStores s) :
    r.KeepsStores (loadTile x0 x1 x2 s) := by
  unfold loadTile
  repeat' first
    | with_reducible assumption
    | (intro _)
    | with_reducible apply State.setMxe_keeps

theorem ppsLost_keeps  (h : r.KeepsStores s) :
    r.KeepsStores (ppsLost s) := by
  unfold ppsLost
  repeat' first
    | with_reducible assumption
    | (intro _)
    | (with_reducible refine event_keeps (by decide) ?_)
    | (with_reducible refine event_keeps (by assumption) ?_)
    | with_reducible apply State.set_keeps

theorem pldmData_keeps {x0 : Sys2Proof.Binding} {x1 : Bool} {x2 : Sys2Proof.Machine.State → List Sys2Proof.Byte} (h : r.KeepsStores s) :
    r.KeepsStores (pldmData x0 x1 x2 s) := by
  unfold pldmData
  repeat' first
    | with_reducible assumption
    | (intro _)
    | with_reducible apply pldmAnswer_keeps

theorem takeOffset_keeps {x0 : Int} (h : r.KeepsStores s) :
    r.KeepsStores (takeOffset x0 s) := by
  unfold takeOffset
  repeat' first
    | with_reducible assumption
    | (intro _)
    | with_reducible apply State.tick_keeps
    | with_reducible apply State.set_keeps
    | with_reducible apply State.KeepsStores.ite
    | with_reducible apply State.KeepsStores.fold
    | (fail_if_no_progress with_reducible apply State.KeepsStores.same)

theorem stepBack_keeps {x0 : Int} (h : r.KeepsStores s) :
    r.KeepsStores (stepBack x0 s) := by
  unfold stepBack
  repeat' first
    | with_reducible assumption
    | (intro _)
    | with_reducible apply stepTo_keeps
    | with_reducible apply State.tick_keeps
    | with_reducible apply State.KeepsStores.ite
    | with_reducible apply State.KeepsStores.fold
    | (fail_if_no_progress with_reducible apply State.KeepsStores.same)

theorem discipline_keeps {x0 : Int} (h : r.KeepsStores s) :
    r.KeepsStores (discipline x0 s) := by
  unfold discipline
  repeat' first
    | with_reducible assumption
    | (intro _)
    | with_reducible apply takeOffset_keeps
    | with_reducible apply State.set_keeps
    | with_reducible apply stepBack_keeps
    | (with_reducible refine event_keeps (by decide) ?_)
    | (with_reducible refine event_keeps (by assumption) ?_)
    | with_reducible apply slew_keeps
    | with_reducible apply State.KeepsStores.ite
    | with_reducible apply State.KeepsStores.fold
    | (fail_if_no_progress with_reducible apply State.KeepsStores.same)

theorem helloArrives_keeps {x0 : Nat} {x1 : Sys2Proof.CellBits} (h : r.KeepsStores s) :
    r.KeepsStores (helloArrives x0 x1 s) := by
  unfold helloArrives
  repeat' first
    | with_reducible assumption
    | (intro _)
    | with_reducible apply storeHello_keeps
    | with_reducible apply evaluate_keeps
    | with_reducible apply State.setLink_keeps

theorem takeAlternate_keeps {x0 : Nat} (h : r.KeepsStores s) :
    r.KeepsStores (takeAlternate x0 s) := by
  unfold takeAlternate
  repeat' first
    | with_reducible assumption
    | (intro _)
    | (with_reducible refine eventD_keeps (by decide) ?_)
    | with_reducible apply newParent_keeps
    | with_reducible apply State.KeepsStores.ite
    | (fail_if_no_progress with_reducible apply State.KeepsStores.same)
    | extract_lets
    | split

theorem followReply_keeps {x0 : Nat} {x1 : Sys2Proof.Machine.TimeHeard} {x2 : Int} (h : r.KeepsStores s) :
    r.KeepsStores (followReply x0 x1 x2 s) := by
  unfold followReply
  repeat' first
    | with_reducible assumption
    | with_reducible apply takeAlternate_keeps
    | (intro _)
    | (with_reducible refine event_keeps (by decide) ?_)
    | (with_reducible refine event_keeps (by assumption) ?_)
    | with_reducible apply newParent_keeps
    | with_reducible apply State.set_keeps
    | with_reducible apply State.inc_keeps
    | with_reducible apply discipline_keeps
    | with_reducible apply State.KeepsStores.ite
    | with_reducible apply State.KeepsStores.fold
    | (fail_if_no_progress with_reducible apply State.KeepsStores.same)

theorem parentLost_keeps  (h : r.KeepsStores s) :
    r.KeepsStores (parentLost s) := by
  unfold parentLost
  repeat' first
    | with_reducible assumption
    | (intro _)
    | with_reducible apply newParent_keeps
    | with_reducible apply State.set_keeps
    | (with_reducible refine eventD_keeps (by decide) ?_)
    | (with_reducible refine eventD_keeps (by assumption) ?_)
    | with_reducible apply State.KeepsStores.ite
    | with_reducible apply State.KeepsStores.fold
    | (fail_if_no_progress with_reducible apply State.KeepsStores.same)

theorem pldmServed_keeps {x0 : Sys2Proof.Binding} {x1 : Sys2Proof.Machine.State → Sys2Proof.Machine.State × Sys2Proof.Machine.MctpMsg} (h1 : ∀ s, r.KeepsStores s → r.KeepsStores (x1 s).1) (h : r.KeepsStores s) :
    r.KeepsStores (pldmServed x0 x1 s) := by
  unfold pldmServed
  repeat' first
    | with_reducible assumption
    | (intro _)
    | with_reducible apply pldmAnswer_keeps
    | with_reducible apply State.KeepsStores.ite
    | with_reducible apply State.KeepsStores.fold
    | with_reducible apply h1
    | (fail_if_no_progress with_reducible apply State.KeepsStores.same)
    | extract_lets
    | split

theorem tagWrite_keeps {x0 : List Sys2Proof.Byte} {x1 : Bool} (h : r.KeepsStores s) :
    r.KeepsStores (tagWrite x0 x1 s) := by
  unfold tagWrite
  repeat' first
    | with_reducible assumption
    | (intro _)
    | with_reducible apply State.incSat_keeps
    | (with_reducible refine event_keeps (by decide) ?_)
    | (with_reducible refine event_keeps (by assumption) ?_)
    | with_reducible apply State.KeepsStores.ite
    | with_reducible apply State.KeepsStores.fold
    | (fail_if_no_progress with_reducible apply State.KeepsStores.same)

theorem freezeEvent_keeps {x0 : Nat} {x1 : Nat} {x2 : Nat} {x3 : Nat} {x4 : Nat} {x5 : Nat} (hc : redCodes.contains x1 = false) (h : r.KeepsStores s) :
    r.KeepsStores (freezeEvent x0 x1 x2 x3 x4 x5 s) := by
  unfold freezeEvent
  repeat' first
    | with_reducible assumption
    | (intro _)
    | with_reducible apply freezeQueue_keeps
    | (with_reducible refine eventD_keeps (by decide) ?_)
    | (with_reducible refine eventD_keeps (by assumption) ?_)

theorem capChange_keeps {x0 : Nat} {x1 : Sys2Proof.Machine.DomSt} (h : r.KeepsStores s) :
    r.KeepsStores (capChange x0 x1 s) := by
  unfold capChange
  repeat' first
    | with_reducible assumption
    | (intro _)
    | with_reducible apply setRequests_keeps
    | (with_reducible refine event_keeps (by decide) ?_)
    | (with_reducible refine event_keeps (by assumption) ?_)
    | with_reducible apply State.setDom_keeps
    | with_reducible apply released_keeps
    | with_reducible apply State.KeepsStores.ite

theorem dmaComplete_keeps {x0 : Nat} {x1 : Nat} {x2 : Nat} (h : r.KeepsStores s) :
    r.KeepsStores (dmaComplete x0 x1 x2 s) := by
  unfold dmaComplete
  repeat' first
    | with_reducible assumption
    | (intro _)
    | with_reducible apply State.inc_keeps
    | with_reducible apply State.setDma_keeps
    | with_reducible apply addFlag_keeps
    | with_reducible apply wakeSet_keeps
    | with_reducible apply dmaKick_keeps
    | with_reducible apply raiseVector_keeps
    | with_reducible apply State.KeepsStores.ite
    | with_reducible apply accessSet_keeps
    | extract_lets
    | split

theorem adaptiveFallback_keeps  (h : r.KeepsStores s) :
    r.KeepsStores (adaptiveFallback s) := by
  unfold adaptiveFallback
  repeat' first
    | with_reducible assumption
    | (intro _)
    | with_reducible apply State.setFab_keeps
    | with_reducible apply routeHeld_keeps
    | with_reducible apply routeEscape_keeps
    | with_reducible apply State.KeepsStores.ite
    | with_reducible apply State.KeepsStores.fold
    | (fail_if_no_progress with_reducible apply State.KeepsStores.same)
    | extract_lets
    | split

theorem sensorAnswer_keeps {x0 : Nat} {x1 : Nat} {x2 : Nat} (h : r.KeepsStores s) :
    r.KeepsStores (sensorAnswer x0 x1 x2 s).1 := by
  unfold sensorAnswer
  repeat' first
    | with_reducible assumption
    | (intro _)
    | with_reducible apply spend_keeps
    | with_reducible apply State.KeepsStores.ite
    | with_reducible apply State.KeepsStores.fold
    | (fail_if_no_progress with_reducible apply State.KeepsStores.same)
    | extract_lets
    | split

theorem consWrite_keeps {x0 : Nat} {x1 : Nat} {x2 : Nat} (h : r.KeepsStores s) :
    r.KeepsStores (consWrite x0 x1 x2 s) := by
  unfold consWrite
  repeat' first
    | with_reducible assumption
    | (intro _)
    | with_reducible apply hostWrite_keeps
    | with_reducible apply violation_keeps
    | with_reducible apply State.set_keeps
    | with_reducible apply State.KeepsStores.ite

theorem execWatchdogReset_keeps  : KeepsStoresRes s (execWatchdogReset s) := by
  unfold execWatchdogReset
  have h := State.KeepsStores.refl s
  repeat' first
    | with_reducible assumption
    | (intro _)
    | with_reducible apply KeepsStoresRes.next
    | with_reducible apply State.incSat_keeps
    | (with_reducible refine event_keeps (by decide) ?_)
    | (with_reducible refine event_keeps (by assumption) ?_)
    | with_reducible apply clearMailboxes_keeps
    | with_reducible apply State.set_keeps
    | with_reducible apply State.setMgt_keeps
    | with_reducible apply State.tick_keeps
    | with_reducible apply State.KeepsStores.ite

theorem execLnkTest_keeps {x0 : Sys2Proof.PortId} {x1 : Sys2Proof.LinkId} {x2 : BitVec 32} {x3 : Nat} : KeepsStoresRes s (execLnkTest x0 x1 x2 x3 s) := by
  unfold execLnkTest
  have h := State.KeepsStores.refl s
  repeat' first
    | with_reducible assumption
    | (intro _)
    | with_reducible apply KeepsStoresRes.next
    | with_reducible apply ownerWrite_keeps
    | with_reducible apply lnkTestWrite_keeps
    | with_reducible apply State.inc_keeps
    | with_reducible apply State.KeepsStores.ite

theorem execDuplicateKeyExpiry_keeps {x0 : BitVec 16} {x1 : Nat} {x2 : BitVec 10} : KeepsStoresRes s (execDuplicateKeyExpiry x0 x1 x2 s) := by
  unfold execDuplicateKeyExpiry
  have h := State.KeepsStores.refl s
  repeat' first
    | with_reducible assumption
    | (intro _)
    | with_reducible apply KeepsStoresRes.next
    | with_reducible apply State.setFab_keeps

theorem execStepend_keeps {x0 : Sys2Proof.QId} : KeepsStoresRes s (execStepend x0 s) := by
  unfold execStepend
  have h := State.KeepsStores.refl s
  repeat' first
    | with_reducible assumption
    | (intro _)
    | with_reducible apply KeepsStoresRes.next
    | with_reducible apply runHead_keeps
    | with_reducible apply waitFor_keeps
    | with_reducible apply State.setQue_keeps

theorem execFirmwareStart_keeps  : KeepsStoresRes s (execFirmwareStart s) := by
  unfold execFirmwareStart
  have h := State.KeepsStores.refl s
  repeat' first
    | with_reducible assumption
    | (intro _)
    | with_reducible apply KeepsStoresRes.next
    | with_reducible apply State.set_keeps
    | with_reducible apply State.wr_keeps
    | with_reducible apply setPhaseBoot_keeps
    | with_reducible apply forAll_keeps
    | with_reducible apply writeSetpoint_keeps
    | with_reducible apply State.KeepsStores.ite
    | with_reducible apply State.KeepsStores.fold
    | (fail_if_no_progress with_reducible apply State.KeepsStores.same)

theorem execHelloTimeout_keeps {x0 : Sys2Proof.LinkId} : KeepsStoresRes s (execHelloTimeout x0 s) := by
  unfold execHelloTimeout
  have h := State.KeepsStores.refl s
  repeat' first
    | with_reducible assumption
    | (intro _)
    | with_reducible apply KeepsStoresRes.next
    | with_reducible apply becomeAbsent_keeps
    | with_reducible apply State.KeepsStores.ite

theorem execDeviceReady_keeps {x0 : BitVec 16} : KeepsStoresRes s (execDeviceReady x0 s) := by
  unfold execDeviceReady
  have h := State.KeepsStores.refl s
  repeat' first
    | with_reducible assumption
    | (intro _)
    | with_reducible apply KeepsStoresRes.next
    | with_reducible apply setPhaseBoot_keeps
    | with_reducible apply State.set_keeps
    | (with_reducible refine eventD_keeps (by decide) ?_)
    | (with_reducible refine eventD_keeps (by assumption) ?_)
    | with_reducible apply forAll_keeps
    | with_reducible apply startTraining_keeps
    | with_reducible apply State.KeepsStores.ite

theorem execSpdmUnsupportedRequest_keeps {x0 : Sys2Proof.Binding} {x1 : List (BitVec 8)} : KeepsStoresRes s (execSpdmUnsupportedRequest x0 x1 s) := by
  unfold execSpdmUnsupportedRequest
  have h := State.KeepsStores.refl s
  repeat' first
    | with_reducible assumption
    | (intro _)
    | with_reducible apply KeepsStoresRes.next
    | with_reducible apply spdmAnswer_keeps

theorem execJunctionThrottle_keeps {x0 : Sys2Proof.Domain} {x1 : BitVec 16} : KeepsStoresRes s (execJunctionThrottle x0 x1 s) := by
  unfold execJunctionThrottle
  have h := State.KeepsStores.refl s
  repeat' first
    | with_reducible assumption
    | (intro _)
    | with_reducible apply KeepsStoresRes.next
    | with_reducible apply State.set_keeps
    | with_reducible apply setRequests_keeps
    | (with_reducible refine event_keeps (by decide) ?_)
    | (with_reducible refine event_keeps (by assumption) ?_)
    | with_reducible apply released_keeps
    | with_reducible apply State.KeepsStores.ite

theorem execWaitMet_keeps {x0 : Sys2Proof.QId} : KeepsStoresRes s (execWaitMet x0 s) := by
  unfold execWaitMet
  have h := State.KeepsStores.refl s
  repeat' first
    | with_reducible assumption
    | (intro _)
    | with_reducible apply KeepsStoresRes.next
    | with_reducible apply runAgain_keeps
    | with_reducible apply State.setQue_keeps
    | with_reducible apply State.KeepsStores.ite

theorem execTilFlagWrite_keeps {x0 : Sys2Proof.PortId} {x1 : Sys2Proof.SetId} {x2 : Fin 512} {x3 : BitVec 16} : KeepsStoresRes s (execTilFlagWrite x0 x1 x2 x3 s) := by
  unfold execTilFlagWrite
  have h := State.KeepsStores.refl s
  repeat' first
    | with_reducible assumption
    | (intro _)
    | with_reducible apply KeepsStoresRes.next
    | with_reducible apply ownerWrite_keeps
    | with_reducible apply flagWrite_keeps

theorem execBaseadd_keeps {x0 : Sys2Proof.QId} : KeepsStoresRes s (execBaseadd x0 s) := by
  unfold execBaseadd
  have h := State.KeepsStores.refl s
  repeat' first
    | with_reducible assumption
    | (intro _)
    | with_reducible apply KeepsStoresRes.next
    | with_reducible apply runHead_keeps
    | with_reducible apply baseAdd_keeps

theorem execProchotNRelease_keeps  : KeepsStoresRes s (execProchotNRelease s) := by
  unfold execProchotNRelease
  have h := State.KeepsStores.refl s
  repeat' first
    | with_reducible assumption
    | (intro _)
    | with_reducible apply KeepsStoresRes.next
    | with_reducible apply released_keeps
    | with_reducible apply forAll_keeps
    | with_reducible apply showCauses_keeps
    | with_reducible apply State.set_keeps
    | with_reducible apply State.KeepsStores.ite

theorem execThaw_keeps {x0 : Sys2Proof.PortId} {x1 : Sys2Proof.QId} : KeepsStoresRes s (execThaw x0 x1 s) := by
  unfold execThaw
  have h := State.KeepsStores.refl s
  repeat' first
    | with_reducible assumption
    | (intro _)
    | with_reducible apply KeepsStoresRes.next
    | with_reducible apply queCtrlWrite_keeps

theorem execNegotiateAlgorithms_keeps {x0 : Sys2Proof.Binding} {x1 : List (BitVec 8)} : KeepsStoresRes s (execNegotiateAlgorithms x0 x1 s) := by
  unfold execNegotiateAlgorithms
  have h := State.KeepsStores.refl s
  repeat' first
    | with_reducible assumption
    | (intro _)
    | with_reducible apply KeepsStoresRes.next
    | with_reducible apply spdmAnswer_keeps

theorem execGo_keeps {x0 : Sys2Proof.PortId} {x1 : Sys2Proof.SetId} {x2 : BitVec 32} : KeepsStoresRes s (execGo x0 x1 x2 s) := by
  unfold execGo
  have h := State.KeepsStores.refl s
  repeat' first
    | with_reducible assumption
    | (intro _)
    | with_reducible apply KeepsStoresRes.next
    | with_reducible apply ownerWrite_keeps
    | with_reducible apply ldCtrl_keeps

theorem execRecoveryUpdateTimeout_keeps  : KeepsStoresRes s (execRecoveryUpdateTimeout s) := by
  unfold execRecoveryUpdateTimeout
  have h := State.KeepsStores.refl s
  repeat' first
    | with_reducible assumption
    | (intro _)
    | with_reducible apply KeepsStoresRes.next
    | with_reducible apply State.set_keeps
    | with_reducible apply State.KeepsStores.ite
    | with_reducible apply State.KeepsStores.fold
    | (fail_if_no_progress with_reducible apply State.KeepsStores.same)
    | extract_lets
    | split

theorem execTokenRefill_keeps  : KeepsStoresRes s (execTokenRefill s) := by
  unfold execTokenRefill
  have h := State.KeepsStores.refl s
  repeat' first
    | with_reducible assumption
    | (intro _)
    | with_reducible apply KeepsStoresRes.next
    | with_reducible apply State.KeepsStores.ite
    | with_reducible apply State.KeepsStores.fold
    | (fail_if_no_progress with_reducible apply State.KeepsStores.same)

theorem execActivatefirmware_keeps {x0 : Sys2Proof.Binding} : KeepsStoresRes s (execActivatefirmware x0 s) := by
  unfold execActivatefirmware
  have h := State.KeepsStores.refl s
  repeat' first
    | with_reducible assumption
    | (intro _)
    | with_reducible apply KeepsStoresRes.next
    | with_reducible apply pldmAnswer_keeps
    | with_reducible apply State.KeepsStores.ite
    | with_reducible apply State.KeepsStores.fold
    | (fail_if_no_progress with_reducible apply State.KeepsStores.same)
    | extract_lets
    | split

theorem execDmaProd_keeps {x0 : Sys2Proof.PortId} {x1 : Sys2Proof.PortId} {x2 : Fin 16} {x3 : BitVec 16} : KeepsStoresRes s (execDmaProd x0 x1 x2 x3 s) := by
  unfold execDmaProd
  have h := State.KeepsStores.refl s
  repeat' first
    | with_reducible assumption
    | (intro _)
    | with_reducible apply KeepsStoresRes.next
    | with_reducible apply ownerWrite_keeps
    | with_reducible apply dmaProdWrite_keeps

theorem execMxeCntClr_keeps {x0 : Sys2Proof.PortId} {x1 : Sys2Proof.TileId} {x2 : Fin 2} : KeepsStoresRes s (execMxeCntClr x0 x1 x2 s) := by
  unfold execMxeCntClr
  have h := State.KeepsStores.refl s
  repeat' first
    | with_reducible assumption
    | (intro _)
    | with_reducible apply KeepsStoresRes.next
    | with_reducible apply ownerWrite_keeps
    | with_reducible apply State.wr_keeps

theorem execParkpoint_keeps {x0 : Sys2Proof.QId} : KeepsStoresRes s (execParkpoint x0 s) := by
  unfold execParkpoint
  have h := State.KeepsStores.refl s
  repeat' first
    | with_reducible assumption
    | (intro _)
    | with_reducible apply KeepsStoresRes.next
    | with_reducible apply runHead_keeps
    | with_reducible apply quickly_keeps

theorem execPerstDeassertion_keeps {x0 : Sys2Proof.PortId} : KeepsStoresRes s (execPerstDeassertion x0 s) := by
  unfold execPerstDeassertion
  have h := State.KeepsStores.refl s
  repeat' first
    | with_reducible assumption
    | (intro _)
    | with_reducible apply KeepsStoresRes.next
    | with_reducible apply State.setPort_keeps

theorem execRespondIfReady_keeps {x0 : Sys2Proof.Binding} {x1 : List (BitVec 8)} : KeepsStoresRes s (execRespondIfReady x0 x1 s) := by
  unfold execRespondIfReady
  have h := State.KeepsStores.refl s
  repeat' first
    | with_reducible assumption
    | (intro _)
    | with_reducible apply KeepsStoresRes.next
    | with_reducible apply State.emit_keeps
    | with_reducible apply State.KeepsStores.ite
    | with_reducible apply State.KeepsStores.fold
    | (fail_if_no_progress with_reducible apply State.KeepsStores.same)
    | extract_lets
    | split

theorem execGetVersion_keeps {x0 : Sys2Proof.Binding} {x1 : List (BitVec 8)} : KeepsStoresRes s (execGetVersion x0 x1 s) := by
  unfold execGetVersion
  have h := State.KeepsStores.refl s
  repeat' first
    | with_reducible assumption
    | (intro _)
    | with_reducible apply KeepsStoresRes.next
    | with_reducible apply spdmAnswer_keeps

theorem execDbl_keeps {x0 : Sys2Proof.PortId} {x1 : Sys2Proof.SetId} {x2 : Fin 512} {x3 : BitVec 32} : KeepsStoresRes s (execDbl x0 x1 x2 x3 s) := by
  unfold execDbl
  have h := State.KeepsStores.refl s
  repeat' first
    | with_reducible assumption
    | (intro _)
    | with_reducible apply KeepsStoresRes.next
    | with_reducible apply hostWrite_keeps
    | with_reducible apply addFlag_keeps
    | with_reducible apply wakeSet_keeps
    | with_reducible apply accessSet_keeps

theorem execLaunch_keeps {x0 : Sys2Proof.QId} : KeepsStoresRes s (execLaunch x0 s) := by
  unfold execLaunch
  have h := State.KeepsStores.refl s
  repeat' first
    | with_reducible assumption
    | (intro _)
    | with_reducible apply KeepsStoresRes.next
    | with_reducible apply runHead_keeps
    | with_reducible apply launchArrives_keeps

theorem execSupplyDip_keeps {x0 : Sys2Proof.Rail} : KeepsStoresRes s (execSupplyDip x0 s) := by
  unfold execSupplyDip
  have h := State.KeepsStores.refl s
  repeat' first
    | with_reducible assumption
    | (intro _)
    | with_reducible apply KeepsStoresRes.next
    | (with_reducible refine event_keeps (by decide) ?_)
    | (with_reducible refine event_keeps (by assumption) ?_)
    | with_reducible apply State.KeepsStores.ite

theorem execThawnext_keeps {x0 : Sys2Proof.PortId} {x1 : Sys2Proof.QId} : KeepsStoresRes s (execThawnext x0 x1 s) := by
  unfold execThawnext
  have h := State.KeepsStores.refl s
  repeat' first
    | with_reducible assumption
    | (intro _)
    | with_reducible apply KeepsStoresRes.next
    | with_reducible apply queCtrlWrite_keeps

theorem execQuePostrecRead_keeps {x0 : Sys2Proof.PortId} {x1 : Sys2Proof.QId} : KeepsStoresRes s (execQuePostrecRead x0 x1 s) := by
  unfold execQuePostrecRead
  have h := State.KeepsStores.refl s
  repeat' first
    | with_reducible assumption
    | (intro _)
    | with_reducible apply KeepsStoresRes.next
    | with_reducible apply readClear_keeps
    | with_reducible apply wakeByAccess_keeps
    | with_reducible apply readReply_keeps
    | with_reducible apply State.KeepsStores.ite

theorem execGetMeasurements_keeps {x0 : Sys2Proof.Binding} {x1 : List (BitVec 8)} : KeepsStoresRes s (execGetMeasurements x0 x1 s) := by
  unfold execGetMeasurements
  have h := State.KeepsStores.refl s
  repeat' first
    | with_reducible assumption
    | (intro _)
    | with_reducible apply KeepsStoresRes.next
    | with_reducible apply State.tick_keeps
    | with_reducible apply spdmAnswer_keeps

theorem execTilGateWake_keeps {x0 : Sys2Proof.PortId} {x1 : Sys2Proof.TileId} : KeepsStoresRes s (execTilGateWake x0 x1 s) := by
  unfold execTilGateWake
  have h := State.KeepsStores.refl s
  repeat' first
    | with_reducible assumption
    | (intro _)
    | with_reducible apply KeepsStoresRes.next
    | with_reducible apply ownerWrite_keeps
    | with_reducible apply wakeTile_keeps

theorem execTilFlagadd_keeps {x0 : Sys2Proof.PortId} {x1 : Sys2Proof.SetId} {x2 : Fin 512} {x3 : BitVec 8} : KeepsStoresRes s (execTilFlagadd x0 x1 x2 x3 s) := by
  unfold execTilFlagadd
  have h := State.KeepsStores.refl s
  repeat' first
    | with_reducible assumption
    | (intro _)
    | with_reducible apply KeepsStoresRes.next
    | with_reducible apply ownerWrite_keeps
    | with_reducible apply addFlag_keeps

theorem execResetNRise_keeps {x0 : BitVec 3} : KeepsStoresRes s (execResetNRise x0 s) := by
  unfold execResetNRise
  have h := State.KeepsStores.refl s
  repeat' first
    | with_reducible assumption
    | (intro _)
    | with_reducible apply KeepsStoresRes.next
    | with_reducible apply tryStart_keeps
    | with_reducible apply State.KeepsStores.ite
    | with_reducible apply State.KeepsStores.fold
    | (fail_if_no_progress with_reducible apply State.KeepsStores.same)

theorem execExtestPulse_keeps  : KeepsStoresRes s (execExtestPulse s) := by
  unfold execExtestPulse
  have h := State.KeepsStores.refl s
  repeat' first
    | with_reducible assumption
    | (intro _)
    | with_reducible apply KeepsStoresRes.next
    | with_reducible apply tapDrive_keeps

theorem execReplyRetry_keeps  : KeepsStoresRes s (execReplyRetry s) := by
  unfold execReplyRetry
  have h := State.KeepsStores.refl s
  repeat' first
    | with_reducible assumption
    | (intro _)
    | with_reducible apply KeepsStoresRes.next
    | with_reducible apply postReply_keeps
    | with_reducible apply State.KeepsStores.ite
    | with_reducible apply State.KeepsStores.fold
    | (fail_if_no_progress with_reducible apply State.KeepsStores.same)
    | extract_lets
    | split

theorem execTilOvfClr_keeps {x0 : Sys2Proof.PortId} {x1 : Sys2Proof.TileId} {x2 : Fin 64} : KeepsStoresRes s (execTilOvfClr x0 x1 x2 s) := by
  unfold execTilOvfClr
  have h := State.KeepsStores.refl s
  repeat' first
    | with_reducible assumption
    | (intro _)
    | with_reducible apply KeepsStoresRes.next
    | with_reducible apply ownerWrite_keeps
    | with_reducible apply clearOvf_keeps

theorem execPwrCntClr_keeps {x0 : Sys2Proof.PortId} : KeepsStoresRes s (execPwrCntClr x0 s) := by
  unfold execPwrCntClr
  have h := State.KeepsStores.refl s
  repeat' first
    | with_reducible assumption
    | (intro _)
    | with_reducible apply KeepsStoresRes.next
    | with_reducible apply ownerWrite_keeps
    | with_reducible apply pwrCtrl_keeps

theorem execEvrFaultClear_keeps {x0 : Sys2Proof.PortId} : KeepsStoresRes s (execEvrFaultClear x0 s) := by
  unfold execEvrFaultClear
  have h := State.KeepsStores.refl s
  repeat' first
    | with_reducible assumption
    | (intro _)
    | with_reducible apply KeepsStoresRes.next
    | with_reducible apply ownerWrite_keeps
    | with_reducible apply writeReg_keeps

theorem violSeen_keeps {x0 : Nat} {x1 : Nat} (h : r.KeepsStores s) :
    r.KeepsStores (violSeen x0 x1 s) := by
  unfold violSeen
  repeat' first
    | with_reducible assumption
    | with_reducible apply State.setPort_keeps
    | with_reducible apply State.KeepsStores.ite
    | (fail_if_no_progress with_reducible apply State.KeepsStores.same)
    | split

theorem execHstViolrecRead_keeps {x0 : Sys2Proof.PortId} {x1 : Sys2Proof.PortId} : KeepsStoresRes s (execHstViolrecRead x0 x1 s) := by
  unfold execHstViolrecRead
  have h := State.KeepsStores.refl s
  repeat' first
    | with_reducible assumption
    | (intro _)
    | with_reducible apply KeepsStoresRes.next
    | with_reducible apply readReply_keeps
    | with_reducible apply State.setPort_keeps
    | with_reducible apply State.KeepsStores.ite
    | with_reducible apply violSeen_keeps

theorem execGateSet_keeps  : KeepsStoresRes s (execGateSet s) := by
  unfold execGateSet
  have h := State.KeepsStores.refl s
  repeat' first
    | with_reducible assumption
    | (intro _)
    | with_reducible apply KeepsStoresRes.next
    | with_reducible apply routine_keeps
    | with_reducible apply routineEnd_keeps
    | with_reducible apply forAll_keeps
    | with_reducible apply State.set_keeps
    | with_reducible apply State.KeepsStores.ite

theorem execGlbJobseedCommit_keeps {x0 : Sys2Proof.PortId} {x1 : BitVec 32} : KeepsStoresRes s (execGlbJobseedCommit x0 x1 s) := by
  unfold execGlbJobseedCommit
  have h := State.KeepsStores.refl s
  repeat' first
    | with_reducible assumption
    | (intro _)
    | with_reducible apply KeepsStoresRes.next
    | with_reducible apply ownerWrite_keeps
    | with_reducible apply commitSeed_keeps

theorem execNop_keeps {x0 : Sys2Proof.QId} : KeepsStoresRes s (execNop x0 s) := by
  unfold execNop
  have h := State.KeepsStores.refl s
  repeat' first
    | with_reducible assumption
    | (intro _)
    | with_reducible apply KeepsStoresRes.next
    | with_reducible apply runHead_keeps
    | with_reducible apply quickly_keeps

theorem execMemoryOvertemp_keeps {x0 : Fin 20} {x1 : BitVec 16} : KeepsStoresRes s (execMemoryOvertemp x0 x1 s) := by
  unfold execMemoryOvertemp
  have h := State.KeepsStores.refl s
  repeat' first
    | with_reducible assumption
    | (intro _)
    | with_reducible apply KeepsStoresRes.next
    | with_reducible apply State.set_keeps
    | (with_reducible refine event_keeps (by decide) ?_)
    | (with_reducible refine event_keeps (by assumption) ?_)
    | with_reducible apply State.KeepsStores.ite
    | with_reducible apply State.KeepsStores.fold
    | (fail_if_no_progress with_reducible apply State.KeepsStores.same)

theorem execWhlCntClr_keeps {x0 : Sys2Proof.PortId} {x1 : Fin 4} : KeepsStoresRes s (execWhlCntClr x0 x1 s) := by
  unfold execWhlCntClr
  have h := State.KeepsStores.refl s
  repeat' first
    | with_reducible assumption
    | (intro _)
    | with_reducible apply KeepsStoresRes.next
    | with_reducible apply ownerWrite_keeps
    | with_reducible apply wheelCntClr_keeps

theorem execHstFwatchArm_keeps {x0 : Sys2Proof.PortId} {x1 : Fin 1984} {x2 : BitVec 64} : KeepsStoresRes s (execHstFwatchArm x0 x1 x2 s) := by
  unfold execHstFwatchArm
  have h := State.KeepsStores.refl s
  repeat' first
    | with_reducible assumption
    | (intro _)
    | with_reducible apply KeepsStoresRes.next
    | with_reducible apply hostWrite_keeps
    | with_reducible apply fwatchWrite_keeps

theorem execTileWake_keeps {x0 : Sys2Proof.TileId} : KeepsStoresRes s (execTileWake x0 s) := by
  unfold execTileWake
  have h := State.KeepsStores.refl s
  repeat' first
    | with_reducible assumption
    | (intro _)
    | with_reducible apply KeepsStoresRes.next
    | with_reducible apply wakeTile_keeps

theorem execPpsLoss_keeps  : KeepsStoresRes s (execPpsLoss s) := by
  unfold execPpsLoss
  have h := State.KeepsStores.refl s
  repeat' first
    | with_reducible assumption
    | (intro _)
    | with_reducible apply KeepsStoresRes.next
    | with_reducible apply adoptRole_keeps
    | with_reducible apply ppsLost_keeps
    | with_reducible apply State.KeepsStores.ite
    | with_reducible apply State.KeepsStores.fold
    | (fail_if_no_progress with_reducible apply State.KeepsStores.same)

theorem execQreset_keeps {x0 : Sys2Proof.PortId} {x1 : Sys2Proof.QId} : KeepsStoresRes s (execQreset x0 x1 s) := by
  unfold execQreset
  have h := State.KeepsStores.refl s
  repeat' first
    | with_reducible assumption
    | (intro _)
    | with_reducible apply KeepsStoresRes.next
    | with_reducible apply queCtrlWrite_keeps

theorem execCapt_keeps {x0 : Sys2Proof.PortId} : KeepsStoresRes s (execCapt x0 s) := by
  unfold execCapt
  have h := State.KeepsStores.refl s
  repeat' first
    | with_reducible assumption
    | (intro _)
    | with_reducible apply KeepsStoresRes.next
    | with_reducible apply ownerWrite_keeps
    | with_reducible apply ftmCtrl_keeps

theorem execGetpldmcommands_keeps {x0 : Sys2Proof.Binding} {x1 : BitVec 8} : KeepsStoresRes s (execGetpldmcommands x0 x1 s) := by
  unfold execGetpldmcommands
  have h := State.KeepsStores.refl s
  repeat' first
    | with_reducible assumption
    | (intro _)
    | with_reducible apply KeepsStoresRes.next
    | with_reducible apply pldmAnswer_keeps
    | with_reducible apply State.KeepsStores.ite
    | with_reducible apply State.KeepsStores.fold
    | (fail_if_no_progress with_reducible apply State.KeepsStores.same)
    | extract_lets
    | split

theorem execGetCapabilities_keeps {x0 : Sys2Proof.Binding} {x1 : List (BitVec 8)} : KeepsStoresRes s (execGetCapabilities x0 x1 s) := by
  unfold execGetCapabilities
  have h := State.KeepsStores.refl s
  repeat' first
    | with_reducible assumption
    | (intro _)
    | with_reducible apply KeepsStoresRes.next
    | with_reducible apply spdmAnswer_keeps

theorem execLldpSend_keeps {x0 : Sys2Proof.LinkId} : KeepsStoresRes s (execLldpSend x0 s) := by
  unfold execLldpSend
  have h := State.KeepsStores.refl s
  repeat' first
    | with_reducible assumption
    | (intro _)
    | with_reducible apply KeepsStoresRes.next
    | with_reducible apply State.emit_keeps
    | with_reducible apply State.setLink_keeps
    | with_reducible apply State.KeepsStores.ite

theorem execGetpldmtypes_keeps {x0 : Sys2Proof.Binding} : KeepsStoresRes s (execGetpldmtypes x0 s) := by
  unfold execGetpldmtypes
  have h := State.KeepsStores.refl s
  repeat' first
    | with_reducible assumption
    | (intro _)
    | with_reducible apply KeepsStoresRes.next
    | with_reducible apply pldmData_keeps

theorem execParkall_keeps {x0 : Sys2Proof.PortId} {x1 : Sys2Proof.SetId} : KeepsStoresRes s (execParkall x0 x1 s) := by
  unfold execParkall
  have h := State.KeepsStores.refl s
  repeat' first
    | with_reducible assumption
    | (intro _)
    | with_reducible apply KeepsStoresRes.next
    | with_reducible apply ownerWrite_keeps
    | with_reducible apply ldCtrl_keeps

theorem execFtmCntClr_keeps {x0 : Sys2Proof.PortId} : KeepsStoresRes s (execFtmCntClr x0 s) := by
  unfold execFtmCntClr
  have h := State.KeepsStores.refl s
  repeat' first
    | with_reducible assumption
    | (intro _)
    | with_reducible apply KeepsStoresRes.next
    | with_reducible apply ownerWrite_keeps
    | with_reducible apply ftmCtrl_keeps

theorem execParkreq_keeps {x0 : Sys2Proof.PortId} {x1 : Sys2Proof.QId} {x2 : Bool} : KeepsStoresRes s (execParkreq x0 x1 x2 s) := by
  unfold execParkreq
  have h := State.KeepsStores.refl s
  repeat' first
    | with_reducible assumption
    | (intro _)
    | with_reducible apply KeepsStoresRes.next
    | with_reducible apply ownerWrite_keeps
    | with_reducible apply queCtrl_keeps

theorem execHbcCntClr_keeps {x0 : Sys2Proof.PortId} {x1 : Bool} : KeepsStoresRes s (execHbcCntClr x0 x1 s) := by
  unfold execHbcCntClr
  have h := State.KeepsStores.refl s
  repeat' first
    | with_reducible assumption
    | (intro _)
    | with_reducible apply KeepsStoresRes.next
    | with_reducible apply ownerWrite_keeps
    | with_reducible apply clearErrCounts_keeps

theorem execSettid_keeps {x0 : Sys2Proof.Binding} {x1 : BitVec 8} : KeepsStoresRes s (execSettid x0 x1 s) := by
  unfold execSettid
  have h := State.KeepsStores.refl s
  repeat' first
    | with_reducible assumption
    | (intro _)
    | with_reducible apply KeepsStoresRes.next
    | with_reducible apply pldmAnswer_keeps
    | with_reducible apply State.KeepsStores.ite
    | with_reducible apply State.KeepsStores.fold
    | (fail_if_no_progress with_reducible apply State.KeepsStores.same)

theorem execDmaCfgEn_keeps {x0 : Sys2Proof.PortId} {x1 : Sys2Proof.PortId} {x2 : Fin 16} {x3 : BitVec 32} : KeepsStoresRes s (execDmaCfgEn x0 x1 x2 x3 s) := by
  unfold execDmaCfgEn
  have h := State.KeepsStores.refl s
  repeat' first
    | with_reducible assumption
    | (intro _)
    | with_reducible apply KeepsStoresRes.next
    | with_reducible apply ownerWrite_keeps
    | with_reducible apply dmaCfgWrite_keeps

theorem execMirRegionEnable_keeps {x0 : Sys2Proof.PortId} {x1 : Fin 16} : KeepsStoresRes s (execMirRegionEnable x0 x1 s) := by
  unfold execMirRegionEnable
  have h := State.KeepsStores.refl s
  repeat' first
    | with_reducible assumption
    | (intro _)
    | with_reducible apply KeepsStoresRes.next
    | with_reducible apply ownerWrite_keeps
    | with_reducible apply mirBaseWrite_keeps

theorem execTimePpsInEdge_keeps {x0 : Nat} : KeepsStoresRes s (execTimePpsInEdge x0 s) := by
  unfold execTimePpsInEdge
  have h := State.KeepsStores.refl s
  repeat' first
    | with_reducible assumption
    | (intro _)
    | with_reducible apply KeepsStoresRes.next
    | with_reducible apply adoptRole_keeps
    | with_reducible apply carry_keeps
    | with_reducible apply State.wr_keeps
    | with_reducible apply State.inc_keeps
    | with_reducible apply ppsLost_keeps
    | with_reducible apply stepTo_keeps
    | with_reducible apply discipline_keeps
    | with_reducible apply State.set_keeps
    | with_reducible apply State.KeepsStores.ite
    | with_reducible apply State.KeepsStores.fold
    | (fail_if_no_progress with_reducible apply State.KeepsStores.same)

theorem execFailedHoldExpiry_keeps {x0 : Sys2Proof.LinkId} : KeepsStoresRes s (execFailedHoldExpiry x0 s) := by
  unfold execFailedHoldExpiry
  have h := State.KeepsStores.refl s
  repeat' first
    | with_reducible assumption
    | (intro _)
    | with_reducible apply KeepsStoresRes.next
    | with_reducible apply startTraining_keeps
    | with_reducible apply State.KeepsStores.ite

theorem execTelemetrySample_keeps {x0 : Fin 101} {x1 : List (BitVec 32)} : KeepsStoresRes s (execTelemetrySample x0 x1 s) := by
  unfold execTelemetrySample
  have h := State.KeepsStores.refl s
  repeat' first
    | with_reducible assumption
    | (intro _)
    | with_reducible apply KeepsStoresRes.next
    | with_reducible apply State.set_keeps
    | with_reducible apply takeSample_keeps
    | with_reducible apply State.inc_keeps
    | (with_reducible refine event_keeps (by decide) ?_)
    | (with_reducible refine event_keeps (by assumption) ?_)
    | with_reducible apply State.KeepsStores.ite
    | with_reducible apply State.KeepsStores.fold
    | (fail_if_no_progress with_reducible apply State.KeepsStores.same)

theorem execAvsCurrentRead_keeps {x0 : Fin 2} {x1 : Option (List (BitVec 16))} : KeepsStoresRes s (execAvsCurrentRead x0 x1 s) := by
  unfold execAvsCurrentRead
  have h := State.KeepsStores.refl s
  repeat' first
    | with_reducible assumption
    | (intro _)
    | with_reducible apply KeepsStoresRes.next
    | with_reducible apply forAll_keeps
    | with_reducible apply State.set_keeps
    | with_reducible apply setRequests_keeps
    | with_reducible apply State.incSat_keeps
    | (with_reducible refine event_keeps (by decide) ?_)
    | (with_reducible refine event_keeps (by assumption) ?_)
    | with_reducible apply State.KeepsStores.ite
    | with_reducible apply State.KeepsStores.fold
    | (fail_if_no_progress with_reducible apply State.KeepsStores.same)
    | extract_lets
    | split

theorem execHstPostrecRead_keeps {x0 : Sys2Proof.PortId} {x1 : Sys2Proof.PortId} : KeepsStoresRes s (execHstPostrecRead x0 x1 s) := by
  unfold execHstPostrecRead
  have h := State.KeepsStores.refl s
  repeat' first
    | with_reducible assumption
    | (intro _)
    | with_reducible apply KeepsStoresRes.next
    | with_reducible apply readClear_keeps

theorem execGetCertificate_keeps {x0 : Sys2Proof.Binding} {x1 : List (BitVec 8)} : KeepsStoresRes s (execGetCertificate x0 x1 s) := by
  unfold execGetCertificate
  have h := State.KeepsStores.refl s
  repeat' first
    | with_reducible assumption
    | (intro _)
    | with_reducible apply KeepsStoresRes.next
    | with_reducible apply spdmAnswer_keeps

theorem execEvrCntClr_keeps {x0 : Sys2Proof.PortId} : KeepsStoresRes s (execEvrCntClr x0 s) := by
  unfold execEvrCntClr
  have h := State.KeepsStores.refl s
  repeat' first
    | with_reducible assumption
    | (intro _)
    | with_reducible apply KeepsStoresRes.next
    | with_reducible apply ownerWrite_keeps
    | with_reducible apply evrCtrl_keeps

theorem execTilePowerGateComplete_keeps {x0 : Sys2Proof.TileId} : KeepsStoresRes s (execTilePowerGateComplete x0 s) := by
  unfold execTilePowerGateComplete
  have h := State.KeepsStores.refl s
  repeat' first
    | with_reducible assumption
    | (intro _)
    | with_reducible apply KeepsStoresRes.next
    | with_reducible apply setPhase_keeps
    | with_reducible apply loseArrays_keeps
    | with_reducible apply State.setGate_keeps
    | with_reducible apply State.KeepsStores.ite

theorem execGetDigests_keeps {x0 : Sys2Proof.Binding} {x1 : List (BitVec 8)} : KeepsStoresRes s (execGetDigests x0 x1 s) := by
  unfold execGetDigests
  have h := State.KeepsStores.refl s
  repeat' first
    | with_reducible assumption
    | (intro _)
    | with_reducible apply KeepsStoresRes.next
    | with_reducible apply spdmAnswer_keeps

theorem execMirctlEn_keeps {x0 : Sys2Proof.PortId} {x1 : Bool} : KeepsStoresRes s (execMirctlEn x0 x1 s) := by
  unfold execMirctlEn
  have h := State.KeepsStores.refl s
  repeat' first
    | with_reducible assumption
    | (intro _)
    | with_reducible apply KeepsStoresRes.next
    | with_reducible apply ownerWrite_keeps
    | with_reducible apply mirCtlWrite_keeps

theorem execParentUnusable_keeps  : KeepsStoresRes s (execParentUnusable s) := by
  unfold execParentUnusable
  have h := State.KeepsStores.refl s
  repeat' first
    | with_reducible assumption
    | (intro _)
    | with_reducible apply KeepsStoresRes.next
    | with_reducible apply adoptRole_keeps
    | with_reducible apply parentLost_keeps
    | with_reducible apply State.KeepsStores.ite

theorem execLpcMirunmirRead_keeps {x0 : Sys2Proof.PortId} : KeepsStoresRes s (execLpcMirunmirRead x0 s) := by
  unfold execLpcMirunmirRead
  have h := State.KeepsStores.refl s
  repeat' first
    | with_reducible assumption
    | (intro _)
    | with_reducible apply KeepsStoresRes.next
    | with_reducible apply readReply_keeps
    | with_reducible apply State.wr_keeps
    | with_reducible apply State.KeepsStores.ite

theorem execProchotNAssert_keeps  : KeepsStoresRes s (execProchotNAssert s) := by
  unfold execProchotNAssert
  have h := State.KeepsStores.refl s
  repeat' first
    | with_reducible assumption
    | (intro _)
    | with_reducible apply KeepsStoresRes.next
    | (with_reducible refine event_keeps (by decide) ?_)
    | (with_reducible refine event_keeps (by assumption) ?_)
    | with_reducible apply forAll_keeps
    | with_reducible apply showCauses_keeps
    | with_reducible apply State.set_keeps
    | with_reducible apply State.KeepsStores.ite

theorem execPldmFruData_keeps {x0 : Sys2Proof.Binding} {x1 : Bool} {x2 : List (BitVec 8)} {x3 : Bool} : KeepsStoresRes s (execPldmFruData x0 x1 x2 x3 s) := by
  unfold execPldmFruData
  have h := State.KeepsStores.refl s
  repeat' first
    | with_reducible assumption
    | (intro _)
    | with_reducible apply KeepsStoresRes.next
    | with_reducible apply pldmServed_keeps
    | with_reducible apply tagWrite_keeps
    | with_reducible apply State.KeepsStores.ite
    | with_reducible apply State.KeepsStores.fold
    | (fail_if_no_progress with_reducible apply State.KeepsStores.same)
    | extract_lets
    | split

theorem execBallastRampDown_keeps {x0 : Sys2Proof.TileId} {x1 : Fin 2} : KeepsStoresRes s (execBallastRampDown x0 x1 s) := by
  unfold execBallastRampDown
  have h := State.KeepsStores.refl s
  repeat' first
    | with_reducible assumption
    | (intro _)
    | with_reducible apply KeepsStoresRes.next
    | with_reducible apply State.setMxe_keeps
    | with_reducible apply State.set_keeps
    | with_reducible apply State.KeepsStores.ite
    | with_reducible apply rampDown_keeps
    | split

theorem execHelloSend_keeps {x0 : Sys2Proof.LinkId} : KeepsStoresRes s (execHelloSend x0 s) := by
  unfold execHelloSend
  have h := State.KeepsStores.refl s
  repeat' first
    | with_reducible assumption
    | (intro _)
    | with_reducible apply KeepsStoresRes.next
    | with_reducible apply sendLocal_keeps
    | with_reducible apply State.setLink_keeps
    | with_reducible apply State.KeepsStores.ite

theorem execFlmCntClr_keeps {x0 : Sys2Proof.PortId} {x1 : Sys2Proof.TileId} {x2 : Fin 2} : KeepsStoresRes s (execFlmCntClr x0 x1 x2 s) := by
  unfold execFlmCntClr
  have h := State.KeepsStores.refl s
  repeat' first
    | with_reducible assumption
    | (intro _)
    | with_reducible apply KeepsStoresRes.next
    | with_reducible apply ownerWrite_keeps
    | with_reducible apply State.wr_keeps

theorem execBypass_keeps  : KeepsStoresRes s (execBypass s) := by
  unfold execBypass
  have h := State.KeepsStores.refl s
  repeat' first
    | with_reducible assumption
    | (intro _)
    | with_reducible apply KeepsStoresRes.next
    | with_reducible apply tapBypass_keeps

theorem execGetpldmversion_keeps {x0 : Sys2Proof.Binding} {x1 : BitVec 8} : KeepsStoresRes s (execGetpldmversion x0 x1 s) := by
  unfold execGetpldmversion
  have h := State.KeepsStores.refl s
  repeat' first
    | with_reducible assumption
    | (intro _)
    | with_reducible apply KeepsStoresRes.next
    | with_reducible apply pldmAnswer_keeps
    | with_reducible apply spend_keeps
    | with_reducible apply State.KeepsStores.ite
    | with_reducible apply State.KeepsStores.fold
    | (fail_if_no_progress with_reducible apply State.KeepsStores.same)
    | extract_lets
    | split

theorem execSluiceOpen_keeps {x0 : Sys2Proof.QId} : KeepsStoresRes s (execSluiceOpen x0 s) := by
  unfold execSluiceOpen
  have h := State.KeepsStores.refl s
  repeat' first
    | with_reducible assumption
    | (intro _)
    | with_reducible apply KeepsStoresRes.next
    | with_reducible apply State.advanceTo_keeps
    | with_reducible apply releasePreWake_keeps
    | with_reducible apply runAgain_keeps
    | with_reducible apply State.setQue_keeps
    | with_reducible apply issue_keeps
    | with_reducible apply doSignal_keeps
    | with_reducible apply bumpUid_keeps
    | with_reducible apply State.KeepsStores.ite
    | with_reducible apply State.KeepsStores.fold
    | (fail_if_no_progress with_reducible apply State.KeepsStores.same)
    | extract_lets
    | split

theorem execResume_keeps {x0 : Sys2Proof.PortId} {x1 : Sys2Proof.QId} : KeepsStoresRes s (execResume x0 x1 s) := by
  unfold execResume
  have h := State.KeepsStores.refl s
  repeat' first
    | with_reducible assumption
    | (intro _)
    | with_reducible apply KeepsStoresRes.next
    | with_reducible apply queCtrlWrite_keeps

theorem execFmirsync_keeps {x0 : Sys2Proof.TileId} {x1 : Fin 2} : KeepsStoresRes s (execFmirsync x0 x1 s) := by
  unfold execFmirsync
  have h := State.KeepsStores.refl s
  repeat' first
    | with_reducible assumption
    | (intro _)
    | with_reducible apply KeepsStoresRes.next
    | with_reducible apply showEngine_keeps
    | with_reducible apply runHead_keeps
    | with_reducible apply flumeMirsync_keeps

theorem execSupplyValid_keeps {x0 : Sys2Proof.Rail} : KeepsStoresRes s (execSupplyValid x0 s) := by
  unfold execSupplyValid
  have h := State.KeepsStores.refl s
  repeat' first
    | with_reducible assumption
    | (intro _)
    | with_reducible apply KeepsStoresRes.next
    | with_reducible apply tryStart_keeps
    | with_reducible apply State.set_keeps

theorem execCurrentCap_keeps {x0 : Sys2Proof.Domain} {x1 : BitVec 16} : KeepsStoresRes s (execCurrentCap x0 x1 s) := by
  unfold execCurrentCap
  have h := State.KeepsStores.refl s
  repeat' first
    | with_reducible assumption
    | (intro _)
    | with_reducible apply KeepsStoresRes.next
    | with_reducible apply capChange_keeps
    | with_reducible apply State.setDom_keeps
    | with_reducible apply State.KeepsStores.ite

theorem execIdcode_keeps  : KeepsStoresRes s (execIdcode s) := by
  unfold execIdcode
  have h := State.KeepsStores.refl s
  repeat' first
    | with_reducible assumption
    | (intro _)
    | with_reducible apply KeepsStoresRes.next
    | with_reducible apply tapPut_keeps

theorem execPfcFrameReceive_keeps {x0 : Sys2Proof.LinkId} {x1 : Fin 8} {x2 : BitVec 16} : KeepsStoresRes s (execPfcFrameReceive x0 x1 x2 s) := by
  unfold execPfcFrameReceive
  have h := State.KeepsStores.refl s
  repeat' first
    | with_reducible assumption
    | (intro _)
    | with_reducible apply KeepsStoresRes.next
    | with_reducible apply State.inc_keeps
    | with_reducible apply State.setLink_keeps
    | with_reducible apply State.KeepsStores.ite

theorem execDmaDescriptorComplete_keeps {x0 : Sys2Proof.PortId} {x1 : Fin 16} : KeepsStoresRes s (execDmaDescriptorComplete x0 x1 s) := by
  unfold execDmaDescriptorComplete
  have h := State.KeepsStores.refl s
  repeat' first
    | with_reducible assumption
    | (intro _)
    | with_reducible apply KeepsStoresRes.next
    | with_reducible apply dmaComplete_keeps
    | with_reducible apply State.KeepsStores.ite
    | with_reducible apply State.KeepsStores.fold
    | (fail_if_no_progress with_reducible apply State.KeepsStores.same)
    | extract_lets
    | split

theorem execHostPortLinkUp_keeps {x0 : Sys2Proof.PortId} : KeepsStoresRes s (execHostPortLinkUp x0 s) := by
  unfold execHostPortLinkUp
  have h := State.KeepsStores.refl s
  repeat' first
    | with_reducible assumption
    | (intro _)
    | with_reducible apply KeepsStoresRes.next
    | with_reducible apply dmaKickAll_keeps
    | with_reducible apply State.set_keeps
    | with_reducible apply State.KeepsStores.ite

theorem execSvnFuseDone_keeps  : KeepsStoresRes s (execSvnFuseDone s) := by
  unfold execSvnFuseDone
  have h := State.KeepsStores.refl s
  repeat' first
    | with_reducible assumption
    | (intro _)
    | with_reducible apply KeepsStoresRes.next
    | (with_reducible refine event_keeps (by decide) ?_)
    | (with_reducible refine event_keeps (by assumption) ?_)
    | with_reducible apply State.set_keeps
    | with_reducible apply State.KeepsStores.ite
    | with_reducible apply State.KeepsStores.fold
    | (fail_if_no_progress with_reducible apply State.KeepsStores.same)
    | extract_lets
    | split

theorem execDoubledRefresh_keeps {x0 : Fin 16} {x1 : BitVec 16} : KeepsStoresRes s (execDoubledRefresh x0 x1 s) := by
  unfold execDoubledRefresh
  have h := State.KeepsStores.refl s
  repeat' first
    | with_reducible assumption
    | (intro _)
    | with_reducible apply KeepsStoresRes.next
    | with_reducible apply State.set_keeps
    | with_reducible apply State.KeepsStores.ite
    | with_reducible apply State.KeepsStores.fold
    | (fail_if_no_progress with_reducible apply State.KeepsStores.same)

theorem execRequestupdate_keeps {x0 : Sys2Proof.Binding} {x1 : Nat} : KeepsStoresRes s (execRequestupdate x0 x1 s) := by
  unfold execRequestupdate
  have h := State.KeepsStores.refl s
  repeat' first
    | with_reducible assumption
    | (intro _)
    | with_reducible apply KeepsStoresRes.next
    | with_reducible apply pldmAnswer_keeps
    | with_reducible apply showProgress_keeps
    | with_reducible apply State.set_keeps
    | with_reducible apply State.KeepsStores.ite
    | with_reducible apply State.KeepsStores.fold
    | (fail_if_no_progress with_reducible apply State.KeepsStores.same)
    | extract_lets
    | split

theorem execTilePowerGateEntry_keeps {x0 : Sys2Proof.TileId} : KeepsStoresRes s (execTilePowerGateEntry x0 s) := by
  unfold execTilePowerGateEntry
  have h := State.KeepsStores.refl s
  repeat' first
    | with_reducible assumption
    | (intro _)
    | with_reducible apply KeepsStoresRes.next
    | with_reducible apply setPhase_keeps
    | with_reducible apply State.KeepsStores.ite

theorem execChallenge_keeps {x0 : Sys2Proof.Binding} {x1 : List (BitVec 8)} : KeepsStoresRes s (execChallenge x0 x1 s) := by
  unfold execChallenge
  have h := State.KeepsStores.refl s
  repeat' first
    | with_reducible assumption
    | (intro _)
    | with_reducible apply KeepsStoresRes.next
    | with_reducible apply State.tick_keeps
    | with_reducible apply spdmAnswer_keeps

theorem wheelDiscard_keeps {x0 : Nat} (h : r.KeepsStores s) :
    r.KeepsStores (wheelDiscard x0 s) := by
  unfold wheelDiscard
  repeat' first
    | with_reducible assumption
    | (with_reducible refine eventD_keeps (by decide) ?_)
    | (with_reducible refine eventD_keeps (by assumption) ?_)

theorem execWhlseqSet_keeps  : KeepsStoresRes s (execWhlseqSet s) := by
  unfold execWhlseqSet
  have h := State.KeepsStores.refl s
  repeat' first
    | with_reducible assumption
    | (intro _)
    | with_reducible apply KeepsStoresRes.next
    | with_reducible apply routine_keeps
    | with_reducible apply routineEnd_keeps
    | (with_reducible refine event_keeps (by decide) ?_)
    | (with_reducible refine event_keeps (by assumption) ?_)
    | with_reducible apply State.set_keeps
    | with_reducible apply State.KeepsStores.ite
    | with_reducible apply wheelDiscard_keeps
    | extract_lets
    | split

theorem execOvfClr_keeps  : KeepsStoresRes s (execOvfClr s) := by
  unfold execOvfClr
  have h := State.KeepsStores.refl s
  repeat' first
    | with_reducible assumption
    | (intro _)
    | with_reducible apply KeepsStoresRes.next
    | with_reducible apply routine_keeps
    | with_reducible apply routineEnd_keeps
    | with_reducible apply forAll_keeps
    | with_reducible apply clearOvf_keeps
    | with_reducible apply State.KeepsStores.ite

theorem execTileClockGate_keeps {x0 : Sys2Proof.TileId} : KeepsStoresRes s (execTileClockGate x0 s) := by
  unfold execTileClockGate
  have h := State.KeepsStores.refl s
  repeat' first
    | with_reducible assumption
    | (intro _)
    | with_reducible apply KeepsStoresRes.next
    | with_reducible apply setPhase_keeps
    | with_reducible apply State.KeepsStores.ite
    | with_reducible apply startGateTimer_keeps
    | split

theorem execWaitLimitExpiry_keeps {x0 : Sys2Proof.QId} : KeepsStoresRes s (execWaitLimitExpiry x0 s) := by
  unfold execWaitLimitExpiry
  have h := State.KeepsStores.refl s
  repeat' first
    | with_reducible assumption
    | (intro _)
    | with_reducible apply KeepsStoresRes.next
    | with_reducible apply State.setQue_keeps
    | with_reducible apply freezeQueue_keeps
    | (with_reducible refine eventD_keeps (by decide) ?_)
    | (with_reducible refine eventD_keeps (by assumption) ?_)
    | (with_reducible refine event_keeps (by decide) ?_)
    | (with_reducible refine event_keeps (by assumption) ?_)
    | with_reducible apply State.KeepsStores.ite
    | with_reducible apply restTile_keeps
    | (fail_if_no_progress with_reducible apply State.KeepsStores.same)
    | extract_lets
    | split

theorem execPreWake_keeps {x0 : Sys2Proof.QId} : KeepsStoresRes s (execPreWake x0 s) := by
  unfold execPreWake
  have h := State.KeepsStores.refl s
  repeat' first
    | with_reducible assumption
    | (intro _)
    | with_reducible apply KeepsStoresRes.next
    | with_reducible apply preWakeTiles_keeps
    | with_reducible apply State.advanceTo_keeps
    | with_reducible apply State.KeepsStores.ite
    | with_reducible apply State.KeepsStores.fold
    | (fail_if_no_progress with_reducible apply State.KeepsStores.same)
    | extract_lets
    | split

theorem execTileWakeComplete_keeps {x0 : Sys2Proof.TileId} : KeepsStoresRes s (execTileWakeComplete x0 s) := by
  unfold execTileWakeComplete
  have h := State.KeepsStores.refl s
  repeat' first
    | with_reducible assumption
    | (intro _)
    | with_reducible apply KeepsStoresRes.next
    | with_reducible apply setPhase_keeps
    | with_reducible apply State.KeepsStores.ite
    | with_reducible apply runTile_keeps
    | split

theorem releaseRead_keeps {x0 : Nat} (h : r.KeepsStores s) :
    r.KeepsStores (releaseRead x0 s) := by
  unfold releaseRead
  repeat' first
    | with_reducible assumption
    | with_reducible apply ownReply_keeps
    | with_reducible apply changeOwner_keeps
    | with_reducible apply State.KeepsStores.ite
    | split

theorem execHstRelease_keeps {x0 : Sys2Proof.PortId} : KeepsStoresRes s (execHstRelease x0 s) := by
  unfold execHstRelease
  have h := State.KeepsStores.refl s
  repeat' first
    | with_reducible assumption
    | (intro _)
    | with_reducible apply KeepsStoresRes.next
    | with_reducible apply ownReply_keeps
    | with_reducible apply changeOwner_keeps
    | with_reducible apply State.KeepsStores.ite
    | with_reducible apply releaseRead_keeps

theorem execGettid_keeps {x0 : Sys2Proof.Binding} : KeepsStoresRes s (execGettid x0 s) := by
  unfold execGettid
  have h := State.KeepsStores.refl s
  repeat' first
    | with_reducible assumption
    | (intro _)
    | with_reducible apply KeepsStoresRes.next
    | with_reducible apply pldmData_keeps

theorem execGetstatesensorreadings_keeps {x0 : Sys2Proof.Binding} {x1 : BitVec 16} : KeepsStoresRes s (execGetstatesensorreadings x0 x1 s) := by
  unfold execGetstatesensorreadings
  have h := State.KeepsStores.refl s
  repeat' first
    | with_reducible assumption
    | (intro _)
    | with_reducible apply KeepsStoresRes.next
    | with_reducible apply pldmServed_keeps
    | with_reducible apply sensorAnswer_keeps

theorem seizeRead_keeps {x0 : Nat} (h : r.KeepsStores s) :
    r.KeepsStores (seizeRead x0 s) := by
  unfold seizeRead
  repeat' first
    | with_reducible assumption
    | with_reducible apply ownReply_keeps
    | with_reducible apply changeOwner_keeps
    | with_reducible apply State.KeepsStores.ite
    | split

theorem execHstSeize_keeps {x0 : Sys2Proof.PortId} : KeepsStoresRes s (execHstSeize x0 s) := by
  unfold execHstSeize
  have h := State.KeepsStores.refl s
  repeat' first
    | with_reducible assumption
    | (intro _)
    | with_reducible apply KeepsStoresRes.next
    | with_reducible apply ownReply_keeps
    | with_reducible apply changeOwner_keeps
    | with_reducible apply State.KeepsStores.ite
    | with_reducible apply seizeRead_keeps

theorem execTimePpsOutPulse_keeps  : KeepsStoresRes s (execTimePpsOutPulse s) := by
  unfold execTimePpsOutPulse
  have h := State.KeepsStores.refl s
  repeat' first
    | with_reducible assumption
    | (intro _)
    | with_reducible apply KeepsStoresRes.next
    | with_reducible apply State.emit_keeps
    | with_reducible apply carry_keeps
    | with_reducible apply State.KeepsStores.ite

theorem execMgtRepdropRead_keeps {x0 : Sys2Proof.PortId} : KeepsStoresRes s (execMgtRepdropRead x0 s) := by
  unfold execMgtRepdropRead
  have h := State.KeepsStores.refl s
  repeat' first
    | with_reducible assumption
    | (intro _)
    | with_reducible apply KeepsStoresRes.next
    | with_reducible apply State.wr_keeps
    | with_reducible apply readReply_keeps
    | with_reducible apply State.KeepsStores.ite

theorem execTileIsolation_keeps {x0 : Sys2Proof.TileId} : KeepsStoresRes s (execTileIsolation x0 s) := by
  unfold execTileIsolation
  have h := State.KeepsStores.refl s
  repeat' first
    | with_reducible assumption
    | (intro _)
    | with_reducible apply KeepsStoresRes.next
    | with_reducible apply setPhase_keeps
    | with_reducible apply State.KeepsStores.ite

theorem execPwrForce_keeps {x0 : Sys2Proof.PortId} {x1 : Sys2Proof.Domain} {x2 : BitVec 4} : KeepsStoresRes s (execPwrForce x0 x1 x2 s) := by
  unfold execPwrForce
  have h := State.KeepsStores.refl s
  repeat' first
    | with_reducible assumption
    | (intro _)
    | with_reducible apply KeepsStoresRes.next
    | with_reducible apply ownerWrite_keeps
    | with_reducible apply stretchWrite_keeps

theorem execGetsensorreading_keeps {x0 : Sys2Proof.Binding} {x1 : BitVec 16} : KeepsStoresRes s (execGetsensorreading x0 x1 s) := by
  unfold execGetsensorreading
  have h := State.KeepsStores.refl s
  repeat' first
    | with_reducible assumption
    | (intro _)
    | with_reducible apply KeepsStoresRes.next
    | with_reducible apply pldmServed_keeps
    | with_reducible apply sensorAnswer_keeps

theorem execAbsentRetry_keeps {x0 : Sys2Proof.LinkId} : KeepsStoresRes s (execAbsentRetry x0 s) := by
  unfold execAbsentRetry
  have h := State.KeepsStores.refl s
  repeat' first
    | with_reducible assumption
    | (intro _)
    | with_reducible apply KeepsStoresRes.next
    | with_reducible apply startTraining_keeps
    | with_reducible apply State.KeepsStores.ite

theorem execStart_keeps {x0 : Sys2Proof.PortId} {x1 : Sys2Proof.QId} : KeepsStoresRes s (execStart x0 x1 s) := by
  unfold execStart
  have h := State.KeepsStores.refl s
  repeat' first
    | with_reducible assumption
    | (intro _)
    | with_reducible apply KeepsStoresRes.next
    | with_reducible apply queCtrlWrite_keeps

theorem execThrottleStep_keeps {x0 : Sys2Proof.Domain} : KeepsStoresRes s (execThrottleStep x0 s) := by
  unfold execThrottleStep
  have h := State.KeepsStores.refl s
  repeat' first
    | with_reducible assumption
    | (intro _)
    | with_reducible apply KeepsStoresRes.next
    | with_reducible apply setRequests_keeps
    | with_reducible apply State.set_keeps

theorem claimRead_keeps {x0 : Nat} (h : r.KeepsStores s) :
    r.KeepsStores (claimRead x0 s) := by
  unfold claimRead
  repeat' first
    | with_reducible assumption
    | with_reducible apply ownReply_keeps
    | with_reducible apply changeOwner_keeps
    | with_reducible apply State.KeepsStores.ite
    | split

theorem execHstClaim_keeps {x0 : Sys2Proof.PortId} : KeepsStoresRes s (execHstClaim x0 s) := by
  unfold execHstClaim
  have h := State.KeepsStores.refl s
  repeat' first
    | with_reducible assumption
    | (intro _)
    | with_reducible apply KeepsStoresRes.next
    | with_reducible apply ownReply_keeps
    | with_reducible apply changeOwner_keeps
    | with_reducible apply State.KeepsStores.ite
    | with_reducible apply claimRead_keeps

theorem execPldmInvalidType_keeps {x0 : Sys2Proof.Binding} {x1 : BitVec 8} : KeepsStoresRes s (execPldmInvalidType x0 x1 s) := by
  unfold execPldmInvalidType
  have h := State.KeepsStores.refl s
  repeat' first
    | with_reducible assumption
    | (intro _)
    | with_reducible apply KeepsStoresRes.next
    | with_reducible apply pldmAnswer_keeps
    | with_reducible apply State.KeepsStores.ite
    | with_reducible apply State.KeepsStores.fold
    | (fail_if_no_progress with_reducible apply State.KeepsStores.same)
    | extract_lets
    | split

theorem execStepAdvance_keeps {x0 : Sys2Proof.SetId} : KeepsStoresRes s (execStepAdvance x0 s) := by
  unfold execStepAdvance
  have h := State.KeepsStores.refl s
  repeat' first
    | with_reducible assumption
    | (intro _)
    | with_reducible apply KeepsStoresRes.next
    | with_reducible apply autoClear_keeps
    | with_reducible apply State.inc_keeps
    | with_reducible apply forAll_keeps
    | with_reducible apply issue_keeps
    | with_reducible apply bumpUid_keeps
    | with_reducible apply runAgain_keeps
    | with_reducible apply State.KeepsStores.ite

theorem execPfcRepeat_keeps {x0 : Sys2Proof.LinkId} {x1 : Nat} : KeepsStoresRes s (execPfcRepeat x0 x1 s) := by
  unfold execPfcRepeat
  have h := State.KeepsStores.refl s
  repeat' first
    | with_reducible assumption
    | (intro _)
    | with_reducible apply KeepsStoresRes.next
    | with_reducible apply State.emit_keeps
    | with_reducible apply State.KeepsStores.ite

theorem execExtest_keeps  : KeepsStoresRes s (execExtest s) := by
  unfold execExtest
  have h := State.KeepsStores.refl s
  repeat' first
    | with_reducible assumption
    | (intro _)
    | with_reducible apply KeepsStoresRes.next
    | with_reducible apply tapDrive_keeps

theorem execSetEndpointId_keeps {x0 : Sys2Proof.Binding} {x1 : BitVec 8} : KeepsStoresRes s (execSetEndpointId x0 x1 s) := by
  unfold execSetEndpointId
  have h := State.KeepsStores.refl s
  repeat' first
    | with_reducible assumption
    | (intro _)
    | with_reducible apply KeepsStoresRes.next
    | with_reducible apply State.emit_keeps
    | with_reducible apply State.set_keeps
    | with_reducible apply State.KeepsStores.ite

theorem execEleCntClr_keeps {x0 : Sys2Proof.PortId} {x1 : Sys2Proof.TileId} : KeepsStoresRes s (execEleCntClr x0 x1 s) := by
  unfold execEleCntClr
  have h := State.KeepsStores.refl s
  repeat' first
    | with_reducible assumption
    | (intro _)
    | with_reducible apply KeepsStoresRes.next
    | with_reducible apply ownerWrite_keeps
    | with_reducible apply State.wr_keeps

theorem execTimeRequestSend_keeps {x0 : Sys2Proof.LinkId} : KeepsStoresRes s (execTimeRequestSend x0 s) := by
  unfold execTimeRequestSend
  have h := State.KeepsStores.refl s
  repeat' first
    | with_reducible assumption
    | (intro _)
    | with_reducible apply KeepsStoresRes.next
    | with_reducible apply adoptRole_keeps
    | with_reducible apply State.tick_keeps
    | with_reducible apply sendLocal_keeps
    | with_reducible apply State.KeepsStores.ite
    | with_reducible apply State.KeepsStores.fold
    | (fail_if_no_progress with_reducible apply State.KeepsStores.same)

theorem thawRead_keeps {x0 : Nat} (h : r.KeepsStores s) :
    r.KeepsStores (thawRead x0 s) := by
  unfold thawRead
  repeat' first
    | with_reducible assumption
    | with_reducible apply readReply_keeps
    | with_reducible apply releaseFreeze_keeps
    | with_reducible apply State.KeepsStores.ite
    | extract_lets
    | split

theorem execHstPortthaw_keeps {x0 : Sys2Proof.PortId} : KeepsStoresRes s (execHstPortthaw x0 s) := by
  unfold execHstPortthaw
  have h := State.KeepsStores.refl s
  repeat' first
    | with_reducible assumption
    | (intro _)
    | with_reducible apply KeepsStoresRes.next
    | with_reducible apply readReply_keeps
    | with_reducible apply releaseFreeze_keeps
    | with_reducible apply State.KeepsStores.ite
    | with_reducible apply thawRead_keeps

theorem execCall_keeps {x0 : Sys2Proof.QId} : KeepsStoresRes s (execCall x0 s) := by
  unfold execCall
  have h := State.KeepsStores.refl s
  repeat' first
    | with_reducible assumption
    | (intro _)
    | with_reducible apply KeepsStoresRes.next
    | with_reducible apply runHead_keeps
    | with_reducible apply State.setQue_keeps
    | with_reducible apply State.set_keeps
    | with_reducible apply State.KeepsStores.ite
    | with_reducible apply State.KeepsStores.fold
    | (fail_if_no_progress with_reducible apply State.KeepsStores.same)
    | extract_lets
    | split

theorem execEventMark_keeps  : KeepsStoresRes s (execEventMark s) := by
  unfold execEventMark
  have h := State.KeepsStores.refl s
  repeat' first
    | with_reducible assumption
    | (intro _)
    | with_reducible apply KeepsStoresRes.next
    | with_reducible apply routine_keeps
    | with_reducible apply routineEnd_keeps
    | (with_reducible refine recordEvent_keeps (by decide) ?_)

theorem execPostwaitExpiry_keeps {x0 : Sys2Proof.PortId} {x1 : Fin 8} : KeepsStoresRes s (execPostwaitExpiry x0 x1 s) := by
  unfold execPostwaitExpiry
  have h := State.KeepsStores.refl s
  repeat' first
    | with_reducible assumption
    | (intro _)
    | with_reducible apply KeepsStoresRes.next
    | with_reducible apply State.setPort_keeps
    | with_reducible apply State.set_keeps
    | with_reducible apply readReply_keeps
    | with_reducible apply State.KeepsStores.ite

theorem execExtestTrain_keeps  : KeepsStoresRes s (execExtestTrain s) := by
  unfold execExtestTrain
  have h := State.KeepsStores.refl s
  repeat' first
    | with_reducible assumption
    | (intro _)
    | with_reducible apply KeepsStoresRes.next
    | with_reducible apply tapDrive_keeps

theorem execSecSvncommit_keeps {x0 : Sys2Proof.PortId} {x1 : BitVec 8} : KeepsStoresRes s (execSecSvncommit x0 x1 s) := by
  unfold execSecSvncommit
  have h := State.KeepsStores.refl s
  repeat' first
    | with_reducible assumption
    | (intro _)
    | with_reducible apply KeepsStoresRes.next
    | with_reducible apply ownerWrite_keeps
    | with_reducible apply svnCommit_keeps

theorem execFlushGuardExpiry_keeps  : KeepsStoresRes s (execFlushGuardExpiry s) := by
  unfold execFlushGuardExpiry
  have h := State.KeepsStores.refl s
  repeat' first
    | with_reducible assumption
    | (intro _)
    | with_reducible apply KeepsStoresRes.next
    | with_reducible apply State.setFab_keeps
    | (with_reducible refine event_keeps (by decide) ?_)
    | (with_reducible refine event_keeps (by assumption) ?_)
    | with_reducible apply State.set_keeps
    | with_reducible apply State.KeepsStores.ite

theorem execSamplePreload_keeps {x0 : BitVec 64} : KeepsStoresRes s (execSamplePreload x0 s) := by
  unfold execSamplePreload
  have h := State.KeepsStores.refl s
  repeat' first
    | with_reducible assumption
    | (intro _)
    | with_reducible apply KeepsStoresRes.next
    | with_reducible apply tapPut_keeps
    | with_reducible apply State.KeepsStores.ite
    | with_reducible apply State.KeepsStores.fold
    | (fail_if_no_progress with_reducible apply State.KeepsStores.same)

theorem execTrainingTimeout_keeps {x0 : Sys2Proof.LinkId} : KeepsStoresRes s (execTrainingTimeout x0 s) := by
  unfold execTrainingTimeout
  have h := State.KeepsStores.refl s
  repeat' first
    | with_reducible assumption
    | (intro _)
    | with_reducible apply KeepsStoresRes.next
    | with_reducible apply becomeAbsent_keeps
    | with_reducible apply State.KeepsStores.ite

theorem execQueuePark_keeps {x0 : Sys2Proof.QId} : KeepsStoresRes s (execQueuePark x0 s) := by
  unfold execQueuePark
  have h := State.KeepsStores.refl s
  repeat' first
    | with_reducible assumption
    | (intro _)
    | with_reducible apply KeepsStoresRes.next
    | with_reducible apply freezeQueue_keeps
    | with_reducible apply State.setQue_keeps
    | with_reducible apply State.set_keeps
    | with_reducible apply State.KeepsStores.ite
    | with_reducible apply State.KeepsStores.fold
    | (fail_if_no_progress with_reducible apply State.KeepsStores.same)
    | with_reducible apply restTile_keeps
    | extract_lets
    | split

theorem execPdrRepository_keeps {x0 : Sys2Proof.Binding} {x1 : List (BitVec 8)} : KeepsStoresRes s (execPdrRepository x0 x1 s) := by
  unfold execPdrRepository
  have h := State.KeepsStores.refl s
  repeat' first
    | with_reducible assumption
    | (intro _)
    | with_reducible apply KeepsStoresRes.next
    | with_reducible apply pldmServed_keeps

theorem execSeteventreceiver_keeps {x0 : Sys2Proof.Binding} {x1 : BitVec 8} : KeepsStoresRes s (execSeteventreceiver x0 x1 s) := by
  unfold execSeteventreceiver
  have h := State.KeepsStores.refl s
  repeat' first
    | with_reducible assumption
    | (intro _)
    | with_reducible apply KeepsStoresRes.next
    | with_reducible apply pldmServed_keeps
    | with_reducible apply State.KeepsStores.ite
    | with_reducible apply State.KeepsStores.fold
    | (fail_if_no_progress with_reducible apply State.KeepsStores.same)

theorem execSave_keeps {x0 : Sys2Proof.PortId} {x1 : Sys2Proof.SetId} {x2 : BitVec 32} : KeepsStoresRes s (execSave x0 x1 x2 s) := by
  unfold execSave
  have h := State.KeepsStores.refl s
  repeat' first
    | with_reducible assumption
    | (intro _)
    | with_reducible apply KeepsStoresRes.next
    | with_reducible apply ownerWrite_keeps
    | with_reducible apply ldCtrl_keeps

theorem execMbxCons_keeps {x0 : Sys2Proof.PortId} {x1 : Fin 48} {x2 : BitVec 16} : KeepsStoresRes s (execMbxCons x0 x1 x2 s) := by
  unfold execMbxCons
  have h := State.KeepsStores.refl s
  repeat' first
    | with_reducible assumption
    | (intro _)
    | with_reducible apply KeepsStoresRes.next
    | with_reducible apply consWrite_keeps

theorem execFtmLoad_keeps {x0 : Sys2Proof.PortId} : KeepsStoresRes s (execFtmLoad x0 s) := by
  unfold execFtmLoad
  have h := State.KeepsStores.refl s
  repeat' first
    | with_reducible assumption
    | (intro _)
    | with_reducible apply KeepsStoresRes.next
    | with_reducible apply ownerWrite_keeps
    | with_reducible apply ftmCtrl_keeps

end Sys2Proof.Machine
end

