-- ==== Sys2Proof/Tests/Slice0.lean ====
section
/-! SUPPORT. Tests: the well-formedness checks, and for each statement a witness of its hypotheses, clause by clause.  Expected
values are worked out from the rules named. -/

namespace Sys2Proof.Tests

open Sys2Proof Sys2Proof.Machine

set_option Elab.async false

/-- The state after reset with some fields set. -/
def st (l : List (FRef × Nat)) : State := l.foldl (fun s e => s.set e.1 e.2) State.reset

/-- A ready device that port 0 owns. -/
def up (l : List (FRef × Nat)) : State := st ([(GLB_BOOT_STATE, 4), (HST_OWN_OWNER, 1), (MGT_STAT_RUN, 1)] ++ l)

/-- Queue `q` runs, its tile is awake, and the command word `w` is at its head. -/
def run (q w : Nat) (l : List (FRef × Nat)) : State :=
  { up ([(QUE_STAT_STATE q, 2), (QUE_PROG_LEN q, 2)] ++ l) with
    imem := [(q * 8192, BitVec.ofNat 256 w)]
    gates := [(q / 5, { phase := .running })] }

/-- A word with opcode `op` that always executes. -/
def cmd (op : Nat) (l : List (Nat × Nat)) : Nat := l.foldl (fun v e => v + e.2 * 2 ^ e.1) (op + 2 ^ 14)

/-- `State.HeadRuns` as a test, for a command with no WAIT. -/
def heads (s : State) (q op : Nat) (serial : Bool) : Bool :=
  s.atHead q op && s.mayBegin q serial && s.awake q && (s.que q).pendingFreeze == none &&
    !s.parksHere q && !s.fetchFails q && hdrWaitFlag (s.headWord q) == 0 &&
    !(s.signalsOut q (s.headWord q) && !s.armed) && s.executes (homeSet q) (s.headWord q)

theorem headRuns_of {s : State} {q op : Nat} {serial : Bool} (h : heads s q op serial = true) : s.HeadRuns q op serial := by
  simp only [heads, Bool.and_eq_true, Bool.not_eq_true', beq_iff_eq] at h
  obtain ⟨⟨⟨⟨⟨⟨⟨⟨a, b⟩, c⟩, d⟩, e⟩, k⟩, f⟩, g⟩, i⟩ := h
  exact ⟨a, b, c, d, e, k, .inl f, g, .inr i⟩

/-- `State.Quiet` as a test. -/
def still (s : State) : Bool :=
  decide (s.fab = {}) && (!s.isSet RTE_ETHCFG_PFC || allLinks.all fun n => !s.isEth n || [kCtl, kReq, kRsp, kBlk].all fun k => (s.link n).pfcSent.testBit k == s.classHeld n k)

theorem quiet_of {s : State} (h : still s = true) : s.Quiet := by
  simp only [still, Bool.and_eq_true, decide_eq_true_eq, Bool.or_eq_true, Bool.not_eq_true', List.all_eq_true, beq_iff_eq] at h
  obtain ⟨f, g⟩ := h
  refine ⟨by rw [f], by rw [f], by rw [f], fun p n hn e k hk => ?_⟩
  rcases g with g | g
  · rw [g] at p
    cases p
  · exact (g n hn).elim (fun x => by rw [x] at e; cases e) fun x => x k hk

/-- `State.Plain` as a test. -/
def clean (s : State) (a : Nat) : Bool :=
  decide (s.errs = []) && decide (s.poison = []) && decide (s.badBridges = 0) && (List.range 24).all fun t => padTile a != some t || decide ((s.gate t).phase = .running)

theorem plain_of {s : State} {a n : Nat} (h : clean s a = true) : s.Plain a n := by
  simp only [clean, Bool.and_eq_true, decide_eq_true_eq, Bool.or_eq_true, List.all_eq_true, bne_iff_ne, List.mem_range] at h
  obtain ⟨⟨⟨he, hp⟩, hb⟩, hr⟩ := h
  refine ⟨fun l _ => ⟨by simp [State.lineErrs, he], by simp [State.poisoned, hp, tabGet]⟩, hb, fun t ht => ?_⟩
  have h24 : t < 24 := by
    unfold padTile at ht
    split at ht
    · rename_i h
      simp only [Option.some.injEq, padBase] at ht h
      omega
    · cases ht
  exact (hr t h24).resolve_left (fun x => x ht)

/-- `s` with registers holding values directly, whatever their reset values; those of the part itself nothing evaluates. -/
def force (l : List (Nat × Nat)) (s : State) : State :=
  l.foldl (fun s e => { s with regs := s.regs.filter (fun x => x.1 < e.1) ++ (e.1, BitVec.ofNat 64 e.2) :: s.regs.filter (fun x => e.1 < x.1) }) s
/-! ### The block and the queues -/

/-- The ill-formed term of each check is refused, and a well-formed one of the same row is not. -/
theorem test_wf : Instr.wf (.segWrite 0 5 0) = false ∧ Instr.wf (.segWrite 0 4 0) = true ∧ Instr.wf (.transportResend 0 5 0) = false ∧
    Instr.wf (.ethFrameSend 0 5 0) = false ∧ Instr.wf (.pfcRepeat 0 5) = false ∧ Instr.wf (.colChunk 0 []) = false ∧
    Instr.wf (.timePpsInEdge (2 ^ 68)) = false ∧ Instr.wf (.bar4Access 0 0 true 2 [1] false) = false ∧ Instr.wf (.bar4Access 0 0 true 1 [1] true) = true ∧
    Instr.wf (.bar4Access 0 0 false 4 [1] false) = false ∧ Instr.wf (.bar4Access 0 0 false 0 [] false) = false ∧
    Instr.wf (.telemetrySample 0 []) = false ∧ Instr.wf (.telemetrySample 100 (List.replicate 31 0)) = true ∧
    Instr.wf (.pldmFruData .smbus false [0] true) = false ∧ Instr.wf (.requestupdate .portA (2 ^ 32)) = false ∧ Instr.wf (.updateImageData 0 []) = false ∧
    Instr.wf (.memoryInitialisation [3, 3]) = false ∧ Instr.wf (.memoryInitialisation [3, 19]) = true ∧
    Instr.wf (.avsCurrentRead 0 (some [1, 2])) = false ∧ Instr.wf (.avsCurrentRead 1 (some [1, 2])) = true ∧ Instr.wf (.avsWriteRetry 0 5 false) = false ∧
    Instr.wf (.registerWrite 0 false 0 0 0) = false ∧ Instr.wf (.hostReadCompletion 0 0 false [1] false) = false ∧
    Instr.wf (.patrolScrub 0 [(1, 2), (1, 3)]) = false ∧ Instr.wf (.patrolScrub 0 [(1, 0)]) = false ∧ Instr.wf (.getVersion .portA [0x10]) = false := by decide

theorem test_StepRunsFrontCommand : ({ State.reset with pending := [.nop 0, .coldReset] } : State).pending = .nop 0 :: [.coldReset] := rfl

theorem test_EmptyQueueTicks : (up []).pending = [] ∧ (up []).counting = true ∧ still (up []) = true ∧ (∀ a < 4, ((up []).wheel a).coll = none) ∧
    ({ up [] with links := [(23, { failTimes := [0, 5] })] } : State).counting = true ∧ (({ up [] with links := [(23, { failTimes := [0, 5] })] } : State).link 23).failTimes ≠ [] ∧
    (((up [(PWR_STRETCH_S 3, 1)]).wr aFTM_NOW 3999).get (PWR_STRETCH_S 3) ≠ 0 ∧ (((up [(PWR_STRETCH_S 3, 1)]).wr aFTM_NOW 3999).now + 1) % 4000 = 0) ∧
    (setPhaseBoot .rom State.reset).counting = false ∧ (setPhaseBoot .rom State.reset).boot.phase = .rom ∧
    State.reset.counting = false ∧ State.reset.boot.phase ≠ .rom ∧
    (up [(QUE_STAT_STATE 124, 3)]).qstate 124 = qWaiting ∧ (up [(QUE_STAT_STATE 124, 3)]).clocked 124 = true ∧ State.reset.clocked 119 = false ∧
    (up []).queueCycles 124 1 2 = 1 ∧ (up ((List.range 24).map fun n => (LNK_STAT_LP n, 1))).deepIdle = true ∧
    (up ((List.range 23).map fun n => (LNK_STAT_LP n, 1))).deepIdle = false := by decide +kernel

theorem test_ResetValues : regRow (aLNK_RETRY 23) ≠ none ∧ identityReset (aLNK_RETRY 23) = none ∧ ∀ r, regRow (aLNK_RETRY 23) = some r → r.fields ≠ [] := by
  decide +kernel

/-- NOP's stages: gated, frozen at its boundary with the largest code and index, asked to park, at a line that cannot be read, waiting on
flag 511, behind a SETPRED, skipped; and a SETPRED behind another command. -/
theorem test_HeadStages : headRow (.nop 119) = some (119, 0, false) ∧
    (let s := { run 119 (cmd 0 []) [] with gates := [] }; s.atHead 119 0 = true ∧ s.awake 119 = false) ∧
    (let s := { run 119 (cmd 0 []) [] with ques := [(119, { pendingFreeze := some (65535, 8191), lead := [23] })] };
      s.atHead 119 0 = true ∧ s.awake 119 = true ∧ (s.que 119).pendingFreeze = some (65535, 8191) ∧ s.isSet (QUE_FREEZEREC_VALID 119) = false) ∧
    (let s := run 119 (cmd 0 []) [(QUE_CTRL_PARKREQ 119, 1), (QUE_PARK_ANY 119, 1)];
      s.atHead 119 0 = true ∧ s.awake 119 = true ∧ (s.que 119).pendingFreeze = none ∧ s.parksHere 119 = true) ∧
    (let s := { run 119 (cmd 0 []) [] with ques := [(119, { bad := [0] })] };
      s.atHead 119 0 = true ∧ s.awake 119 = true ∧ (s.que 119).pendingFreeze = none ∧ s.parksHere 119 = false ∧ s.fetchFails 119 = true) ∧
    (let s := run 119 (cmd 0 [(16, 511), (25, 1)]) [];
      s.atHead 119 0 = true ∧ s.awake 119 = true ∧ (s.que 119).pendingFreeze = none ∧ s.parksHere 119 = false ∧ s.fetchFails 119 = false ∧ hdrWaitFlag (s.headWord 119) = 511 ∧
        (s.que 119).waited = false ∧ s.waitMet (homeSet 119) 511 (hdrWaitValue (s.headWord 119)) (s.headCmd 119).2.1 = false) ∧
    (let s := run 124 0 [];
      s.atHead 124 0 = true ∧ s.awake 124 = true ∧ (s.que 124).pendingFreeze = none ∧ s.parksHere 124 = false ∧ s.fetchFails 124 = false ∧ hdrWaitFlag (s.headWord 124) = 0 ∧
        (s.signalsOut 124 (s.headWord 124) && !s.armed) = false ∧ (s.que 124).chosen = false ∧ s.predReady 124 = true ∧ s.executes (homeSet 124) (s.headWord 124) = false ∧
        s.rerunHead 124 = none) ∧
    (let s := { run 119 (cmd 0 []) [] with ques := [(119, { issued := [{ idx := 0, pass := 0, word := BitVec.ofNat 256 (cmd 3 []) }] })] };
      s.atHead 119 0 = true ∧ s.awake 119 = true ∧ s.fetchFails 119 = false ∧ (s.que 119).chosen = false ∧ s.predReady 119 = false) := by
  decide +kernel

theorem test_HeadStages_serial : headRow (.setpred 119) = some (119, 3, true) ∧
    (let s := { run 119 (cmd 3 []) [] with ques := [(119, { issued := [{ idx := 0, pass := 0, word := BitVec.ofNat 256 (cmd 0 []) }] })] };
      s.atHead 119 3 = true ∧ s.awake 119 = true ∧ (s.que 119).pendingFreeze = none ∧ s.parksHere 119 = false ∧ s.fetchFails 119 = false ∧ hdrWaitFlag (s.headWord 119) = 0 ∧
        (s.signalsOut 119 (s.headWord 119) && !s.armed) = false ∧ s.predReady 119 = true ∧ s.executes (homeSet 119) (s.headWord 119) = true ∧ s.mayBegin 119 true = false) := by
  decide +kernel

theorem test_NopAndParkpointMoveOn : (run 124 (cmd 0 []) []).Fresh 124 ∧ (run 124 (cmd 0 []) []).HeadRuns 124 0x00 false ∧
    (run 0 (cmd 6 []) []).Fresh 0 ∧ (run 0 (cmd 6 []) []).HeadRuns 0 0x06 false :=
  ⟨by unfold State.Fresh; decide +kernel, headRuns_of (by decide +kernel), by unfold State.Fresh; decide +kernel, headRuns_of (by decide +kernel)⟩

/-- BASEADD on base register 15: within 48 bits, and out of them. -/
theorem test_BaseaddSteps : (run 0 (cmd 2 [(79, 1)]) [(QUE_BINC_INC 0 15, 1)]).HeadRuns 0 0x02 false ∧ (run 0 (cmd 2 [(79, 1)]) []).Fresh 0 ∧
    (run 0 (cmd 2 [(79, 1)]) []).Selects 0 15 ∧ (cmdGet ((run 0 (cmd 2 [(79, 1)]) []).headWord 0) 64 16).testBit 14 = false ∧
    ¬ (0 ≤ (localOf ((run 0 (cmd 2 [(79, 1)]) [(QUE_BINC_INC 0 15, 2 ^ 48 - 1)]).rd (aQUE_BASE 0 15)).toNat : Int) +
      signed48 ((run 0 (cmd 2 [(79, 1)]) [(QUE_BINC_INC 0 15, 2 ^ 48 - 1)]).get (QUE_BINC_INC 0 15))) :=
  ⟨headRuns_of (by decide +kernel), by unfold State.Fresh; decide +kernel, by unfold State.Selects; decide +kernel, by decide +kernel, by decide +kernel⟩

/-- SETPRED's five sources; a memory word read well, and one on a poisoned line. -/
theorem test_SetpredWrites : (∀ k < 5, heads (run 5 (cmd 3 [(73, k)]) []) 5 0x03 true = true ∧ cmdGet ((run 5 (cmd 3 [(73, k)]) []).headWord 5) 73 3 = k) ∧
    heads (run 123 (cmd 3 [(73, 2)]) []) 123 0x03 true = true ∧
    (let s := (run 5 (cmd 3 [(73, 3), (148, 1)]) []).wr (aQUE_BASE 5 1) (BitVec.ofNat 64 (padBase 1));
      heads s 5 0x03 true = true ∧ cmdGet (s.headWord 5) 73 3 = 3 ∧ s.cmdOperand 5 (s.headWord 5) 128 20 8 = some (padBase 1) ∧ devOf (padBase 1) = s.devId ∧
        padBase 1 ≤ localOf (padBase 1) ∧ localOf (padBase 1) + 8 ≤ padBase 1 + padSize ∧ clean s (padBase 1) = true) ∧
    (let s := { (run 123 (cmd 3 [(73, 3), (148, 1)]) []) with poison := [(0, true)] };
      heads s 123 0x03 true = true ∧ cmdGet (s.headWord 123) 73 3 = 3 ∧ s.cmdOperand 123 (s.headWord 123) 128 20 8 = some 0 ∧ devOf 0 = s.devId ∧
        rangePopulated (localOf 0 / 8 * 8) 8 = true ∧ s.lineErrs 0 = [] ∧ s.poisoned 0 = true) := by
  decide +kernel

/-- LAUNCH: an arrival at its stamp, one past the wait limit of 1 µs, and one within it; a sluice held at the last stamp. -/
theorem test_LaunchSluiceAndPrewake : heads (run 0 (cmd 1 [(64, 0)]) []) 0 1 false = true ∧ (run 0 (cmd 1 []) []).rerunHead 0 = none ∧
    (cmdGet ((run 0 (cmd 1 []) []).headWord 0) 64 64 + ((run 0 (cmd 1 []) []).headCmd 0).2.1 * cmdGet ((run 0 (cmd 1 []) []).headWord 0) 128 32) % 2 ^ 64 ≤ (run 0 (cmd 1 []) []).now ∧
    (let s := run 0 (cmd 1 [(64, 4001)]) [(QUE_WAITLIM_LIMIT 0, 1)];
      heads s 0 1 false = true ∧ s.now < 4001 ∧ cmdGet (s.headWord 0) 64 64 = 4001 ∧ s.get (QUE_WAITLIM_LIMIT 0) = 1 ∧ 1 * 4000 < 4001 - s.now) ∧
    (let s := run 0 (cmd 1 [(64, 4000)]) [(QUE_WAITLIM_LIMIT 0, 1)];
      heads s 0 1 false = true ∧ s.now < 4000 ∧ cmdGet (s.headWord 0) 64 64 = 4000 ∧ 4000 - s.now ≤ s.get (QUE_WAITLIM_LIMIT 0) * 4000) ∧
    (let s := { run 120 (cmd 1 [(160, 2 ^ 24 - 1), (192, 2 ^ 23)]) [(QUE_STAT_STATE 120, 3), (QUE_STAT_WHY 120, 1)] with
      ques := [(120, { sluice := some (2 ^ 64 - 1), lead := [23] }), (124, { lead := [22] })], mxes := [(46, { prewake := true, riseAt := some 0 })] };
      (s.que 120).sluice = some (2 ^ 64 - 1) ∧ s.qstate 120 = qWaiting ∧ s.get (QUE_STAT_WHY 120) = 1 ∧ s.rerunHead 120 = none ∧
        cmdGet (s.headWord 120) 50 8 = 0 ∧ cmdGet (s.headWord 120) 160 24 ≠ 0 ∧ (cmdGet (s.headWord 120) 192 24).testBit 23 = true ∧
        (∀ k < 125, k ≠ 120 → 23 ∉ (s.que k).lead) ∧ (∃ k < 125, k ≠ 120 ∧ 22 ∈ (s.que k).lead) ∧
        (s.mxe 46).prewake = true ∧ (s.mxe 46).riseAt = some 0 ∧ (s.mxe 47).prewake = false) := by
  decide +kernel

/-- Two queues of the device set at the barrier of a STEPEND that names them. -/
theorem test_StepBarrier : heads (run 3 (cmd 4 [(64, 8)]) []) 3 0x04 false = true ∧
    (let s := { up [(QUE_STAT_STATE 120, 3), (QUE_STAT_WHY 120, 2), (QUE_STAT_STATE 124, 3), (QUE_STAT_WHY 124, 2), (TIL_OVF_W7_AUTOCLR (wheelOvfBase 0 0), 1)] with
        imem := [(120 * 8192, BitVec.ofNat 256 (cmd 4 [(64, 17)])), (124 * 8192, BitVec.ofNat 256 (cmd 4 [(64, 17)]))] };
      (∀ q ∈ setQueues 24, (s.qstate q = qWaiting ∧ s.get (QUE_STAT_WHY q) = 2) → cmdGet (s.headWord q) 64 5 = 17 % 32) ∧
      (∀ q ∈ setQueues 24, Nat.testBit 17 (q - 24 * 5) = true → (s.qstate q = qWaiting ∧ s.get (QUE_STAT_WHY q) = 2) ∧ (s.que q).issued = []) ∧
      120 ∈ setQueues 24 ∧ 121 ∈ setQueues 24 ∧ Nat.testBit 17 (120 - 120) = true ∧ Nat.testBit 17 (121 - 120) = false ∧
      wheelOvfBase 0 0 ∈ setRecords 24 ∧ s.isSet (TIL_OVF_W7_AUTOCLR (wheelOvfBase 0 0)) = true ∧ wheelOvfBase 3 15 ∈ setRecords 24) := by
  decide +kernel

/-- POST to mailbox 47: with room, with another role, full; and to another device while unarmed. -/
theorem test_PostOutcomes :
    (let s := run 4 (cmd 5 [(168, 47)]) [];
      heads s 4 0x05 true = true ∧ s.rerunHead 4 = none ∧ s.cmdOperand 4 (s.headWord 4) 64 20 32 = some (padBase 0) ∧ cmdGet (s.headWord 4) 152 16 = s.devId ∧
        cmdGet (s.headWord 4) 168 8 = 47 ∧ cmdGet (s.headWord 4) 136 16 = s.mailRole 47 ∧ s.mailHeld 47 < 16 ∧ cmdGet (s.headWord 4) 176 1 = 0) ∧
    (let s := run 4 (cmd 5 [(168, 47), (136, 1)]) []; heads s 4 0x05 true = true ∧ cmdGet (s.headWord 4) 136 16 ≠ s.mailRole 47) ∧
    (let s := run 4 (cmd 5 [(168, 47)]) [(MBX_PROD_PROD 47, 16)]; heads s 4 0x05 true = true ∧ 16 ≤ s.mailHeld 47 ∧ cmdGet (s.headWord 4) 136 16 = s.mailRole 47) ∧
    (let s := run 4 (cmd 5 [(152, 65535)]) []; heads s 4 0x05 true = true ∧ cmdGet (s.headWord 4) 152 16 ≠ s.devId ∧ s.armed = false) := by
  decide +kernel

/-- A queue inside each routine, with the operands of each clause. -/
theorem test_RoutinesRunForTheirCaller : heads (run 0 (cmd 7 []) []) 0 0x07 true = true ∧
    (∀ i, i < 7 → 0 < i → (let s := { run 124 (cmd 7 [(64, i)]) [(QUE_STAT_INLIB 124, 1)] with ques := [(124, { lib := some i, issued := [{ idx := 0, pass := 0, word := BitVec.ofNat 256 (cmd 7 []), status := .busy }] })] };
      s.routineQueue i = some 124 ∧ s.wheelHeld 3 = false ∧ devOf 0 = s.devId ∧ rangePopulated (localOf 0) 1024 = true ∧ rangePopulated (localOf 0) 16 = true ∧ localOf 0 % 64 = 0 ∧
        (∀ k < 16, (s.byte (localOf 0 + k)).toNat ≤ 63) ∧ clean s 0 = true ∧ s.badBridges = 0 ∧ s.locked 0 1024 = false)) ∧
    (up [(LPC_MIRCTL_LOCK, 1)]).locked (localOf mirrorBase) 1024 = true ∧ devOf mirrorBase = (up []).devId ∧
    devOf (2 ^ 48) ≠ (up []).devId ∧
    (let s := { run 124 0 [(QUE_STAT_STATE 120, 2)] with ques := [(124, { lib := some 3 })] }; s.routineQueue 3 = some 124 ∧ s.wheelHeld ((s.rd (aQUE_BASE 124 12)).toNat % 4) = true) := by
  decide +kernel

/-- A met wait, one that the limit ends, STEPEND's, and a POST's, which nothing ends. -/
theorem test_WaitsEnd :
    (let s := run 0 (cmd 0 [(16, 1), (25, 0)]) [(QUE_STAT_STATE 0, 3), (TIL_FLAG_VALUE 0 1, 32767)];
      (s.qstate 0 = qWaiting ∧ s.get (QUE_STAT_WHY 0) = 0) ∧ (s.flag 0 1 + 65536 - 0) % 65536 < 32768 ∧ hdrWaitFlag (s.headWord 0) = 1) ∧
    (let s := run 0 (cmd 0 [(16, 1), (25, 0)]) [(QUE_STAT_STATE 0, 3), (TIL_FLAG_VALUE 0 1, 32768)];
      (s.qstate 0 = qWaiting ∧ s.get (QUE_STAT_WHY 0) = 0) ∧ 32768 ≤ (s.flag 0 1 + 65536 - 0) % 65536 ∧ s.get (QUE_WAITLIM_LIMIT 0) ≠ 0) ∧
    (∀ m ∈ [1, 3], (let s := run 0 (cmd 4 [(64, m)]) [(QUE_STAT_STATE 0, 3), (QUE_STAT_WHY 0, 2)];
      s.qstate 0 = qWaiting ∧ s.get (QUE_STAT_WHY 0) = 2 ∧ s.get (QUE_WAITLIM_LIMIT 0) ≠ 0 ∧ (s.barrierMet 0 = true ↔ m = 1))) ∧
    (run 0 0 []).qstate 0 ≠ qWaiting ∧ (run 0 0 [(QUE_STAT_STATE 0, 3), (QUE_STAT_WHY 0, 1)]).get (QUE_STAT_WHY 0) = 1 ∧
    (run 0 0 [(QUE_WAITLIM_LIMIT 0, 0)]).get (QUE_WAITLIM_LIMIT 0) = 0 ∧
    (let s := run 0 0 [(QUE_STAT_STATE 0, 3), (QUE_STAT_WHY 0, 3)]; s.qstate 0 = qWaiting ∧ s.get (QUE_STAT_WHY 0) = 3) := by
  decide +kernel

/-- A done command that signals flag 495 retires alone; a busy one does not; a queue at its boundary parks. -/
theorem test_RetireAndPark :
    (let e : Issued := { idx := 0, pass := 0, word := BitVec.ofNat 256 (cmd 0 [(41, 495), (50, 255)]) };
      let s := { run 0 0 [] with ques := [(0, { issued := [e], passEnd := true })] };
      (s.que 0).issued = [e] ∧ e.status = .done ∧ e.freeze = none ∧ e.record = none ∧ cmdGet e.word 41 9 < 496 ∧ e.signalled = false ∧ cmdGet e.word 50 8 ≠ 0 ∧
        0 < cmdGet e.word 41 9 ∧ (s.que 0).passEnd = true ∧ s.qstate 0 = qRunning) ∧
    (let s := { run 0 0 [] with ques := [(0, { issued := [{ idx := 0, pass := 0, word := 0, status := .busy }] })] }; ((s.que 0).issued.map (·.status)) = [.busy]) ∧
    (∀ k ∈ [2, 3], let s := run 0 0 [(QUE_STAT_STATE 0, k), (QUE_CTRL_PARKREQ 0, 1), (QUE_PARK_ANY 0, 1)];
      s.qstate 0 = k ∧ s.get (QUE_STAT_WHY 0) ≠ 3 ∧ s.isSet (QUE_CTRL_PARKREQ 0) = true ∧ s.isSet (QUE_PARK_ANY 0) = true ∧ (s.que 0).issued = [] ∧ (s.que 0).lib = none ∧
        (s.que 0).passEnd = false ∧ (s.que 0).pendingFreeze = none) := by
  decide +kernel

/-- A queue in each state that QUE_CTRL acts on. -/
theorem test_QueueControlWrites : (up []).mayWrite 0 true = true ∧ (∀ k < 6, (up [(QUE_STAT_STATE 124, k)]).mayWrite 0 true = true ∧ (up [(QUE_STAT_STATE 124, k)]).qstate 124 = k) ∧
    (let s := up [(QUE_STAT_STATE 124, 5), (QUE_FREEZEREC_RESUME 124, 1)]; (s.que 124).dead = false ∧ (s.que 124).passEnd = false ∧ s.isSet (QUE_FREEZEREC_RESUME 124) = true) ∧
    (let s := up [(QUE_STAT_STATE 124, 5), (QUE_PROG_LEN 124, 8191), (QUE_STAT_PC 124, 8189), (QUE_FREEZEREC_CMD 124, 8189)];
      s.qstate 124 = qFrozen ∧ s.isSet (QUE_FREEZEREC_RESUME 124) = false ∧ s.rerunHead 124 = none ∧ s.get (QUE_STAT_PC 124) = s.get (QUE_FREEZEREC_CMD 124) ∧
        s.get (QUE_STAT_PC 124) + 1 < s.get (QUE_PROG_LEN 124)) := by
  decide +kernel

/-! ### Engines -/

/-- Whether everything that every repetition accesses lies in tile `t`'s scratchpad. -/
def within (t : Nat) (s : State) (q w x aux : Nat) : Bool :=
  let c := MxCmd.ofWord (s.headWord q)
  (List.range c.reps).all fun n => ((mxRep t c w x (s.auxWord aux) n).ranges c 0).all fun a => inPad t a.1 a.2

/-- Whether the row starts of every repetition are aligned. -/
def straight (t : Nat) (s : State) (q w x aux : Nat) : Bool :=
  let c := MxCmd.ofWord (s.headWord q)
  (List.range c.reps).all fun n => (mxRep t c w x (s.auxWord aux) n).aligned c 0

/-- The matrix command `op` of tile 23, engine 1, in format `f`, loading W or not. -/
def mm (op f load : Nat) (l : List (Nat × Nat)) : Nat := cmd op ([(80, f), (84, f), (94, load), (240, 3)] ++ l)

/-- A BF16 command that loads W, one with no tile loaded, a block-scaled one with W misaligned, and one with X past the
scratchpad's end. -/
theorem test_MatrixCommandsRun :
    (let s := run 116 (mm 0x10 1 1 []) []; let b := padBase 23;
      heads s 116 0x10 false = true ∧ s.rerunHead 116 = none ∧ s.cmdOperand 116 (s.headWord 116) 128 20 32 = some b ∧ s.cmdOperand 116 (s.headWord 116) 152 20 32 = some b ∧
        s.cmdOperand 116 (s.headWord 116) 192 20 32 = some b ∧ devOf b = s.devId ∧ inPad 23 (localOf b) 128 = true ∧ localOf b % 128 = 0 ∧ clean s b = true ∧ (MxCmd.ofWord (s.headWord 116)).masken = false ∧
        within 23 s 116 b b b = true ∧ straight 23 s 116 b b b = true ∧ (MxCmd.ofWord (s.headWord 116)).loadw = true ∧ (MxCmd.ofWord (s.headWord 116)).hen = false) ∧
    (let s := run 116 (mm 0x11 1 0 []) []; let b := padBase 23;
      heads s 116 0x11 false = true ∧ within 23 s 116 b b b = true ∧ straight 23 s 116 b b b = true ∧ (MxCmd.ofWord (s.headWord 116)).loadw = false ∧ s.isSet (MXE_STAT_STV 23 1) = false) ∧
    (let s := (run 116 (mm 0x12 7 1 [(148, 1)]) []).wr (aQUE_BASE 116 1) (BitVec.ofNat 64 (padBase 23 + 1)); let b := padBase 23;
      heads s 116 0x12 false = true ∧ s.cmdOperand 116 (s.headWord 116) 128 20 32 = some (b + 1) ∧ within 23 s 116 (b + 1) b b = true ∧ straight 23 s 116 (b + 1) b b = false) ∧
    (let s := run 116 (mm 0x10 1 1 [(152, 2 ^ 20 - 1)]) []; let b := padBase 23; let x := b + (2 ^ 20 - 1) * 32;
      heads s 116 0x10 false = true ∧ s.cmdOperand 116 (s.headWord 116) 152 20 32 = some x ∧ within 23 s 116 b x b = false) := by
  decide +kernel

theorem test_MatrixRowResult :
    (let s := run 116 (mm 0x10 1 1 []) []; let b := padBase 23; let c := MxCmd.ofWord (s.headWord 116); let p := mxRep 23 c b b (s.auxWord b) 0;
      heads s 116 0x10 false = true ∧ s.rerunHead 116 = none ∧ c.rep = [1, 1, 1] ∧ c.rows = 1 ∧ c.masken = false ∧ c.hen = false ∧ c.csc = false ∧ c.epi = 0 ∧ c.acc = false ∧
        c.loadw = true ∧ c.op = 0x10 ∧ modeBlocks c.mode = false ∧ c.mode ≠ 3 ∧ c.mode ≠ 5 ∧ c.cvt.rnd ≠ 2 ∧ within 23 s 116 b b b = true ∧
        fmtIsBlock c.wfmt = false ∧ fmtIsBlock c.xfmt = false ∧ s.landings = [] ∧ p.bank < 2) := by
  decide +kernel

/-- ERUN with an empty program and one that names an absent input; ESTAMP's two forms, clean and poisoned. -/
theorem test_ElementCommandsRun :
    (∀ u ∈ [0, 2 ^ 26 + 16 * 2 ^ 16], (let s := run 2 (cmd 0x40 []) [(ELE_PROG_UOP 0 0 0, u)]; let wd (i : Nat) : Nat := s.readNat (padBase 0 + 4 * i) 4;
      heads s 2 0x40 true = true ∧ s.rerunHead 2 = none ∧ s.cmdOperand 2 (s.headWord 2) 128 20 32 = some (padBase 0) ∧ devOf (padBase 0) = s.devId ∧
        inPad 0 (padBase 0) 256 = true ∧ padBase 0 % 256 = 0 ∧ clean s (padBase 0) = true ∧ getBits (wd 49) 20 1 = 0 ∧
        (elementStreams 0 wd).map (fun x => if x.kind = 1 then s.operand 2 x.reg (x.off * 32) else some (s.devId * 2 ^ 48)) = (List.replicate 6 0).map some ∧
        ((ERun.ofWords 0 0 (s.headWord 2) wd (List.replicate 6 0) 0 (s.program 0 0) s).check = if u = 0 then none else some 0x2006))) ∧
    (∀ src < 2, (let s := run 2 (cmd 0x41 [(64, src), (152, 2)]) [];
      heads s 2 0x41 true = true ∧ s.cmdOperand 2 (s.headWord 2) 128 20 8 = some (padBase 0) ∧ s.cmdOperand 2 (s.headWord 2) 152 20 8 = some (padBase 0 + 16) ∧
        cmdGet (s.headWord 2) 64 2 = src ∧ inPad 0 (padBase 0) 8 = true ∧ inPad 0 (padBase 0 + 16) 8 = true ∧ s.poisoned (padBase 0 / 64) = false ∧
        ({ s with poison := [(padBase 0 / 64, true)] } : State).poisoned ((padBase 0 + 16) / 64) = true ∧
        heads { s with poison := [(padBase 0 / 64, true)] } 2 0x41 true = true)) := by
  decide +kernel

/-- A one-row FCOPY and FMOVE inside the scratchpad, and an FCOPY past its end. -/
theorem test_LocalCopies :
    (let s := run 118 (cmd 0x70 [(120, 1)]) []; let b := padBase 23; let j := FlmJob.of 118 { s.newIssued 118 with job := [b, b + 32, 0, 0, 0, 0] ++ List.replicate 14 0 };
      heads s 118 0x70 false = true ∧ s.rerunHead 118 = none ∧ s.flumeRoom 118 = true ∧ s.cmdOperand 118 (s.headWord 118) 96 20 32 = some b ∧
        s.cmdOperand 118 (s.headWord 118) 120 20 32 = some (b + 32) ∧ cmdGet (s.headWord 118) 248 1 = 0 ∧ fmtIsBlock j.sfmt = false ∧ j.check s = none ∧ j.sfmt = j.dfmt ∧
        j.add = false ∧ j.ten = false ∧ j.ssp = 0 ∧ j.dsp = 0 ∧ devOf b = s.devId ∧ s.get LPC_MIRSTAT_ACTIVE = 0 ∧ clean s b = true ∧ j.rows = 1 ∧
        j.rep0 = 1 ∧ j.rep1 = 1 ∧ flmRowBytes j.sfmt j.cols = 4 ∧ b + 1 * j.spitch + 4 < 2 ^ 48) ∧
    (let s := run 119 (cmd 0x71 [(96, 2)]) []; let b := padBase 23; let j := FlmJob.of 119 { s.newIssued 119 with job := [b, b + 64, 0, 0, 0, 0] ++ List.replicate 14 0 };
      heads s 119 0x71 false = true ∧ s.cmdOperand 119 (s.headWord 119) 72 20 32 = some b ∧ s.cmdOperand 119 (s.headWord 119) 96 20 32 = some (b + 64) ∧ j.check s = none ∧
        j.rows = 1 ∧ flmRowBytes j.sfmt j.cols = 64) ∧
    (let s := run 118 (cmd 0x70 [(120, 2 ^ 20 - 1)]) []; let b := padBase 23;
      let j := FlmJob.of 118 { s.newIssued 118 with job := [b, b + (2 ^ 20 - 1) * 32, 0, 0, 0, 0] ++ List.replicate 14 0 };
      heads s 118 0x70 false = true ∧ s.cmdOperand 118 (s.headWord 118) 120 20 32 = some (b + (2 ^ 20 - 1) * 32) ∧ j.check s = some 0x5001) := by
  decide +kernel

theorem test_TintAndMirrorSync :
    (∀ k < 2, heads (run 3 (cmd 0x72 [(67, 0), (68, k)]) []) 3 0x72 true = true ∧ (run 3 (cmd 0x72 [(68, k)]) []).rerunHead 3 = none) ∧
    (let s := run 3 (cmd 0x72 [(67, 1), (64, 7)]) []; heads s 3 0x72 true = true ∧ cmdGet (s.headWord 3) 67 1 = 1 ∧ s.cmdOperand 3 (s.headWord 3) 72 20 8 = some (padBase 0) ∧
      s.granted 3 (localOf (padBase 0)) 8 true = true ∧ s.get LPC_MIRSTAT_ACTIVE = 0 ∧ s.errs = [] ∧ s.badBridges = 0) ∧
    (∀ en < 2, ∀ lost < 2, (let s := run 3 (cmd 0x73 [(64, 15), (68, 1), (69, 511)]) [(LPC_MIRBASE_EN 15, en), (LPC_MIRSTAT_LOST, lost)];
      heads s 3 0x73 true = true ∧ s.get (LPC_MIRBASE_EN 15) = en ∧ (s.mirStopped = true ↔ lost = 1) ∧ s.fab.sends = [] ∧ cmdGet (s.headWord 3) 69 9 = 511)) ∧
    (let s := run 3 (cmd 0x73 [(64, 15)]) [(LPC_MIRBASE_EN 15, 1), (LPC_MIRSTAT_LOST, 1)]; heads s 3 0x73 true = true ∧ cmdGet (s.headWord 3) 68 1 = 0) := by
  decide +kernel

/-- An engine's command that has written a group and a line; a Flume's, and none; a ballast ramped up and down. -/
theorem test_ParityFaultsAbort :
    (let e : Issued := { idx := 8191, pass := 0, word := BitVec.ofNat 256 (cmd 0x10 []), groups := [(12287, true, [])], lines := [(0, false, [])], marks := [(1, 0), (1, 1)] };
      (({ up [] with ques := [(116, { issued := [e] })] } : State).que 116).issued = [] ++ [e] ∧ e.isEngine = true ∧ e.status ≠ .rerun ∧ (∀ g ∈ e.groups, g.1 < 12288) ∧ e.begunOf 1 = (1, 0) ∧ e.begunOf 2 = (1, 1) ∧ e.far = [] ∧ (up []).get LPC_MIRSTAT_ACTIVE = 0 ∧
        (({ up [] with ques := [(119, { issued := [e] })] } : State).que 119).issued.filter (fun e => e.isEngine && decide (e.status ≠ .rerun)) ≠ [] ∧
        ((up []).que 119).issued.filter (fun e => e.isEngine && decide (e.status ≠ .rerun)) = []) ∧
    (({ up [] with mxes := [(47, { prewake := true })] } : State).mxe 47).prewake = true ∧ ((up []).mxe 47).prewake = false ∧
    (up [(MXE_STAT_LEVEL 23 1, 1023)]).get (MXE_STAT_LEVEL 23 1) = 1023 ∧ ((up []).mxe 47).warm = false := by
  decide +kernel

/-! ### Tiles, loaders, scrubbing and the mirror -/

/-- A running tile at rest, one with a busy engine, one with a running queue, and tile 23 in each other phase. -/
theorem test_TileGating :
    ((up []).gate 23).phase = .powerGated ∧
    (let s := { up [(QUE_STAT_STATE 115, 3), (QUE_STAT_STATE 119, 5)] with gates := [(23, { phase := .running })] };
      (s.gate 23).phase = .running ∧ (∀ q ∈ setQueues 23, s.qstate q = qIdle ∨ s.qstate q = qWaiting ∨ s.qstate q = qParked ∨ s.qstate q = qFrozen) ∧ s.enginesIdle 23 = true ∧ s.padBusy 23 = false ∧ s.preWoken 23 = false) ∧
    (let s := { up [] with gates := [(23, { phase := .running })] }; (∀ q ∈ setQueues 23, s.qstate q = qIdle) ∧ s.enginesIdle 23 = true ∧ s.padBusy 23 = false ∧ s.preWoken 23 = false) ∧
    ({ up [] with ques := [(124, { lead := [23] })] } : State).preWoken 23 = true ∧
    ({ up [] with dmas := [(31, { desc := some (padBase 23 * 2 ^ 64) })] } : State).padBusy 23 = true ∧
    (let e : Issued := { idx := 0, pass := 0, word := BitVec.ofNat 256 (cmd 0x10 []), status := .busy }; ({ up [] with ques := [(116, { issued := [e] })] } : State).enginesIdle 23 = false) ∧
    (∃ q ∈ setQueues 23, (run 119 0 []).qstate q = qRunning) ∧
    (let s := { up [(TIL_GATE_PG_EN 23, 0), (QUE_STAT_STATE 115, 4)] with gates := [(23, { phase := .clockGated, pgEn := some true })] }; (s.gate 23).phase = .clockGated ∧ (∀ q ∈ setQueues 23, s.qstate q = qIdle ∨ s.qstate q = qParked ∨ s.qstate q = qFrozen) ∧
      (s.gate 23).pgEn = some true) ∧
    ((up [(TIL_GATE_PG_EN 23, 1)]).gate 23).pgEn ≠ some true ∧ (({ up [] with mxes := [(47, { prewake := true })] } : State).mxe 47).riseAt = none ∧
    (∀ ph ∈ [GatePhase.entering, .isolated, .powerGated, .waking], (({ up [] with gates := [(23, { phase := ph })] } : State).gate 23).phase = ph) ∧ (up []).mayWrite 0 true = true := by
  decide +kernel

theorem test_CountersClear : (let s := { up [] with gates := [(23, { phase := .running })] }; s.mayWrite 0 true = true ∧ (s.gate 23).phase = .running ∧ still s = true ∧ s.links = []) := by
  decide +kernel

theorem test_SeedAndRecordWrites : (let s := { up [(TIL_OVF_W7_AUTOCLR (tileOvfBase 23 63), 1)] with gates := [(23, { phase := .running })] };
    s.mayWrite 0 true = true ∧ (s.gate 23).phase = .running ∧ s.isSet (TIL_OVF_W7_AUTOCLR (tileOvfBase 23 63)) = true) := by
  decide +kernel

theorem test_FlagWrites : (up []).mayWrite 0 true = true ∧ (up []).ldBusy 24 = false ∧
    (let s := up [(TIL_LDSTAT_STATE 24, 1)]; s.mayWrite 0 true = true ∧ s.ldBusy 24 = true) := by
  decide +kernel

/-- Store `n` bytes of `v` at `a`. -/
def put (a n v : Nat) (s : State) : State := s.write a ((List.range n).map fun i => BitVec.ofNat 8 (v / 256 ^ i))

/-- The program image of one command `w` for queue 0, at `b`: MAGIC, FORMAT 1, the queues, TOTAL, and section 0. -/
def image (b w : Nat) (s : State) : State :=
  put (b + 128) 32 w <| put (b + 36) 4 1 <| put (b + 32) 4 128 <| put (b + 8) 4 160 <| put (b + 7) 1 1 <| put (b + 4) 2 1 <| put b 4 0x42564C45 s

/-- A load of 32 bytes up to tier 1's end that starts, and one of a set with a running queue; a save; an image that passes the Bolter, and
one of zeros that does not; a save record at address 0. -/
theorem test_LoaderCommands :
    (let s := up [(TIL_LDSRC_SRC 24, 0x020000000000 - 32), (TIL_LDLEN_LEN 24, 32)];
      s.mayWrite 0 true = true ∧ s.ldBusy 24 = false ∧ (∀ q ∈ setQueues 24, s.qstate q = qIdle) ∧ s.get (TIL_LDSRC_SRC 24) % 32 = 0 ∧
        inTier (s.get (TIL_LDSRC_SRC 24)) (s.get (TIL_LDLEN_LEN 24)) = true ∧ s.get (TIL_LDLEN_LEN 24) = 32 ∧ (0b100000 : BitVec 32).getLsbD 6 = false) ∧
    (∃ q ∈ setQueues 23, (run 119 0 []).qstate q ≠ qIdle) ∧ (up [(TIL_LDSTAT_STATE 24, 1)]).ldBusy 24 = true ∧
    (let s := up [(TIL_LDSTAT_MV 24, 1), (QUE_STAT_STATE 124, 4)]; s.ldBusy 24 = false ∧ (∀ q ∈ setQueues 24, s.qstate q = qIdle ∨ s.qstate q = qParked) ∧
      s.get (TIL_LDRSM_RSM 24) % 64 = 0 ∧ inTier (s.get (TIL_LDRSM_RSM 24)) recordSize = true ∧ s.isSet (TIL_LDSTAT_MV 24) = true ∧
      s.locked (s.get (TIL_LDRSM_RSM 24)) recordSize = false) ∧
    (let s := up [(TIL_LDRSM_RSM 24, mirrorBase), (LPC_MIRCTL_LOCK, 1)]; s.get (TIL_LDRSM_RSM 24) % 64 = 0 ∧ inTier (s.get (TIL_LDRSM_RSM 24)) recordSize = true ∧
      s.locked (s.get (TIL_LDRSM_RSM 24)) recordSize = true) ∧
    (let s := { image 64 (cmd 0 []) (up [(TIL_LDSTAT_STATE 3, ldLoading), (TIL_LDCTRL_MEAS 3, 0)]) with loads := [(3, { src := 64, len := 160 })] };
      let m : Image := { s := s.setLoad 3 {}, base := (s.load 3).src, len := (s.load 3).len, die := setDie 3 };
      s.ldState 3 = ldLoading ∧ (s.load 3).resume = false ∧ s.isSet (TIL_LDCTRL_MEAS 3) = false ∧ s.errs = [] ∧ m.bolt 3 none [] = none ∧ m.carries 0 = true ∧ m.qlen 0 = 1 ∧
        s.isSet (TIL_LDCTRL_AUTOSTART 3) = false) ∧
    (let s := { up [(TIL_LDSTAT_STATE 3, ldLoading), (TIL_LDCTRL_MEAS 3, 0)] with loads := [(3, { len := 160 })] };
      let m : Image := { s := s.setLoad 3 {}, base := (s.load 3).src, len := (s.load 3).len, die := setDie 3 };
      s.ldState 3 = ldLoading ∧ s.isSet (TIL_LDCTRL_MEAS 3) = false ∧ s.errs = [] ∧ m.bolt 3 none [] = some { code := 0x4001, queue := 7, index := 0 }) ∧
    (up []).ldState 24 ≠ ldLoading ∧ (up []).ldState 24 ≠ ldSaving ∧
    (let s := { up [(TIL_LDSTAT_STATE 24, ldSaving)] with loads := [(24, { rsm := 0 })] }; s.ldState 24 = ldSaving ∧ (s.load 24).rsm % 64 = 0 ∧ s.errs = [] ∧ s.badBridges = 0 ∧ s.locked 0 recordSize = false) := by
  decide +kernel

/-- A symbol at a line's last position; regions of the mirror that may be enabled, up to its end, and that may not. -/
theorem test_ScrubAndMirrorEnable :
    (∀ en < 2, (let s := up [(HBC_CTRL_SCRUB_EN, en)]; s.ready = true ∧ homeOf 0 = .stack 0 ∧ s.get HBC_CTRL_SCRUB_EN = en ∧ s.lineErrs 0 = [] ∧ s.poisoned 0 = false)) ∧
    (let s := up [(LPC_MIRLIM_LIMIT 15, 1)]; s.mayWrite 0 true = true ∧ s.isSet (LPC_MIRBASE_EN 15) = false ∧ s.mirMayEnable 15 = true) ∧
    (let s := up [(LPC_MIRBASE_BASE 15, 1)]; s.mirMayEnable 15 = false ∧ s.isSet (LPC_MIRBASE_EN 15) = false ∧ s.isSet LPC_MIRCTL_EN = false) := by
  decide +kernel

/-! ### Links -/

theorem calm_of {s : State} (n : Nat) (hf : still s = true) (hl : (s.link n).queue = [] ∧ (s.link n).frames = [] ∧ (s.link n).copies = []) : s.Calm n :=
  ⟨quiet_of hf, hl.1, hl.2.1, hl.2.2⟩

/-- `State.Takes` as a test. -/
def taking (s : State) (n : Nat) (c : CellBits) : Bool :=
  s.lanesUp n && !s.isEth n && crcOk c && decide (cVc c < 12) && decide (cType c < 11) && (decide (cType c < 4) || cLseq c == (s.link n).expect) &&
    (decide (cType c < 4) || decide (80 ≤ s.get (LNK_VCFREE_FREE n (cVc c))))

theorem takes_of {s : State} {n : Nat} {c : CellBits} (h : taking s n c = true) : s.Takes n c := by
  simp only [taking, Bool.and_eq_true, Bool.not_eq_true', Bool.or_eq_true, decide_eq_true_eq, beq_iff_eq] at h
  obtain ⟨⟨⟨⟨⟨⟨a, b⟩, d⟩, e⟩, f⟩, g⟩, i⟩ := h
  exact ⟨a, b, d, e, f, fun x => g.resolve_left (by omega), fun x => i.resolve_left (by omega)⟩

/-- Link `n` runs cells, ACTIVE, with one line of buffer on each VC. -/
def onLink (n : Nat) (l : List (FRef × Nat)) : State :=
  up ([(LNK_STAT_STATE n, lActive), (LNK_CTRL_EN n, 1)] ++ ((List.range 12).map fun v => (LNK_VCFREE_FREE n v, 80)) ++ l)

/-- The sealed cell of a type to device `dst` from device `src` on a VC, with LSEQ `seq` and ACKSEQ `ack`. -/
def arriving (ctype dst src vc seq ack pay : Nat) : CellBits :=
  sealCell (cellSet (cellSet (cellSet (mkCell ctype dst src 0 0 pay) 68 4 vc) 0 12 seq) 12 12 ack)

/-- Link 23 in each state, with nothing queued or waiting: enabled or not, held by LPM, not parked, its neighbour in low power, and under test. -/
theorem test_LinkControl : (∀ k < 7, (let s := up [(LNK_STAT_STATE 23, k), (LNK_CTRL_EN 23, 1)];
      s.mayWrite 0 true = true ∧ still s = true ∧ s.links = [] ∧ s.lstate 23 = k ∧ s.isSet (LNK_CTRL_EN 23) = true ∧ s.isSet (LNK_CTRL_PARK 23) = false)) ∧
    (let s := { up [(LNK_STAT_STATE 23, lHello)] with links := [(23, { shaken := true })] }; s.lstate 23 = lHello ∧ (s.link 23).shaken = true) ∧
    (let s := up [(LNK_STAT_STATE 23, lHello), (LNK_CFG_PORT 23, 7), (PRT_CFG_MODE 7, 1)]; s.lstate 23 = lHello ∧ s.isEth 23 = true) ∧
    (let s := up [(LNK_STAT_STATE 23, lParked), (LNK_CTRL_EN 23, 1), (LNK_CTRL_LPM 23, 1), (LNK_NBR_FLAGS 23, 4)];
      s.isSet (LNK_CTRL_LPM 23) = true ∧ s.lstate 23 = lParked ∧ (s.get (LNK_NBR_FLAGS 23)).testBit 2 = true) := by
  decide +kernel

/-- Link 23 in each state, in both personalities, with and without copies, below and at RETRY.MAX, FCAUSE 4, and three failures before. -/
theorem test_LinkTimers : (∀ k < 7, (let s := onLink 23 [(LNK_STAT_STATE 23, k)]; still s = true ∧ (s.link 23).queue = [] ∧ (s.link 23).frames = [] ∧ (s.link 23).copies = [] ∧
      s.lstate 23 = k ∧ s.isEth 23 = false ∧ (s.link 23).shaken = false)) ∧
    (let s := up [(LNK_STAT_STATE 23, lTraining), (LNK_CFG_PORT 23, 7), (PRT_CFG_MODE 7, 1)]; s.lstate 23 = lTraining ∧ s.isEth 23 = true) ∧
    (let s := { up [(LNK_STAT_STATE 23, lHello)] with links := [(23, { shaken := true })] }; (s.link 23).shaken = true) ∧
    (∀ c ∈ [3, 4], ∀ auto < 2, (let s := up [(LNK_STAT_STATE 23, lFailed), (LNK_CTRL_AUTORETRAIN 23, auto), (LNK_STAT_FCAUSE 23, c)];
      s.lstate 23 = lFailed ∧ s.get (LNK_CTRL_AUTORETRAIN 23) = auto ∧ s.get (LNK_STAT_FCAUSE 23) = c)) ∧
    (∀ k < 2, (let s := { onLink 23 [(LNK_RETRY_MAX 23, 1)] with links := [(23, { copies := [0], sameReplays := k, failTimes := [0, 0, 0] })] };
      s.lanesUp 23 = true ∧ s.isEth 23 = false ∧ (s.link 23).copies ≠ [] ∧ s.get (LNK_RETRY_MAX 23) = 1 ∧ (s.link 23).sameReplays = k ∧ still s = true ∧
        ((s.link 23).failTimes.filter fun u => decide (s.since u < 240000000000)).length = 3)) := by
  decide +kernel

/-- An idle link; one with a cell to send; an IDLE that acknowledges a copy, a HELLO, a NAK of the first copy; cells with a bad
check, and of a reserved type; a NAK sent before. -/
theorem test_LinkCells :
    (let s := onLink 23 []; still s = true ∧ s.lanesUp 23 = true ∧ s.isEth 23 = false ∧ (s.link 23).queue = [] ∧ (s.link 23).copies.length < 4095 ∧ (s.link 23).lastNak = none) ∧
    (let c := arriving ctSignal 0 5 11 0 0 0; (({ onLink 23 [(LNK_STAT_STATE 23, lParked)] with links := [(23, { queue := [{ cell := c }] })] } : State).lstate 23 ≠ lActive) ∧
      let s := { onLink 23 [] with links := [(23, { queue := [{ cell := c }] })] };
      s.lstate 23 = lActive ∧ (s.link 23).queue = [{ cell := c }] ∧ cVc c < 12 ∧ (s.link 23).txOn.testBit (cVc c) = true ∧ (s.link 23).copies.length < 4095) ∧
    (let s := { onLink 23 [] with links := [(23, { copies := [0], txSeq := 0 })] }; let l := s.link 23;
      (let c := arriving ctIdle 0xFFFF 5 0 0 0 0; taking s 23 c = true ∧ cType c = ctIdle ∧ (cAckseq c + 4096 - l.ackd) % 4096 ≤ (l.txSeq + 4096 - l.ackd) % 4096) ∧
      (let c := arriving ctLink 0xFFFF 5 0 0 4095 0; taking s 23 c = true ∧ cType c = ctLink ∧ payNat c 0 2 < 4096 ∧ cAckseq c = l.ackd ∧ l.sameReplays < s.get (LNK_RETRY_MAX 23) ∧
        (payNat c 0 2 + 8191 - l.ackd) % 4096 ≤ (l.txSeq + 4096 - l.ackd) % 4096 ∧ (payNat c 0 2 + 8191 - l.ackd) % 4096 < l.copies.length)) ∧
    (let c := arriving ctHello 0xFFFF 5 0 0 4095 0; taking (onLink 23 []) 23 c = true ∧ cType c = ctHello ∧ ((onLink 23 []).link 23).copies = []) ∧
    crcOk (cellSet (arriving ctIdle 0 0 0 0 0 0) 36 16 (cellCrc (arriving ctIdle 0 0 0 0 0 0) + 1)) = false ∧
    (let s := { onLink 23 [] with links := [(23, { lastNak := some (0, 0) })] }; (s.link 23).lastNak = some ((s.link 23).expect, 0) ∧ s.since 0 < 2000) ∧
    (let c := arriving 11 0 5 0 0 0 0; crcOk c = true ∧ 11 ≤ cType c ∧ cLseq c = ((onLink 23 []).link 23).expect) := by
  decide +kernel

/-- Every check passing, one failing at link 23, armed plans, evaluable links, and a table of a shade retired or not. -/
theorem test_PlanAndTables :
    (let s := up []; s.mayWrite 0 true = true ∧ still s = true ∧ s.links = [] ∧ ∀ n < 24, s.linkCheck n = 0) ∧
    (let s := up [(LNK_PLAN_STATE 23, 1)]; s.linkCheck 23 ≠ 0 ∧ ∀ m < 23, s.linkCheck m = 0) ∧
    (up []).armed = false ∧ (up [(PRT_PLANSTAT_ARMED, 1)]).armed = true ∧
    (∀ n < 24, (up ((List.range 24).map fun n => (LNK_STAT_STATE n, lParked))).lstate n = lParked) ∧
    (∀ n < 24, (up []).lstate n = lDown) ∧
    (∀ sh < 2, ∀ v < 2, (up [(shadeRef sh, v)]).shade sh = v) := by
  decide +kernel

/-! ### The fabric -/

/-- A received segment, from device 5 in class REQ, number 1023. -/
def segOf (op flags len addr : Nat) : Reasm :=
  { src := 5, cls := kReq, msg := 1023, cells := segment (up []).devId 5 op flags 0 len addr 0 (if op = 2 then [] else List.replicate len 7) fun _ => false }

/-- A POST that waits for its answer. -/
def posting : Issued := { idx := 0, pass := 0, word := BitVec.ofNat 256 (cmd 5 []), status := .busy }

/-- A message to device 5 in class REQ, number 0, one cell, on behalf of `o`. -/
def sending (o : Origin) (tries : Nat) : Send := { uid := 1, dst := 5, cls := kReq, msg := some 0, cells := [mkCell ctNotice 5 0 0 0 0], tries := tries, origin := o }

/-- Cells of each type for this device, from device 5: a segment's first and next, a SIGNAL for the last flag, of another role, and
one seen before, NOTICEs of each kind, a FLUSH, and answers to one message. -/
theorem test_CellsForThisDevice :
    (let s := onLink 23 []; let d := s.devId;
      still s = true ∧ s.dedupFull kReq = false ∧ s.isDup 5 kReq 0 = false ∧ 5 ≠ s.devId ∧
      (∀ x ∈ [(ctSegf, 1), (ctSegf, 5), (ctSignal, s.get GLB_ROLEGEN_RGEN + 24 * 2 ^ 16 + 511 * 2 ^ 32), (ctSignal, s.get GLB_ROLEGEN_RGEN + 1), (ctFlush, 2 ^ 24),
          (ctNotice, 2 ^ 128 + 47 * 2 ^ 136 + s.mailRole 47 * 2 ^ 112), (ctNotice, 2 ^ 128 + 47 * 2 ^ 136 + (s.mailRole 47 + 1) * 2 ^ 112),
          (ctNotice, 3 * 2 ^ 128 + 2 ^ 144), (ctNotice, 3 * 2 ^ 128 + 4 * 2 ^ 144 + 4 * 2 ^ 152)],
        (let c := arriving x.1 d 5 4 0 0 x.2; taking s 23 c = true ∧ cType c = x.1 ∧ 4 ≤ cType c ∧ cDst c = s.devId ∧ vcClass (cVc c) = kReq ∧ cSrc c = 5 ∧ cMsg c = 0 ∧ payNat c 0 64 = x.2)) ∧
      unitQueue 4 4 = some 124 ∧ s.mailHeld 47 < 16 ∧ 16 ≤ (onLink 23 [(MBX_PROD_PROD 47, 16)]).mailHeld 47 ∧ (onLink 23 [(RTE_FLSTAT_DONE, 0)]).isSet RTE_FLSTAT_DONE = false) ∧
    (let s := { onLink 23 [] with fab := { dedup := [(5, kReq, 0)] } }; s.isDup 5 kReq 0 = true) ∧
    (let s := { onLink 23 [] with fab := { reasm := [{ segOf 1 0 65 0 with cells := (segOf 1 0 65 0).cells.take 1, msg := 0 }] } };
      let r := { segOf 1 0 65 0 with cells := (segOf 1 0 65 0).cells.take 1, msg := 0 }; let c := arriving ctSeg s.devId 5 4 0 0 0;
      s.fab.reasm = [r] ∧ r.is (cSrc c) (vcClass (cVc c)) (cMsg c) = true ∧ r.cells ≠ [] ∧ payNat r.desc 0 1 = 1 ∧ taking s 23 c = true ∧ s.fab.sends = []) ∧
    (let m := sending (.post 124) 0; let s := { onLink 23 [(QUE_STAT_STATE 124, 3)] with fab := { sends := [m] }, ques := [(124, { issued := [posting] })] }; let d := s.devId;
      s.fab.sends = [m] ∧ s.fab.adapt = [] ∧ s.fab.inbox = [] ∧ m.dst = 5 ∧ m.cls = kReq ∧ m.msg = some 0 ∧ m.origin = .post 124 ∧ m.cells.all (fun x => cDst x != s.devId) = true ∧
      ((s.que 124).issued.find? fun e => opcode e.word == 5 && decide (e.status = .busy)) = some posting ∧ s.qstate 124 = qWaiting ∧
      (∀ x ∈ [(ctGrant, kReq * 2 ^ 16 + 2 ^ 24), (ctGrant, kReq * 2 ^ 16), (ctRefuse, kReq * 2 ^ 16 + 2 ^ 24), (ctRefuse, kReq * 2 ^ 16),
          (ctNotice, 2 * 2 ^ 128 + queueKind 124 * 2 ^ 144 + queueUnit 124 * 2 ^ 152)],
        (let c := arriving x.1 d 5 7 0 0 x.2; taking s 23 c = true ∧ cType c = x.1 ∧ cDst c = s.devId ∧ vcClass (cVc c) ≠ kCol ∧ cSrc c = 5 ∧ payNat c 0 64 = x.2)) ∧
      s.dedupFull kReq = false ∧ s.isDup 5 kReq 0 = false) := by
  decide +kernel

/-- Whole segments of each operation, exposed or not, seen before or not; mirrored ones from the partner and another; and a part of a remote copy. -/
theorem test_SegmentsAppliedOnce :
    (∀ op ∈ [1, 2, 4, 5], (let r := segOf op 0 4 mirrorBase;
      let s := { up [(RTE_EXPBASE_R 15, 1), (RTE_EXPBASE_W 15, 1), (RTE_EXPBASE_ADD 15, 1), (RTE_EXPLIM_LIMIT 15, 2 ^ 36 - 1), (LPC_MIRPART_INSRC, 5), (LPC_MIRCTL_LOCK, 0)] with fab := { reasm := [r] } };
      s.fab.adapt = [] ∧ s.fab.inbox = [] ∧ s.fab.sends = [] ∧ s.fab.reasm.find? (·.is 5 kReq 1023) = some r ∧ r.whole = true ∧ s.badBridges = 0 ∧ 5 ≠ s.devId ∧ s.errs = [] ∧ s.poison = [] ∧
        s.isDup 5 kReq 1023 = false ∧ s.dedupFull kReq = false ∧ (payNat r.desc 1 1).testBit 0 = false ∧ payNat r.desc 0 1 = op ∧ r.addr % 4 = 0 ∧ r.len % 4 = 0 ∧
        (op = 5 ∨ s.exposed 5 op r.addr r.len = true) ∧ r.src = s.get LPC_MIRPART_INSRC ∧ payNat r.desc 2 2 = s.get GLB_ROLEGEN_RGEN ∧ mirrorBase ≤ r.addr ∧ r.addr + r.len ≤ tier2End ∧
        (up []).exposed 5 op r.addr r.len = false ∧ r.src ≠ (up []).get LPC_MIRPART_INSRC ∧ { s with fab := { s.fab with dedup := [(5, kReq, 1023)] } }.isDup 5 kReq 1023 = true)) ∧
    (let r := segOf 1 1 4 0; (payNat r.desc 1 1).testBit 0 = true ∧ payNat r.desc 2 2 ≠ (up [(GLB_ROLEGEN_RGEN, 65535)]).get GLB_ROLEGEN_RGEN) ∧
    (let e : Issued := { idx := 0, pass := 0, uid := 9, word := BitVec.ofNat 256 (cmd 0x70 [(160, 1)]), job := [5 * 2 ^ 48, 0] ++ List.replicate 18 0, status := .busy };
      let m := sending (.remote 118 9 1) 0; let r := { segOf 3 0 4 0 with cls := kRsp };
      let s := { up [] with ques := [(118, { issued := [e] })], fab := { sends := [m], reasm := [r] } };
      s.fab.sends = [m] ∧ s.fab.reasm.find? (·.is 5 kRsp 1023) = some r ∧ r.whole = true ∧ payNat r.desc 0 1 = 3 ∧ s.isDup r.src r.cls r.msg = false ∧ s.dedupFull r.cls = false ∧
        m.dst = r.src ∧ m.cls = kReq ∧ m.msg = some (payNat r.desc 16 2 % 1024) ∧ m.origin = .remote 118 9 1 ∧ s.findIssued 118 9 = some e ∧ (∀ x ∈ (s.que 118).issued, x.asking = false) ∧
        (∃ p ∈ (FlmJob.of 118 e).pieces s, p.1 ≠ 1 ∧ ∀ x ∈ e.parts, x.1 ≠ p.1)) := by
  decide +kernel

/-- A cell waiting at the router with its escape link ACTIVE; messages below and at XPORT.MAX, of each origin. -/
theorem test_TransportTimers : still (up []) = true ∧
    (let x : QCell := { cell := arriving ctSegf 5 0 6 0 0 0 };
      let s := { st [(LNK_STAT_STATE 23, lActive), (LNK_CFG_PORT 23, 0)] with fab := { adapt := [x] } }.wr (aRTE_LTAB 5) 0x80000000;
      s.fab.adapt = [x] ∧ s.fab.inbox = [] ∧ s.fab.sends = [] ∧ s.escapeStep (s.entryOf (cShade x.cell) (cDst x.cell)) (vcClass (cVc x.cell)) none = .inr (0, 5) ∧
        s.memberLink 0 x.cell = some 23 ∧ s.isEth 23 = false ∧ x.inp = none) ∧
    (let m := sending .none 0; let s := { up [(RTE_XPORT_MAX, 1)] with fab := { sends := [m] } };
      s.fab.sends = [m] ∧ m.msg = some 0 ∧ m.cells.all (fun x => cDst x != s.devId) = true ∧ m.tries < s.get RTE_XPORT_MAX) ∧
    (∀ o ∈ [Origin.none, .reply, .signal 124 7 0, .post 124], (let m := sending o 1; let s := { up [(RTE_XPORT_MAX, 1), (QUE_STAT_STATE 124, 3)] with fab := { sends := [m] }, ques := [(124, { issued := [posting] })] };
      s.fab.sends = [m] ∧ s.get RTE_XPORT_MAX ≤ m.tries ∧ m.origin = o ∧ ((s.que 124).issued.find? fun e => opcode e.word == 5 && decide (e.status = .busy)) = some posting ∧
        s.qstate 124 = qWaiting ∧ s.get (QUE_STAT_WHY 124) ≠ 3 ∧ (up [(QUE_STAT_STATE 124, 2)]).qstate 124 ≠ qWaiting)) := by
  decide +kernel

/-- The shades in each pair of states; reports before and after, changed and unchanged; whole and unfinished flushes. -/
theorem test_ShadesAndFlush : (up []).mayWrite 0 true = true ∧ still (up []) = true ∧
    (∀ a < 4, ∀ b < 4, (let s := up [(shadeRef 0, a), (shadeRef 1, b)]; s.shade 0 = a ∧ s.shade 1 = b)) ∧ (∀ k < 2, (up [(RTE_CTRL_STAMP, k)]).stamp = k) ∧
    (up [(RTE_FLCFG_COORD, (up []).devId)]).get RTE_FLCFG_COORD = (up []).devId ∧
    (∀ ej < 2, (let s := { up [(shadeRef 0, 1), (shadeRef 1, 3), (RTE_CTRL_FLREP, 1), (RTE_SHEJ_CNT 1, 1)] with fab := { flushSent := some (1, ej, 0) } };
      s.shade 1 = shDraining ∧ s.shade 0 ≠ shDraining ∧ s.isSet RTE_CTRL_FLREP = true ∧ s.fab.flushSent = some (1, ej, 0) ∧ s.get (RTE_SHEJ_CNT 1) = 1 ∧ s.get (RTE_SHDROP_CNT 1) = 0)) ∧
    (up [(RTE_CTRL_FLREP, 0)]).isSet RTE_CTRL_FLREP = false ∧ ({ up [] with fab := { flushGuard := true } } : State).fab.flushGuard = true ∧
    (∀ n < 2, (let s := up [(RTE_FLCFG_NDEV, 1), (RTE_FLSTAT_REPORTED, n)];
      (s.get RTE_FLSTAT_REPORTED = s.get RTE_FLCFG_NDEV ∧ s.get RTE_FLINJ_SUM ≤ s.get RTE_FLEJ_SUM + s.get RTE_FLDROP_SUM) ↔ n = 1)) := by
  decide +kernel

/-! ### Ethernet and fabric time -/

/-- Link 23 in the Ethernet personality, ACTIVE, with a line of buffer on each VC. -/
def onEth (l : List (FRef × Nat)) : State := onLink 23 ([(LNK_CFG_PORT 23, 7), (PRT_CFG_MODE 7, 1)] ++ l)

/-- A frame of these bytes, with its check sequence. -/
def framed (bs : List Nat) : List (BitVec 8) := (bs ++ leBytes 4 (crc32 bs)).map (BitVec.ofNat 8)

/-- The bytes of a frame of one cell to a UDP port: 14 of Ethernet, 40 of IPv6, 8 of UDP, 8 of header, and the cell. -/
def oneCell (port : Nat) (c : CellBits) : List Nat :=
  List.replicate 12 0 ++ [0x86, 0xDD] ++ List.replicate 6 0 ++ [17] ++ List.replicate 35 0 ++ [port / 256, port % 256, 0, 88, 0, 0, 1, 1] ++ List.replicate 6 0 ++
    (leBytes 80 c.toNat).drop 8

/-- A TLV of this block's own. -/
def ownTlv (s : State) (x : Nat × List Nat) : Bool := x.1 == 127 && x.2.length == 32 && beAt x.2 0 3 == s.get RTE_LLDP_OUI && beAt x.2 3 1 == 1

/-- A frame to send; received ones good, bad and for another port, with room and without; PFC on and off; LLDPDUs with TTL 0, from a
switch, and from a neighbour. -/
theorem test_EthernetRows :
    (∀ pfc < 2, (let s := force [(aRTE_LLDP, pfc)] (onEth [(RTE_ETHCFG_PFC, pfc)]); s.isEth 23 = true ∧ s.lstate 23 = lActive ∧ s.lanesUp 23 = true ∧ s.get RTE_ETHCFG_PFC = pfc ∧
      s.get RTE_LLDP_INTERVAL = pfc)) ∧
    (let s := onEth []; still s = true ∧ s.links = [] ∧ (s.link 23).pfcStopped.testBit (s.classPcp kReq) = false ∧ (s.link 23).pfcSent.testBit kReq = false) ∧
    (let f : FrameAsm := { cls := kReq, gw := 255, cells := [{ cell := 0 }, { cell := 0 }] }; let s := { onEth [(RTE_ETHCFG_PFC, 0), (RTE_ETHCFG_TAG, 0)] with links := [(23, { frames := [f] })] };
      (s.link 23).frames = [f] ∧ f.cells.all (fun x => x.inp == none) = true ∧ s.isSet RTE_ETHCFG_PFC = false ∧ s.isSet RTE_ETHCFG_TAG = false) ∧
    (let s := { onEth [(RTE_ETHCFG_PFC, 1)] with links := [(23, { pfcSent := 31, rxOn := 0 })] }; (s.link 23).pfcSent.testBit kReq = true ∧ s.classHeld 23 kReq = true) := by
  decide +kernel

theorem test_EthernetRows_frames :
    (let s := onEth [(RTE_ETHCFG_PFC, 0), (RTE_ETHCFG_UDPPORT, 1), (PRT_PROTO_PVSET, 1)]; let p := s.get GLB_ROLEGEN_RGEN + 24 * 2 ^ 16 + 511 * 2 ^ 32;
      let c := arriving ctSignal s.devId 5 4 0 0 p; let bs := (framed (oneCell 1 c)).map (·.toNat);
      bs.length = 146 ∧ leNat (bs.drop (bs.length - 4)) = crc32 (bs.take (bs.length - 4)) ∧ beAt bs 12 2 = 0x86DD ∧ beAt bs 20 1 = 17 ∧ beAt bs 56 2 = s.get RTE_ETHCFG_UDPPORT ∧
        beAt bs 62 1 = 1 ∧ (s.get PRT_PROTO_PVSET).testBit 0 = true ∧ beAt bs 63 1 = 1 ∧ beAt bs 58 2 = 88 ∧
        (let c := (frameCells bs 1 70).headD 0; cVc c < 12 ∧ vcClass (cVc c) ≠ kCol ∧ cType c = ctSignal ∧ cDst c = s.devId ∧ 80 ≤ s.get (LNK_VCFREE_FREE 23 (escVc (vcClass (cVc c)))) ∧
          (onEth [(LNK_VCFREE_FREE 23 4, 79)]).get (LNK_VCFREE_FREE 23 (escVc (vcClass (cVc c)))) < 80 ∧ s.isDup (cSrc c) kReq (cMsg c) = false ∧ s.dedupFull kReq = false ∧
          payNat c 0 2 = s.get GLB_ROLEGEN_RGEN ∧ payNat c 2 1 = 24 ∧ payNat c 4 2 = 511)) ∧
    (let s := onEth [(RTE_ETHCFG_PFC, 0), (RTE_ETHCFG_UDPPORT, 1)]; let bs := (framed (oneCell 2 0)).map (·.toNat); bs.length = 146 ∧ leNat (bs.drop (bs.length - 4)) = crc32 (bs.take (bs.length - 4)) ∧
      beAt bs 12 2 = 0x86DD ∧ beAt bs 56 2 ≠ s.get RTE_ETHCFG_UDPPORT) := by
  decide +kernel

theorem test_EthernetRows_lldp :
    (let s := force [(aRTE_LLDP, 0x10A)] (onEth [(RTE_ETHCFG_PFC, 0)]);
      (let ts := tlvs 4 [6, 2, 0, 0]; (ts.find? (·.1 == 3)) = some (3, [0, 0])) ∧
      (let ts := tlvs 4 [6, 2, 0, 1]; (ts.find? (·.1 == 3)) = some (3, [0, 1]) ∧ beAt [0, 1] 0 2 ≠ 0 ∧ ts.find? (ownTlv s) = none) ∧
      (let body := [0, 0, 1, 1] ++ List.replicate 28 255; let ts := tlvs 38 ([6, 2, 0, 1, 254, 32] ++ body); (ts.find? (·.1 == 3)) = some (3, [0, 1]) ∧ ts.find? (ownTlv s) = some (127, body) ∧
        body.all (· < 256) = true)) := by
  decide +kernel

/-- In mode `m` with parent 23 and alternate 22; request 255 waits at link 23. -/
def follower (m : Nat) : State :=
  { onLink 23 [(FTM_CFG_MODE, m), (FTM_CFG_PARENT, 23), (FTM_STAT_ACTPARENT, 23), (FTM_CFG_ALTPARENT, 22), (FTM_CFG_ALTEN, 1), (LNK_STAT_LOCK 23, 1), (FTM_NOW_NOW, 2 ^ 40), (FTM_THR_STEPTHR, 1)]
    with ftm := { role := (m, 23, 22), asked := [(23, some (255, 0))] } }

/-- Each mode; a parent lost with and without an alternate. -/
theorem test_TimeExchange :
    (∀ m < 3, (let s := follower m; s.ftm.role = (s.get FTM_CFG_MODE, s.get FTM_CFG_PARENT, s.get FTM_CFG_ALTPARENT) ∧ still s = true ∧ s.timeLink 23 = true ∧ s.timeLink 22 = false ∧
      s.get FTM_CFG_MODE = m ∧ s.get FTM_STAT_ACTPARENT = 23 ∧ s.get FTM_CFG_ALTPARENT = 22 ∧ s.isSet FTM_CFG_ALTEN = true)) ∧
    (let s := { onLink 22 [(LNK_STAT_LOCK 22, 1), (FTM_CFG_ALTPARENT, 22), (FTM_CFG_ALTEN, 1)] with ftm := { heard := [(22, some { sync := true, hold := false, depth := 126, root := 0 })] } };
      s.usable 22 = true ∧ s.usable 23 = false) := by
  decide +kernel

/-- A request, and a reply at depth 126 that shows an offset at STEPTHR, and beyond it. -/
theorem test_TimeExchange_cells :
    (let s := follower 2; let c := arriving ctTime 0xFFFF 5 0 0 0 1; taking s 23 c = true ∧ cType c = ctTime ∧ payNat c 0 1 = 1) ∧
    (let s := follower 2; let c := arriving ctTime 0xFFFF 5 0 0 0 (2 + 2 ^ 8 + 126 * 2 ^ 16 + 255 * 2 ^ 24);
      taking s 23 c = true ∧ cType c = ctTime ∧ payNat c 0 1 = 2 ∧ tabGet (fun _ => none) s.ftm.asked 23 = some (payNat c 3 1, 0) ∧ s.asym 23 = 0 ∧ payNat c 2 1 + 1 ≤ 127 ∧
        (payNat c 1 1).testBit 0 = true ∧ timeRead c 16 24 = 0 ∧ timeRead c 28 36 = 0 ∧ 64 / 16 ≤ s.now ∧ 32 / 2 ≤ s.get FTM_THR_STEPTHR * 16 ∧ s.get FTM_THR_STEPTHR * 16 < 64 / 2) := by
  decide +kernel

/-- A TIME_PPS root with edges at the second, 64,000,000 sixteenths after it, and beyond; LOAD due or not; each mode. -/
theorem test_PulseCaptureAndLoad :
    (∀ m < 4, (let s := { up [(FTM_CFG_MODE, m), (FTM_NOW_NOW, 2 ^ 60), (FTM_STAT_PPSLOCK, 1)] with ftm := { role := (m, 0, 0) } }; s.mayWrite 0 true = true ∧ s.get FTM_CFG_MODE = m ∧
      s.ftm.role = (s.get FTM_CFG_MODE, s.get FTM_CFG_PARENT, s.get FTM_CFG_ALTPARENT) ∧ s.isSet FTM_STAT_PPSLOCK = true ∧ s.ppsOffset 0 = 0 ∧ s.ppsOffset 64000000 = 64000000 ∧
        s.ppsOffset 64000001 = 64000001 ∧ 64000001 / 16 ≤ s.now ∧ s.ftm.loadDue = false ∧ ({ s with ftm := { s.ftm with loadDue := true, ppsIgnored := 3 } } : State).ftm.ppsIgnored = 3)) ∧
    (∀ k < 2, (let s := up [(FTM_PPSCFG_OUTEN, k)]; s.get FTM_PPSCFG_OUTEN = k ∧ s.now + 5000000000 < 2 ^ 64)) := by
  decide +kernel

/-! ### Collectives -/

/-- A collective command of wheel 3 in INT32, without a second axis; its operands are 1,024 bytes apart. -/
def wheelWord (op : Nat) (l : List (Nat × Nat)) : Nat := cmd op ([(80, fINT32), (90, 7), (120, 32), (144, 64), (168, 96)] ++ l)

/-- Whether it begins at the head of queue 123 in `s` on a ring of `n`, and ends its checks with `status`. -/
def issuing (op n status : Nat) (s : State) : Bool :=
  let w := s.headWord 123
  let r := wheelPlan 3 (s.newIssued 123) (s.localAddr 0) (s.localAddr 1024) (s.localAddr 2048) (s.localAddr 3072) (bumpUid s)
  heads s 123 op true && s.rerunHead 123 == none && s.cmdOperand 123 w 96 20 32 == some 0 && s.cmdOperand 123 w 120 20 32 == some 1024 &&
    s.cmdOperand 123 w 144 20 32 == some 2048 && s.cmdOperand 123 w 168 20 32 == some 3072 && s.ringSize 3 == n && wAxis2 w == 7 && (s.wheel 3).early.isEmpty &&
    s.errs == [] && r.2.c.vmode == 0 && !wDirect w && r.2.status 3 (r.1.set (WHL_SEQ_SEQ 3) (r.2.c.seq + 1)) == status

/-- Each collective on a ring of one, one element (PERMUTE none); SHIFT by one place on an armed ring of two; the same unarmed; on a ring of one, which
fails; and one whose table of lengths lies past 48 bits. -/
theorem test_CollectivesIssue : (∀ op ∈ [0x90, 0x91, 0x92, 0x93, 0x94], issuing op 1 0 (run 123 (wheelWord op [(192, 1)]) []) = true) ∧
    issuing 0x96 1 0 (run 123 (wheelWord 0x96 []) []) = true ∧
    (let s := run 123 (wheelWord 0x95 [(192, 1), (224, 1)]) [(RTE_AXIS_SIZE 3, 1), (PRT_PLANSTAT_ARMED, 1)]; issuing 0x95 2 0 s = true ∧ s.armed = true) ∧
    (let s := run 123 (wheelWord 0x95 [(192, 1), (224, 1)]) [(RTE_AXIS_SIZE 3, 1)]; s.ringSize 3 ≠ 1 ∧ s.armed = false ∧ still s = true) ∧
    issuing 0x95 1 6 (run 123 (wheelWord 0x95 [(192, 1)]) []) = true ∧
    (let s := ({ run 123 (wheelWord 0x90 [(192, 1), (93, 1)]) [] with mem := [(3080, 1), (3082, 16)] } : State).wr (aQUE_BASE 123 1) (BitVec.ofNat 64 (2 ^ 48 - 32));
      heads s 123 0x90 true = true ∧ (wheelPlan 3 (s.newIssued 123) (s.localAddr 0) (s.localAddr 1024) (s.localAddr 2048) (s.localAddr 3072) (bumpUid s)).2.carry = true) := by
  decide +kernel

/-- The COL cell of a type for wheel 3 of this device, its index and payload. -/
def colCell (ctype idx pay : Nat) : CellBits := sealCell (cellSet (mkCell ctype (up []).devId 5 (3 * 256) idx pay) 68 4 2)

/-- An ALLTOALL of wheel 3 at part `stages`. -/
def running (stages : List WStage) : Coll :=
  { uid := 1, idx := 0, word := BitVec.ofNat 256 (wheelWord 0x94 []), seq := 9, digest := 7, step := 0, n := (2, 1), r := (0, 0), lens := [1, 1], newLens := [], src := 0, dst := 1024, res := 2048,
    vrec := 0, dstLen := 2, aux := [], stages := stages, started := true }

/-- Link 23 belongs to axis 3, ascending or descending. -/
def onRing (c : Option Coll) (l : LinkSt) (r : List (FRef × Nat)) : State :=
  { onLink 23 ([(LNK_CFG_PORT 23, 7)] ++ r) with wheels := [(3, { coll := c })], links := [(23, l)] }

theorem test_CollectiveCells :
    (∀ x ∈ [(ctGrant, 1 + 9 * 2 ^ 16 + 3 * 2 ^ 32), (ctGrant, 2 + 9 * 2 ^ 16 + 3 * 2 ^ 64), (ctGrant, 3), (ctSeg, 0)],
      (let s := onRing none {} []; let c := colCell x.1 1 x.2;
        taking s 23 c = true ∧ 4 ≤ cType c ∧ cType c = x.1 ∧ vcClass (cVc c) = kCol ∧ cDst c = s.devId ∧ cMsg c / 256 = 3 ∧ payNat c 0 64 = x.2 ∧ cIdx c = 1)) ∧
    (let s := onRing none {} []; still s = true ∧ s.lport 23 / 2 = 3 ∧ (s.wheel 3).coll = none ∧ (s.wheel 3).lastSeq ≠ some 9) ∧
    (let c := running []; let s := onRing (some c) {} []; (s.wheel 3).coll = some c ∧ c.seq = 9 ∧ c.wayIn 3 3 = some 0 ∧ c.stages = [] ∧ c.queue = []) ∧
    (let c := running [.close 0]; c.stages = [.close 0] ∧ c.started = true ∧ c.queue = [] ∧ c.mask.1 ||| 3 = 2 ^ c.n.1 - 1) ∧
    (let c := running [.move]; c.op = opAlltoall ∧ c.stages.head? = some .move ∧ c.started = true ∧ c.got = []) := by
  decide +kernel

/-- Headers of a chunk of one cell, with another SEQ and with its own. -/
theorem test_CollectiveCells_chunk : (let d := colCell ctSegf 0 (4 + 2 ^ 9 + 9 * 2 ^ 16 + 7 * 2 ^ 32 + 2 ^ 80); (payNat d 1 1).testBit 1 = true ∧ payNat d 2 2 = 9) ∧ ∀ k ∈ [8, 9], (let c := running [.move]; let d := colCell ctSegf 0 (4 + k * 2 ^ 16 + 7 * 2 ^ 32 + 2 ^ 80); let s := onRing (some c) { rxCol := [(3, [d])] } [];
    ((s.link 23).rxCol.find? (·.1 == 3)) = some (3, [d]) ∧ payNat d 10 2 = 1 ∧ (s.wheel 3).lastSeq ≠ some (payNat d 2 2) ∧ payNat d 2 2 = k ∧ c.seq = 9 ∧ payNat d 4 4 = c.digest ∧
      (payNat d 1 1).testBit 1 = false ∧ payNat d 0 1 = 4 ∧ payNat d 8 1 = c.r.1) := by
  decide +kernel

/-- A collective in progress; one whose last chunk waits, below and at RMAX; and one that is done. -/
theorem test_CollectivesEnd : ((up []).wheel 3).coll = none ∧ still (up []) = true ∧ (up []).mayWrite 0 true = true ∧
    (let c := running [.move]; let s := onRing (some c) {} []; (s.wheel 3).coll = some c ∧ c.stages ≠ [] ∧ still s = true) ∧
    (∀ k < 2, (let x : SentChunk := { chunk := { ring := 0, up := false, phase := 4, piece := 0, origin := 0, off := 0, elems := [] }, link := none, tries := k };
      let c := { running [.move] with sent := [x] }; let s := onRing (some c) {} [(WHL_CFG_RMAX 3, 1)];
      (s.wheel 3).coll = some c ∧ c.sent = x :: [] ∧ s.get (WHL_CFG_RMAX 3) = 1 ∧ x.tries = k ∧ (s.wheelLinks (c.axisOf 3 x.chunk.ring) x.chunk.up).head? = some 23 ∧ x.link = none ∧
        (onRing (some c) {} [(LNK_STAT_STATE 23, lParked)]).wheelLinks (c.axisOf 3 x.chunk.ring) x.chunk.up = [])) ∧
    (let c := { running [.move] with sent := [] }; let s := onRing (some c) {} [(LNK_STAT_STATE 23, lParked), (WHL_CFG_RMAX 3, 0)];
      still s = true ∧ s.pending = [] ∧ s.counting = true ∧ c.ringN 0 ≠ 1 ∧ (s.advanceTo (s.now + 1)).darkFor c (wheelPort (c.axisOf 3 0) true) = some 1 ∧
        s.get (WHL_CFG_RMAX 3) * s.get (WHL_CFG_RTMO 3) * 4000 ≤ 1) ∧
    (let c := running []; let e : Issued := { idx := 0, pass := 0, uid := 1, word := c.word, status := .busy };
      let s := { onRing (some c) {} [] with ques := [(123, { issued := [e] })] };
      (s.wheel 3).coll = some c ∧ c.stages = [] ∧ c.queue = [] ∧ c.sent = [] ∧ c.vmode ≠ 1 ∧ s.errs = [] ∧ s.badBridges = 0 ∧ (s.que 123).issued = [e] ∧ e.uid = c.uid ∧ e.record = none ∧
        c.dst + c.dstLen * c.outBytes ≤ c.res ∧ fmtBits (wFmt c.word) = 8 * c.outBytes ∧ (listGet c.result 1).bits < 256 ^ c.outBytes ∧ c.seq < 65536 ∧ c.digest < 2 ^ 32 ∧ c.step < 2 ^ 40) := by
  decide +kernel

/-! ### Host ports -/

/-- Each owner, with ports thawed and frozen, the record read or not, and the key right and wrong. -/
theorem test_OwnershipAndThaw : (∀ o < 3, ∀ fr < 2, (let s := up [(HST_OWN_OWNER, o), (HST_STAT_FROZEN 1, fr), (HST_OWN_OGEN, 65535), (HST_SEIZEKEY_KEY 1, 65535 * fr)];
      (s.owns 1 = true ↔ o = 2) ∧ s.get HST_OWN_OWNER = o ∧ (s.mayOwn 1 = true ↔ fr = 0) ∧ (s.isSet (HST_STAT_FROZEN 1) = true ↔ fr = 1) ∧
        (s.get (HST_SEIZEKEY_KEY 1) = s.get HST_OWN_OGEN ↔ fr = 1))) ∧
    (let s := up [(HST_OWN_OWNER, 1), (HST_OWN_OGEN, 7), (HST_SEIZEKEY_KEY 1, 7)]; s.mayOwn 1 = true ∧ s.owns 1 = false ∧ s.get (HST_SEIZEKEY_KEY 1) = s.get HST_OWN_OGEN) ∧
    ((up []).port 1).violRead = false ∧ (({ up [] with ports := [(1, { violRead := true })] } : State).port 1).violRead = true := by
  decide +kernel

/-- Posts of slot 7 of port 1: to mailbox 48, to device 0xFFFF, while one waits, elsewhere armed and not, with another role, to a mailbox with 16
notices, and to one with 15; a watch of the last flag that is met at once. -/
theorem test_MailboxesAndWatches :
    (let s := up [(MBX_STGDST_MBOX 1 7, 47)]; s.ready = true ∧ still s = true ∧ s.get (MBX_STGDST_MBOX 1 7) = 47 ∧ s.get (MBX_STGDST_DSTDEV 1 7) = s.devId ∧ ((s.port 1).posts.any fun x => x.1 == 7) = false ∧
      s.get (MBX_STGCODE_RGEN 1 7) = s.mailRole 47 ∧ s.mailHeld 47 < 16 ∧ s.mayWrite 1 false = true ∧ targetMet (s.flag 24 511) 0 = true ∧ s.get (HST_STAT_DSTATE 1) ≠ 3) ∧
    (∀ n ∈ [15, 16], (let s := up [(MBX_STGDST_MBOX 1 7, 47), (MBX_PROD_PROD 47, n)]; s.mailHeld 47 = n ∧ (5 + 65536 - s.get (MBX_CONS_CONS 47)) % 65536 ≤ s.mailHeld 47 ∧
      s.mailHeld 47 < (17 + 65536 - s.get (MBX_CONS_CONS 47)) % 65536)) ∧
    (up [(MBX_STGCODE_RGEN 1 7, 1)]).get (MBX_STGCODE_RGEN 1 7) ≠ (up []).mailRole 47 ∧ (up [(MBX_STGDST_MBOX 1 7, 48)]).get (MBX_STGDST_MBOX 1 7) = 48 ∧
    (∀ d ∈ [5, 0xFFFF], ∀ k < 2, (let s := up [(MBX_STGDST_DSTDEV 1 7, d), (PRT_PLANSTAT_ARMED, k)]; s.get (MBX_STGDST_DSTDEV 1 7) = d ∧ d ≠ s.devId ∧ (s.armed = true ↔ k = 1))) ∧
    (let s := { up [] with ports := [(1, { posts := [(7, true)], msixEn := true })] }; (7, true) ∈ (s.port 1).posts ∧ ((s.port 1).posts.any fun x => x.1 == 7) = true ∧ (s.port 1).msixEn = true ∧
      (s.port 1).msixMask = false ∧ (up [(MSIX_CTRL_MASK 1 (64 + 1983), 0)]).isSet (MSIX_CTRL_MASK 1 (64 + 1983)) = false) ∧ 47 / 16 ≠ 1 ∧ 31 / 16 = 1 := by
  decide +kernel

/-- A descriptor that moves `n` bytes from the host to address 0 and signals the last flag. -/
def descTo (n : Nat) : Nat := n * 2 ^ 128 + 2 ^ 169 + 511 * 2 ^ 176 + 24 * 2 ^ 185

/-- A ring with one descriptor, enabled, with its path open; one enabled anew; a descriptor done; a fetch and a read outstanding. -/
theorem test_DmaChannels :
    (let s := up [(DMA_CFG_EN 1 15, 1), (DMA_CFG_SIZE 1 15, 4), (HST_STAT_LINKUP 1, 1), (HST_STAT_BME 1, 1)];
      s.mayWrite 0 true = true ∧ (1 + 65536 - s.get (DMA_CONS_CONS 1 15)) % 65536 ≤ 2 ^ s.get (DMA_CFG_SIZE 1 15) - 1 ∧ 2 ^ s.get (DMA_CFG_SIZE 1 15) - 1 < (16 + 65536 - s.get (DMA_CONS_CONS 1 15)) % 65536 ∧
        s.isSet (DMA_CFG_EN 1 15) = true ∧ s.get (DMA_STAT_STATE 1 15) ≠ 2 ∧ s.dma 1 15 = {} ∧ s.hostOpen 1 = true) ∧
    ((up []).isSet (DMA_CFG_EN 1 15) = false ∧ (2 ^ 31 + 16 : BitVec 32).getLsbD 31 = true ∧ (2 ^ 31 + 16 : BitVec 32).toNat % 32 = 16) ∧
    (let s := { up [(DMA_CFG_EN 1 15, 1), (DMA_STAT_STATE 1 15, 1), (DMA_PROD_PROD 1 15, 1)] with dmas := [(31, { desc := some (descTo 4), got := 4 })] };
      (s.dma 1 15).desc = some (descTo 4) ∧ (s.dma 1 15).tag = none ∧ (s.dma 1 15).got = descLen (descTo 4) ∧ s.dmaHeld 1 15 = 1 ∧ s.isSet (DMA_CFG_EN 1 15) = true ∧
        s.get (DMA_STAT_STATE 1 15) = 1 ∧ getBits (descTo 4) 169 1 = 1 ∧ getBits (descTo 4) 185 5 = 24 ∧ getBits (descTo 4) 176 9 = 511) ∧
    (let s := { up [(LPC_MIRCTL_LOCK, 0)] with dmas := [(31, { tag := some 3, at_ := 64, want := 32 })] }; let d := descTo 4096;
      still s = true ∧ s.dmaOf 1 3 = some 15 ∧ (s.dma 1 15).desc = none ∧ (s.dma 1 15).want = (natBytes 32 d).length ∧ leNat ((natBytes 32 d).map (·.toNat)) = d ∧ descReserved d = false ∧
        descOut d = false ∧ rangePopulated (descDev d) (descLen d) = true ∧ s.locked (descDev d) (descLen d) = false ∧ s.reading 1 4 = false) ∧
    (let s := { up [] with dmas := [(31, { tag := some 3, want := 4, desc := some (descTo 4) })] }; s.dmaOf 1 3 = some 15 ∧ (s.dma 1 15).desc = some (descTo 4) ∧ clean s 0 = true ∧ s.badBridges = 0 ∧ (s.dma 1 15).want = 4) := by
  decide +kernel

/-- A BAR4 segment mapped to memory and one that is not; a port in reset and out of it, its link up. -/
theorem test_Bar4ConfigAndResets :
    (let s := { up [(HST_B4MAP_EN 0 0, 1), (LPC_MIRCTL_LOCK, 0)] with ports := [(0, { perst := false })] };
      s.badBridges = 0 ∧ s.mayWrite 0 true = true ∧ s.ready = true ∧ s.bar4Addr 0 0 = some 0 ∧ rangePopulated 0 64 = true ∧ s.locked 0 64 = false ∧ clean s 0 = true ∧
        s.bar4Addr 0 (2 ^ 42 - 1) = none ∧ (s.port 0).perst = false ∧ still s = true) ∧
    ((up []).port 1).perst = true ∧ (up [(HST_STAT_LINKUP 1, 1)]).isSet (HST_STAT_LINKUP 1) = true ∧ (up []).isSet (HST_STAT_LINKUP 1) = false ∧
    (up [(DMA_STAT_STATE 1 15, 1)]).get (DMA_STAT_STATE 1 15) = 1 := by
  decide +kernel

/-! ### The management core -/

/-- A device with mailbox `m`'s one notice, which port `k` posted and which names a request block at `a` that asks for no reply and no flag. -/
def withRequest (m k a : Nat) (s : State) : State :=
  put (a + 4) 8 0xFFFF0000FFFF <| ((s.set (MBX_PROD_PROD m) 1).wr (aMBX_ENT m 0) (BitVec.ofNat 64 a)).wr (aMBX_ENT m 2) (BitVec.ofNat 64 (s.devId + k * 2 ^ 16))

/-- That block. -/
def theBlock (a : Nat) (owner : Bool) : Block := { name := a, addr := a, status := 0, mbox := 0xFFFF, rgen := 0, set := 0xFFFF, flag := 0, spare := 0, owner := owner }

/-- `State.Asks` as a test, but for the lines' state. -/
def asking (s : State) (m : Nat) (b : Block) : Bool :=
  s.coreServes && s.mailHeld m != 0 && (s.rd (aMBX_ENT m (s.get (MBX_CONS_CONS m) % 16 * 4))).toNat == b.name && b.addr == b.name % 2 ^ 48 && b.ok &&
    s.bytes b.addr 16 == natBytes 4 0 ++ natBytes 2 b.mbox ++ natBytes 2 b.rgen ++ natBytes 2 b.set ++ natBytes 2 b.flag ++ natBytes 4 0 && decide (b.rgen < 65536) &&
    b.owner == (let w := (s.rd (aMBX_ENT m (s.get (MBX_CONS_CONS m) % 16 * 4 + 2))).toNat
      decide (getBits w 0 16 = s.devId) && decide (getBits w 16 8 < 2) && s.owns (getBits w 16 8))

theorem asks_of {s : State} {m n : Nat} {b : Block} (h : asking s m b = true) (hf : still s = true) (hc : clean s b.addr = true)
    (hn : 16 ≤ n ∧ rangePopulated b.addr n = true) : s.Asks m n b := by
  simp only [asking, Bool.and_eq_true, bne_iff_ne, beq_iff_eq, decide_eq_true_eq] at h
  obtain ⟨⟨⟨⟨⟨⟨⟨a, c⟩, d⟩, e⟩, f⟩, g⟩, i⟩, j⟩ := h
  exact ⟨a, c, quiet_of hf, d, e, hn, plain_of hc, f, g, i, j⟩

/-- The certificate chain's length is the part's own, and a request for it fits all the same. -/
theorem room_for_chain : 16 ≤ 32 + Config.chainLength.toNat ∧ rangePopulated 4096 (32 + Config.chainLength.toNat) = true := by
  have := Config.chainLength.isLt
  simp [rangePopulated]
  omega

/-- An 896-byte image with no body, SVN 1: an RSA-3072 modulus, exponent 65,537, and the RSASSA-PSS signature made with its secret key by a program
written from RFC 8017. -/
def signedImage : List Byte :=
  natBytes 4 0x46545552 ++ natBytes 2 1 ++ natBytes 6 0 ++ natBytes 4 1 ++ natBytes 4 0x01020003 ++ natBytes 12 0 ++
    (natBytes 384 0x9b8778ca2f163ca8ffa6f6a2d67bdfe82dcfcc9a25bb0a009c1ac0f3554dbbb0515c36f657fbad8a1db5aae7752853916376fac4cc65dae18f332e6199c571d56ea33e5e2f515899b6d7d8ff5a10a6e3d9cc3d5199c8891e0a7875ccd2c8cfc7afde6a3e7da3460b442be7dc45ec7c5ac447b28c537ced08d0ab095765f52e90fc7368e450f969d7877f8dc72753f4751ce8fba05940f00b4f47a280fbae94168744d34b3ff87e466e96203a6952711f56145ea411f81811084a9cdb681d5216cb247867753bdc3a1a4f9fc1f8f0dcc4ca7c6e99a63e7070bebce143221f81c8d3a476f1ad98ba6eedde655108afc731c90844c8a70b4a98fd25a299526776bf798b9d9769de90a355844b49f7ce0202d04346559768c9fd4932db64b38219d964634c21158c9bc8737ce40018483fd9f2e38e099f5ac2ecc015d06b1c1c20861ce3a1a2375838c70b67222b442ef404bb880970c018fb835f6544fddcb97441c21918135e8fe3e42bdec61ef36782936dba9a02c954c7b911534a033b469c01).reverse ++
    natBytes 4 65537 ++ natBytes 92 0 ++
    (natBytes 384 0x263123cc1e9dfa28ac3c7c57207711b9e547ca08b7ae0b4de76e92e0c32e4570700d11707eedd2fe69ad7f17c051c96453b28084fa5c0b06f3f07f40bf8c07ac3d10473ff224fcf77c7aed8e83e5498939236771c29749a11b1d6774071d79f10b92bbb30fc0997ee65862283d0fe96fda1b9a5170e76ae216b651bc14d03e89dfd8abdbf79b8288616e70b6d9f05e7388501e796e873fbd4da20a8f9aedd9f05b3c1c8b38a23f462bf21246813e235a4e09b621915943f11f059ebff6c20806fa0a945c95bd142db202707848caefc78ef9df5de7f5cb3acac192c43b7bbb729260025ee71cdba65a8f7288800580e4595c647462367bb1adaf69216858710a62e8910537fa637e57b765f7cb97384ef15805fbeb8945cf88885ec89681e1743c67b9e818a434d4abd0018feebb814da33592de39a78a51034bbbca12bbd5940d6b316be4bdfaddec1a9f4fb6b068040a696079bac7ff8d481a95839726fad63188a82289755a92f2f62a268f1fae83d4ff6d7dac1e73bf815afe115349975a).reverse

/-- The SHA-256 of its bytes 32 to 419, as SEC_KEYHASH holds it. -/
def keyHashOf : List (Nat × Nat) :=
  (List.range 8).zip [0x039b80ac, 0x052b4d8e, 0x5a7cd8e0, 0x31f32ecd, 0xa7f60491, 0x69e5b1dc, 0xa429a13e, 0xe6305090] |>.map fun x => (aSEC_KEYHASH x.1, x.2)

/-- It is valid under its key, and not with a signature beyond the modulus. -/
theorem test_imageValid : imageCause signedImage (force keyHashOf (up [])) = 0 ∧ imgLength signedImage = 0 ∧ signatureOk (signedImage.take 512 ++ List.replicate 384 0xFF) = false ∧
    headerCause [] (up []) = 1 := by
  decide +kernel

/-- A request in each mailbox, from the owner and from another; a read, a write and another operation of the tag area; an image that passes, one whose
signature fails and one without a header; a block at the end of tier 1, with no room for the measurements; replies to a mailbox with 15 and 16 notices. -/
theorem test_MailboxServices : (∀ m, m < 48 → 32 ≤ m → asking (withRequest m 0 4096 (up [])) m (theBlock 4096 true) = true) ∧
    asking (withRequest 35 1 4096 (up [])) 35 (theBlock 4096 false) = true ∧ asking (withRequest 34 1 4096 (up [])) 34 (theBlock 4096 false) = true ∧
    (let s := withRequest 34 0 4096 (up []); still s = true ∧ clean s 4096 = true ∧ (∀ n ∈ [16, 544, 1040, 4128], rangePopulated 4096 n = true) ∧ s.locked 4096 4128 = false ∧ s.mgt.update = none ∧
      (∀ k < 3, ((put 4112 1 k s).byte 4112).toNat = k) ∧ ({ s with mgt := { s.mgt with tag := some (List.replicate 4096 0) } } : State).tagBytes.length = 4096) ∧
    (let s := withRequest 36 0 4096 (up []); rangePopulated 4096 (64 + s.measurementResponse.length) = true) ∧
    (let s := withRequest 36 0 (2 ^ 41 - 64) (up []); asking s 36 (theBlock (2 ^ 41 - 64) true) = true ∧ rangePopulated (2 ^ 41 - 64) 64 = true ∧
      rangePopulated (2 ^ 41 - 64) (64 + s.measurementResponse.length) = false) ∧
    (let s := withRequest 32 0 (tier2End - 1088) (up [(LPC_MIRCTL_LOCK, 1)]); asking s 32 (theBlock (tier2End - 1088) true) = true ∧ s.locked (tier2End - 1088) 4 = true ∧
      rangePopulated (tier2End - 1088) 1040 = true) ∧
    (let s := withRequest 35 0 4096 (up []); headerCause (s.bytes 4128 512) s ≠ 0) ∧
    (∀ n ∈ [15, 16], ∀ k ∈ [999, 1000], (let r : Reply := { addr := 4096, status := 1, mbox := 31, rgen := 0, tries := k }; let s := { up [(MBX_PROD_PROD 31, n)] with mgt := { replies := [r] } };
      s.coreServes = true ∧ s.mgt.replies = [r] ∧ r.rgen = s.mailRole 31 ∧ s.mailHeld 31 = n)) ∧ (up []).mgt.replies = [] := by
  decide +kernel

theorem asking_setBytes {s : State} {m a : Nat} {b : Block} {l : List Byte} (h : b.addr + 16 ≤ a) : asking (s.setBytes a l) m b = asking s m b := by
  unfold asking
  rw [State.bytes_setBytes_outside _ _ _ _ _ (.inl h), State.setBytes_eq]
  rfl

/-- An update request whose block carries `signedImage`. -/
theorem test_MailboxServices_image : (let s := (force keyHashOf (withRequest 35 0 4096 (up []))).setBytes 4128 signedImage; asking s 35 (theBlock 4096 true) = true ∧ s.bytes 4128 896 = signedImage) ∧
    headerCause (signedImage.take 512) (force keyHashOf (up [])) = 0 ∧ rangePopulated 4128 896 = true := by
  refine ⟨⟨?_, ?_⟩, by decide +kernel, by decide +kernel⟩
  · rw [asking_setBytes (by decide)]
    decide +kernel
  · have h : signedImage.length = 896 := by decide +kernel
    rw [← h]
    exact State.bytes_setBytes ..

/-- A running core and a halted one, thresholds reached and not, and commits. -/
theorem test_ManagementDuties : (up []).coreServes = true ∧ (up [(MGT_STAT_RUN, 0)]).coreServes = false ∧ (up [(MGT_STAT_RUN, 0)]).coreRuns = false ∧ (up [(MGT_CFG_SHEDTHR, 99)]).get MGT_CFG_SHEDTHR = 99 ∧
    (up []).mgt.shedEvent = none ∧ (up []).mgt.update = none ∧ (List.replicate 31 (0 : BitVec 32)).length = 31 ∧
    (let s := up [(SEC_SVN_IMAGE, 2), (SEC_SVN_FUSED, 1)]; s.mayWrite 0 true = true ∧ s.get SEC_SVN_IMAGE = 2 ∧ s.get SEC_SVN_FUSED < 2 ∧ s.mgt.commit = none) ∧
    (let s := { up [] with mgt := { commit := some 64 } }; s.mgt.commit = some 64 ∧ s.mgt.commit ≠ none) := by
  decide +kernel

/-- Requests of version 1.2 and another, slots 0 and 1, offsets within the chain and beyond; a late answer.  That the chain parses, and
its length, are the part's own: nothing evaluates them. -/
theorem test_SpdmAnswers : (up []).coreServes = true ∧ (up [(MGT_STAT_RUN, 0)]).coreServes = false ∧ (∀ k < 2, (up [(MGT_STAT_SHED, k)]).get MGT_STAT_SHED = k) ∧
    (let r : List (BitVec 8) := [0x12, 0, 0, 0]; r.getD 0 0 = 0x12 ∧ (r.getD 2 0).toNat % 16 = 0 ∧ r.getD 3 0 = 0) ∧ (let r : List (BitVec 8) := [0x11, 0, 1, 0xFF]; r.getD 0 0 ≠ 0x12 ∧ (r.getD 2 0).toNat % 16 ≠ 0 ∧
      (r.getD 2 0).getLsbD 0 = true ∧ r.getD 3 0 = 0xFF) ∧
    (∀ i, i < 6 → 0 < i → (up [(SEC_MEASCFG_ELVOB, 0)]).measurements.any (fun m => m.index == i) = true) ∧ (up [(SEC_MEASCFG_ELVOB, 0)]).measurements.all (fun m => m.index != 6) = true ∧
    (let s := { up [] with mgt := { late := [(2, some (.version [2]))] } }; tabGet (fun _ => none) s.mgt.late (bindingNum .smbus) = some (.version [2]) ∧
      tabGet (fun _ => none) s.mgt.late (bindingNum .portA) = none) := by
  decide +kernel

/-- MCTP up or not, with the core serving or recovering; each type and one more; a sample held or not. -/
theorem test_PldmAnswers : (up []).mctpUp = true ∧ (up []).coreServes = true ∧ (up []).isSet MGT_STAT_SHED = false ∧ (up [(MGT_STAT_RUN, 0)]).mctpUp = false ∧
    (let s := { up [(MGT_STAT_RUN, 0)] with boot := { phase := .recovery } }; s.mctpUp = true ∧ s.coreServes = false ∧ s.isSet MGT_STAT_SHED = false) ∧
    (∀ ty < 7, (ty ∈ (up []).pldmTypes ↔ ty = 0 ∨ ty = 2 ∨ ty = 4 ∨ ty = 5)) ∧ (up []).mgt.sample = none ∧
    ({ up [] with mgt := { sample := some (List.replicate 56 0) } } : State).mgt.sample = some (List.replicate 56 0) ∧ (List.replicate 4096 (0 : BitVec 8)).length = 4096 := by
  decide +kernel

/-- No update and one in progress, staged where it fits and where it does not; its header's last byte arriving, its last byte, and its end in flash, in and out of recovery. -/
theorem test_FirmwareUpdates :
    (let s := up [(SEC_UPDBUF_EN, 1), (SEC_UPDSTAT_STATE, 4)]; s.mctpUp = true ∧ s.isSet MGT_STAT_SHED = false ∧ s.mgt.update = none ∧ s.isSet SEC_UPDBUF_EN = true ∧ s.inRecovery = false ∧
      rangePopulated (s.get SEC_UPDBUF_BASE * 4096) 0x1000000 = true ∧ s.get SEC_UPDSTAT_STATE = 4 ∧ clean s 0 = true ∧ still s = true ∧ s.locked (s.get SEC_UPDBUF_BASE * 4096) 896 = false) ∧
    (let s := up [(SEC_UPDBUF_BASE, mirrorBase / 4096), (LPC_MIRCTL_LOCK, 1)]; s.locked (s.get SEC_UPDBUF_BASE * 4096) 896 = true ∧ rangePopulated (s.get SEC_UPDBUF_BASE * 4096) 896 = true) ∧
    (let s := up [(SEC_UPDBUF_EN, 1), (SEC_UPDBUF_BASE, 2 ^ 29 - 1)]; rangePopulated (s.get SEC_UPDBUF_BASE * 4096) 0x1000000 = false ∧ s.get SEC_UPDSTAT_STATE ≠ 4) ∧
    (∀ stg : Bool, (let j : UpdateJob := { block := none, size := 896, staged := stg, got := signedImage.take 511 }; let s := { up [] with mgt := { update := some j } };
      s.mgt.update = some j ∧ j.writing = false ∧ s.mctpUp = true ∧ s.inRecovery = false ∧ j.got.length < min 512 j.size)) ∧
    (let got := signedImage.take 511; (got ++ signedImage.drop 511).take 896 = signedImage ∧ signedImage.length = 896 ∧ headerCause ((got ++ [1]).take 896) (up []) ≠ 0 ∧ ((got ++ [0]).take 896).length = 512) ∧
    (let j : UpdateJob := { block := some 4096, size := 896, staged := true, got := signedImage, writing := true }; let s := { up [] with mgt := { update := some j } };
      s.mgt.update = some j ∧ j.writing = true ∧ still s = true ∧ s.inRecovery = false ∧ j.block = some 4096 ∧ rangePopulated (4096 % 2 ^ 48) 16 = true ∧ imageCause [] s ≠ 0 ∧
        ({ s with boot := { s.boot with phase := .recovery } } : State).inRecovery = true) := by
  decide +kernel

/-! ### Resets, start-up, events, power, the test access port -/

/-- Supplies from `r` on are valid. -/
def powered (l : List (FRef × Nat)) : State := up ([(PWR_STAT_VALID, 2047)] ++ l)

theorem test_ResetRows : (up []).mgt.commit = none ∧ ({ up [(SEC_SVN_FUSED, 1)] with mgt := { commit := some 64 } } : State).get SEC_SVN_FUSED ≤ 64 ∧ (up []).mayWrite 0 true = true ∧
    (let s := { powered [] with evr := { copies := [0] } }; s.mayWrite 0 true = true ∧ s.evr.copies ≠ [] ∧ s.railUp 4 = true) ∧
    (let s := powered []; s.evr.copies = [] ∧ still s = true ∧ ∀ g < 25, s.ldBusy g = false) ∧ (up []).railUp 4 = false := by
  decide +kernel

/-- Each phase, with RESET_N low and high; flash that is valid and that is not. -/
theorem test_BootSequence :
    (∀ ph ∈ [BootPhase.held, .rom, .firmware, .memory, .clear, .last], (let s := { State.reset with boot := { phase := ph, resetN := true } }; s.boot.phase = ph ∧ s.boot.resetN = true)) ∧
    State.reset.boot.resetN = false ∧ State.reset.boot.cold = true ∧ State.reset.boot.phase ≠ .rom ∧ flashCause State.reset = 0 ∧
    (let s := { State.reset with boot := { phase := .rom }, mgt := { flash := .holds [] } }; s.boot.phase = .rom ∧ flashCause s = 1) ∧
    (let s := { st ((List.range 24).map fun n => (LNK_CTRL_EN n, 0)) with boot := { phase := .last, cold := false } }; s.boot.cold = false ∧ ∀ n < 24, s.isSet (LNK_CTRL_EN n) = false) ∧
    (∀ n < 24, State.reset.isSet (LNK_CTRL_EN n) = true) := by
  decide +kernel

/-- A record to fold into, 3,999,999 ticks ago, and 4,000,000. -/
theorem test_OccurrencesFold :
    (∀ d ∈ [3999999, 4000000], (let s := { up [(EVR_STAT_ANY, 1), (FTM_NOW_NOW, d)] with evr := { lastFold := some 0 } };
      unitEffect 0x600C 7 0 s = s ∧ let s := (s.wr (aEVR_REC 0 1) (BitVec.ofNat 64 (0x600C * 2 ^ 32 + 7 * 2 ^ 48))).wr (aEVR_REC 0 2) (BitVec.ofNat 64 ((sevOf 0x600C (s.degraded 7)).num * 65536 + 65534));
      s.isSet EVR_STAT_ANY = true ∧ s.evr.lastFold = some 0 ∧ s.get EVR_HEAD_SEQ % 4096 = 0 ∧ (s.rd (aEVR_REC 0 1)).toNat / 2 ^ 32 = 0x600C + 65536 * 7 ∧
        (s.rd (aEVR_REC 0 2)).toNat / 65536 % 256 = (sevOf 0x600C (s.degraded 7)).num ∧ s.now = d ∧ (s.rd (aEVR_REC 0 2)).toNat % 65536 < 65535)) := by
  decide +kernel

/-- A new occurrence of each severity; copies retried or not, waited for or not; escalation below and at its limit. -/
theorem test_RecordsAndContainment :
    (∀ c ∈ [0x5001, 0x600C, 0x500D, 0xD001], (let s := unitEffect c 7 0 (up []); foldsInto c 7 (sevOf c (s.degraded 7)).num s = false ∧ ((sevOf c (s.degraded 7)).num = 2 ∨ tabGet (fun _ => 0) s.evr.spent (2 * c + (sevOf c (s.degraded 7)).num) < burst (sevOf c (s.degraded 7)).num s))) ∧
    (sevOf 0x500D false).num = 2 ∧ (up []).isSet EVR_STAT_RED = false ∧ (up []).ready = true ∧ (up []).evr.escalate = none ∧ ((up []).evr.spent.map (·.1)) = [] ∧ (up []).mayWrite 0 true = true ∧
    (∀ r : Bool, ∀ w : Bool, (let s := { powered [] with evr := { copies := [0], retried := r }, boot := { (powered []).boot with waiting := w } }; s.evr.copies = 0 :: [] ∧ s.railUp 4 = true ∧
      s.boot.waiting = w ∧ s.evr.retried = r ∧ getBits (s.rd (aEVR_REC 0 1)).toNat 0 32 = 0)) ∧ (up []).railUp 4 = false ∧
    (∀ n < 2, (let s := { up [(EVR_ESC_LIMIT, 1)] with evr := { escalate := some 0x500D, escTimes := List.replicate n 0 } }; s.evr.escalate = some 0x500D ∧
      (s.evr.escTimes.filter fun t => decide (s.since t < 14400000000000)).length = n ∧ s.get EVR_ESC_LIMIT = 1)) := by
  decide +kernel

/-- Units whose memories fail: a queue at its fetch, an element engine under its command, a wheel under its collective. -/
theorem test_RecordsAndContainment_units :
    (let s := run 119 (cmd 0 []) []; s.qstate 119 = qRunning ∧ s.rerunHead 119 = none ∧ s.isSet (QUE_FREEZEREC_VALID 119) = false) ∧
    (let e : Issued := { idx := 0, pass := 0, word := BitVec.ofNat 256 (cmd 0x40 []) }; ({ up [] with ques := [(117, { issued := [e] })] } : State).inEngine (23 * 5 + 2) = some e) ∧
    (let s := onRing (some (running [.move])) {} []; still s = true ∧ (s.wheel 3).coll = some (running [.move])) ∧
    (∀ q < 125, srcQueue q < 65536 ∧ ∀ k < 125, srcQueue k = srcQueue q → k = q) ∧ srcRecorder < 65536 := by
  decide +kernel

/-- Temperatures and currents on each side of their limits and between; signals and supplies in each state; failures before the third and the ninth. -/
theorem test_PowerRows :
    (let s := up [(PWR_THR_TJTHR, 105), (PWR_ICAP_ICAP 3, 100)]; s.get PWR_THR_TJTHR * 10 = 1050 ∧ (1050 : BitVec 16).toInt = 1050 ∧ (1020 : BitVec 16).toInt = 1020 ∧ s.get (PWR_ICAP_ICAP 3) * 10 = 1000 ∧
      (s.dom 3).hotReq = 0 ∧ (s.dom 3).warn = false ∧ s.mayWrite 0 true = true ∧ 950 * 100 ≤ 1000 * 95 ∧ 1000 * 95 < 951 * 100) ∧
    (let s := { up [] with pwr := { (up []).pwr with dom := [(3, { hot := true, hotReq := 1, capReq := 1, capOn := true })] } }; (s.dom 3).hotReq ≠ 0 ∧ (s.dom 3).capReq ≠ 0 ∧ (s.dom 3).warn = false) ∧
    (∀ k < 2, (up [(PWR_STAT_PROCHOT, k)]).get PWR_STAT_PROCHOT = k) ∧
    (∀ n ∈ [2, 8], (let s := { up [] with pwr := { (up []).pwr with fails := [(1, n)] } }; tabGet (fun _ => 0) s.pwr.fails 1 + 1 = n + 1)) ∧
    (∀ r ≤ 10, (powered []).railUp r = true ∧ (up []).railUp r = false) ∧ (powered []).boot.phase = .held ∧ (powered []).boot.cold = true ∧
    (let s := { powered [] with boot := { phase := .done, cold := false } }; s.boot.phase ≠ .held ∧ s.railUp 9 = true) ∧ (up []).pwr.slow.testBit 19 = false ∧ (up [(GLB_BOOT_STATE, 2)]).get GLB_BOOT_STATE = 2 := by
  decide +kernel

/-- A device not ready, a frozen port, an owner and another port; a writable register of 32 bits; the test access port up and not. -/
theorem test_RegisterWrites : State.reset.ready = false ∧ (let s := up [(HST_STAT_FROZEN 1, 1)]; s.ready = true ∧ s.isSet (HST_STAT_FROZEN 1) = true) ∧ (up []).mayWrite 1 false = true ∧ (up []).owns 1 = false ∧
    (up []).mayWrite 0 true = true ∧ (∃ r, regRow aFTM_CFG = some r ∧ r.wide = false ∧ aFTM_CFG % 4 = 0 ∧ 0x300000 ≤ aFTM_CFG ∧ aFTM_CFG < 0x400000 ∧ aFTM_CFG ≠ aFTM_CTRL ∧ r.writable 0 31 = true ∧
      r.fields.any (fun f => f.acc == .rw && f.isBad 31) = true) ∧
    (powered []).tapUp = true ∧ State.reset.tapUp = false ∧ ({ powered [] with boot := { resetN := true } } : State).boot.resetN = true ∧ (powered []).boot.resetN = false := by
  refine ⟨by decide +kernel, by decide +kernel, by decide +kernel, by decide +kernel, by decide +kernel, ?_, by decide +kernel⟩
  exact ⟨(regRow aFTM_CFG).get (by decide +kernel), by decide +kernel⟩

/-- Reads: one of no 32 or 64 bits, of an offset without a register, of one with a field that clears, of a wide one, of base register 0 in
an awake tile and outside the tiles. -/
theorem test_RegisterWrites_reads : (up []).ready = true ∧ regRow 0x10FFFC = none ∧ regRow 0x10FFF8 = none ∧
    (∃ r, regRow aMGT_REPDROP = some r ∧ r.wide = false ∧ aMGT_REPDROP % 4 = 0 ∧ 0x100000 ≤ aMGT_REPDROP ∧ aMGT_REPDROP < 0x180000 ∧ r.fields.any (fun f => f.acc == .rcl) = true) ∧
    (∃ r, regRow aFTM_NOW = some r ∧ r.wide = true ∧ aFTM_NOW % 8 = 0 ∧ 0x300000 ≤ aFTM_NOW ∧ aFTM_NOW < 0x400000 ∧ r.fields.all (fun f => f.acc != .rcl) = true) ∧
    aQUE_BASE 119 0 < 2 ^ 26 ∧ aQUE_BASE 124 0 < 2 ^ 26 ∧ ((run 119 0 []).gate 23).phase = .running := by
  refine ⟨by decide +kernel, by decide +kernel, by decide +kernel, ?_, ?_, by decide +kernel⟩
  · exact ⟨(regRow aMGT_REPDROP).get (by decide +kernel), by decide +kernel⟩
  · exact ⟨(regRow aFTM_NOW).get (by decide +kernel), by decide +kernel⟩

/-- One and a half in BF16 and in INT8. -/
theorem test_StochasticRounding : fmtIsInt 1 = false ∧ (let v : Cvt := { ori := 0, fmt := 1, scm := false, ovfNf := false, sat := false, rnd := 2 }; v.rnd = 2) ∧ (3 : Nat) * 2 ^ 0 < 2 ^ 7 := by
  decide +kernel

theorem test_StoresNothing : (Instr.telemetrySample 0 []).storesNothing = true ∧ (Instr.idcode).storesNothing = true ∧ ∃ t, exec .idcode State.reset = .next t :=
  ⟨rfl, rfl, _, rfl⟩

/-- A state with a byte of memory and a command waiting meets the invariant, and a step from it answers a next state. -/
theorem test_StepKeepsCanonical : Inv { up [] with mem := [(4, 1)], pending := [.idcode] } ∧ ∃ t, step { up [] with mem := [(4, 1)], pending := [.idcode] } = .next t := by
  refine ⟨?_, _, rfl⟩
  constructor <;> decide +kernel

end Sys2Proof.Tests
end

section
/-! SUPPORT. Rounding by R48 and the grid of a floating-point layout (R34, R47): what `roundQuanta`, `quantum`, `decode` and
`convert` do with an exact value, and the statement on stochastic rounding. -/

namespace Sys2Proof.Machine

/-! ### The two steps of R48 on a number of quanta -/

/-- F of R48: the fraction of a number of quanta in 65,536ths, further bits dropped. -/
def fraction16 (y : ℚ) : ℕ := ⌊(y - ⌊y⌋₊) * 65536⌋₊

/-- R48's result for a number of quanta and a draw: t, or t + 1 when F + D carries. -/
def stochasticQuanta (D : ℕ) (y : ℚ) : ℕ := if 65536 ≤ fraction16 y + D then ⌊y⌋₊ + 1 else ⌊y⌋₊

theorem rat_floor_toNat (y : ℚ) : y.floor.toNat = ⌊y⌋₊ := Int.floor_toNat y

theorem fraction16_lt (y : ℚ) : fraction16 y < 65536 := by
  have h : (y - ⌊y⌋₊) * 65536 < (65536 : ℕ) := by
    have := Nat.lt_floor_add_one y
    push_cast
    linarith
  exact (Nat.floor_lt' (by norm_num)).mpr h

@[simp] theorem fraction16_natCast (n : ℕ) : fraction16 n = 0 := by simp [fraction16]

theorem fraction16_div (m n : ℕ) (hn : 0 < n) : fraction16 (m / n) = m % n * 65536 / n := by
  have hq : (n : ℚ) ≠ 0 := by positivity
  have hm : (m : ℚ) = n * (m / n : ℕ) + (m % n : ℕ) := mod_cast (Nat.div_add_mod m n).symm
  have hy : ((m : ℚ) / n - (m / n : ℕ)) * 65536 = ((m % n * 65536 : ℕ) : ℚ) / n := by
    rw [hm]
    push_cast
    field_simp
    ring
  rw [fraction16, Nat.floor_div_eq_div, hy, Nat.floor_div_eq_div]

/-- Every draw leaves a whole number of quanta in place. -/
theorem stochasticQuanta_natCast {D : ℕ} (hD : D < 65536) (n : ℕ) : stochasticQuanta D n = n := by
  simp [stochasticQuanta, hD]

/-- Of the 65,536 draws, F carry. -/
theorem length_carrying_draws {F : ℕ} (hF : F < 65536) :
    ((List.range 65536).filter fun D => 65536 ≤ F + D).length = F := by
  have hsplit : (65536 : ℕ) = (65536 - F) + F := by omega
  rw [hsplit, List.range_add, ← hsplit, List.filter_append, List.length_append]
  have hlow : (List.range (65536 - F)).filter (fun D => decide (65536 ≤ F + D)) = [] := by
    simp only [List.filter_eq_nil_iff, List.mem_range, decide_eq_true_eq]
    omega
  have hhigh : ((List.range F).map (65536 - F + ·)).filter (fun D => decide (65536 ≤ F + D)) =
      (List.range F).map (65536 - F + ·) := by
    simp only [List.filter_eq_self, List.mem_map, List.mem_range, decide_eq_true_eq]
    omega
  rw [hlow, hhigh]
  simp

/-! ### `roundQuanta` computes R48 -/

theorem mul_zpow_div_zpow (x : ℚ) (e q : ℤ) : x * 2 ^ e / 2 ^ q = x * 2 ^ (e - q) := by
  rw [mul_div_assoc, ← zpow_sub₀ two_ne_zero]

theorem quanta_of_le (m : ℕ) {e q : ℤ} (h : q ≤ e) : (m : ℚ) * 2 ^ e / 2 ^ q = (m * 2 ^ (e - q).toNat : ℕ) := by
  obtain ⟨d, hd⟩ := Int.le.dest h
  have he : e - q = d := by omega
  rw [mul_zpow_div_zpow, he]
  simp

theorem quanta_of_lt (m : ℕ) {e q : ℤ} (h : e < q) : (m : ℚ) * 2 ^ e / 2 ^ q = m / (2 ^ (q - e).toNat : ℕ) := by
  obtain ⟨d, hd⟩ := Int.le.dest h.le
  have he : e - q = -d := by omega
  have hq : q - e = d := by omega
  rw [mul_zpow_div_zpow, he, hq, zpow_neg, ← div_eq_mul_inv]
  simp

/-- The integer arithmetic of `roundQuanta` is R48's rule on the exact number of quanta. -/
theorem roundQuanta_stochastic {D : ℕ} (hD : D < 65536) (m : ℕ) (e q : ℤ) :
    roundQuanta (.stochastic D) m e q = stochasticQuanta D (m * 2 ^ e / 2 ^ q) := by
  by_cases h : q ≤ e
  · rw [quanta_of_le m h, stochasticQuanta_natCast hD, roundQuanta, if_pos h]
  · have hpos : 0 < 2 ^ (q - e).toNat := Nat.two_pow_pos _
    rw [quanta_of_lt m (not_le.mp h), stochasticQuanta, fraction16_div _ _ hpos, Nat.floor_div_eq_div, roundQuanta, if_neg h]

/-! ### The quantum of a value (R47) -/

/-- A value's binade: `E` is one less than its exponent field, and the value is below `2 ^ (p + 1)` quanta and, above the lowest
binade, no less than `2 ^ p`. -/
theorem exists_binade (f : FloatFmt) {m : ℕ} (hm : 0 < m) (e : ℤ) : ∃ E : ℕ,
    f.quantum m e = E + 1 - f.bias - f.p ∧ (m : ℚ) * 2 ^ e / 2 ^ f.quantum m e < 2 ^ (f.p + 1) ∧
    (E = 0 ∨ (2 : ℚ) ^ f.p ≤ m * 2 ^ e / 2 ^ f.quantum m e) := by
  have hlo : (2 : ℚ) ^ (m.log2 : ℤ) ≤ m := by
    rw [zpow_natCast]
    exact_mod_cast Nat.log2_self_le hm.ne'
  have hhi : (m : ℚ) < 2 ^ (m.log2 + 1 : ℤ) := by exact_mod_cast Nat.lt_log2_self (n := m)
  have hq : f.quantum m e = max (m.log2 + e) (1 - f.bias) - f.p := rfl
  refine ⟨(max (m.log2 + e) (1 - f.bias) + f.bias - 1).toNat, by omega, ?_, ?_⟩
  · rw [mul_zpow_div_zpow]
    calc (m : ℚ) * 2 ^ (e - f.quantum m e) < 2 ^ (m.log2 + 1 : ℤ) * 2 ^ (e - f.quantum m e) := by gcongr
      _ = 2 ^ (m.log2 + 1 + (e - f.quantum m e)) := (zpow_add₀ two_ne_zero _ _).symm
      _ ≤ 2 ^ ((f.p + 1 : ℕ) : ℤ) := zpow_le_zpow_right₀ one_le_two (by omega)
      _ = 2 ^ (f.p + 1) := zpow_natCast _ _
  · rcases le_or_gt (m.log2 + e) (1 - f.bias) with hsub | hnorm
    · left
      omega
    · right
      rw [mul_zpow_div_zpow]
      calc (2 : ℚ) ^ f.p = 2 ^ (f.p : ℤ) := (zpow_natCast _ _).symm
        _ = 2 ^ (m.log2 + (e - f.quantum m e)) := by congr 1; omega
        _ = 2 ^ (m.log2 : ℤ) * 2 ^ (e - f.quantum m e) := zpow_add₀ two_ne_zero _ _
        _ ≤ m * 2 ^ (e - f.quantum m e) := by gcongr

/-! ### The grid of finite encodings (R34, R35) -/

/-- The places a finite encoding can have: below the all-ones exponent, or below the one NaN of E4M3, or below the sign bit. -/
theorem le_maxFinite_cases {f : FloatFmt} (heb : 0 < f.eb) {b : ℕ} (hb : b ≤ f.maxFinite) :
    f.special = .ieee ∧ b < (2 ^ f.eb - 1) * 2 ^ f.p ∨ f.special = .e4m3 ∧ b + 1 < 2 ^ f.eb * 2 ^ f.p ∨
      f.special = .finite ∧ b < 2 ^ f.eb * 2 ^ f.p := by
  have hexp : 2 ≤ 2 ^ f.eb := Nat.le_self_pow heb.ne' 2
  have htop : 2 ≤ 2 ^ f.eb * 2 ^ f.p := hexp.trans (Nat.le_mul_of_pos_right _ (Nat.two_pow_pos _))
  have hinf : 0 < (2 ^ f.eb - 1) * 2 ^ f.p := Nat.mul_pos (by omega) (Nat.two_pow_pos _)
  unfold FloatFmt.maxFinite at hb
  rw [pow_add] at hb
  cases hs : f.special <;> simp only [hs] at hb <;> simp <;> omega

/-- A finite encoding, given by its exponent and significand fields. -/
theorem decode_fields {f : FloatFmt} (heb : 0 < f.eb) {x k : ℕ} (hk : k < 2 ^ f.p) (hmax : x * 2 ^ f.p + k ≤ f.maxFinite) :
    f.decode (x * 2 ^ f.p + k) =
      if x = 0 then .fin false k (1 - f.bias - f.p) else .fin false (k + 2 ^ f.p) (x - f.bias - f.p) := by
  have hpos : 0 < 2 ^ f.p := Nat.two_pow_pos _
  have hcases := le_maxFinite_cases heb hmax
  have hx : x < 2 ^ f.eb := by
    have hlt : x * 2 ^ f.p < 2 ^ f.eb * 2 ^ f.p := by
      rw [Nat.sub_mul] at hcases
      omega
    exact Nat.lt_of_mul_lt_mul_right hlt
  have hexp : (x * 2 ^ f.p + k) / 2 ^ f.p = x := by
    rw [Nat.mul_comm, Nat.mul_add_div hpos, Nat.div_eq_of_lt hk, Nat.add_zero]
  have hsig : (x * 2 ^ f.p + k) % 2 ^ f.p = k := by
    rw [Nat.mul_comm, Nat.mul_add_mod, Nat.mod_eq_of_lt hk]
  have hsign : (x * 2 ^ f.p + k) / 2 ^ (f.eb + f.p) = 0 := by
    rw [Nat.add_comm f.eb, pow_add, ← Nat.div_div_eq_div_mul, hexp, Nat.div_eq_of_lt hx]
  have hnotInf : ¬ (f.special = .ieee ∧ x = 2 ^ f.eb - 1) := by
    rintro ⟨hs, rfl⟩
    simp [hs] at hcases
  have hnotNan : ¬ (f.special = .e4m3 ∧ x = 2 ^ f.eb - 1 ∧ k = 2 ^ f.p - 1) := by
    rintro ⟨hs, rfl, rfl⟩
    simp only [hs, Nat.sub_mul] at hcases
    simp at hcases
    omega
  unfold FloatFmt.decode
  simp only [hexp, hsig, hsign, Nat.mod_eq_of_lt hx, if_neg hnotInf, if_neg hnotNan]
  rfl

/-- The encoding of a number `k` of quanta of a binade stands for that many quanta, also for `k = 2 ^ (p + 1)`,
the next binade's least value. -/
theorem decode_quanta {f : FloatFmt} (heb : 0 < f.eb) {E k : ℕ} (hlo : E = 0 ∨ 2 ^ f.p ≤ k) (hhi : k ≤ 2 ^ (f.p + 1))
    (hmax : E * 2 ^ f.p + k ≤ f.maxFinite) :
    ∃ m' e', f.decode (E * 2 ^ f.p + k) = .fin false m' e' ∧ (m' : ℚ) * 2 ^ e' = k * 2 ^ (E + 1 - f.bias - f.p) := by
  have hpos : 0 < 2 ^ f.p := Nat.two_pow_pos _
  rcases lt_or_ge k (2 ^ f.p) with hsub | hnorm
  · obtain rfl : E = 0 := by omega
    exact ⟨k, 1 - f.bias - f.p, by rw [decode_fields heb hsub hmax, if_pos rfl], by simp⟩
  · obtain ⟨i, rfl⟩ := Nat.exists_eq_add_of_le hnorm
    rcases lt_or_ge i (2 ^ f.p) with hin | hnext
    · have hb : E * 2 ^ f.p + (2 ^ f.p + i) = (E + 1) * 2 ^ f.p + i := by ring
      rw [hb] at hmax ⊢
      exact ⟨i + 2 ^ f.p, E + 1 - f.bias - f.p, by simp [decode_fields heb hin hmax], by push_cast; ring⟩
    · obtain rfl : i = 2 ^ f.p := by omega
      have hb : E * 2 ^ f.p + (2 ^ f.p + 2 ^ f.p) = (E + 2) * 2 ^ f.p + 0 := by ring
      rw [hb] at hmax ⊢
      refine ⟨0 + 2 ^ f.p, E + 1 - f.bias - f.p + 1, ?_, ?_⟩
      · simp only [decode_fields heb hpos hmax, Nat.add_eq_zero_iff]
        simp
        omega
      · rw [zpow_add_one₀ two_ne_zero]
        push_cast
        ring

/-! ### Conversions (R47) -/

/-- A conversion that does not overflow: the sign bit and the rounded number of quanta in its binade. -/
theorem convert_fin_bits {f : FloatFmt} (rnd : Rnd) (sat neg : Bool) {m : ℕ} (hm : 0 < m) (e : ℤ) {b : ℕ}
    (hb : ((f.quantum m e + f.p + f.bias - 1) * 2 ^ f.p + roundQuanta rnd m e (f.quantum m e)).toNat = b)
    (hmax : b ≤ f.maxFinite) :
    (f.convert rnd sat (.fin neg m e)).bits = (if neg then 2 ^ (f.eb + f.p) else 0) + b := by
  simp only [FloatFmt.convert, if_neg hm.ne', hb, if_neg (not_lt.mpr hmax)]

/-- A conversion to a two's complement integer within its range. -/
theorem convertInt_fin_bits {w : ℕ} (rnd : Rnd) (neg : Bool) (m : ℕ) (e : ℤ) {r : ℕ} (hr : roundQuanta rnd m e 0 = r)
    (hlt : r < 2 ^ (w - 1)) :
    (convertInt w rnd (.fin neg m e)).bits = if neg then (2 ^ w - r) % 2 ^ w else r := by
  cases neg
  · simp [convertInt, hr, show ¬ 2 ^ (w - 1) - 1 < r by omega]
  · simp [convertInt, hr, hlt.le.not_gt]

theorem floatFmt_eb_pos (c : ℕ) : 0 < (floatFmt c).eb := by
  unfold floatFmt
  split <;> decide

/-! ### The draw (R49) -/

theorem Cvt.mode_of_stochastic {v : Cvt} (hv : v.rnd = 2) (d : ℕ) : v.mode d = .stochastic d := if_pos hv

theorem rngDraw_lt (seed stream step elem : ℕ) : rngDraw seed stream step elem < 65536 := Nat.mod_lt _ (by norm_num)

end Sys2Proof.Machine

open Sys2Proof Sys2Proof.Machine

/-- Settles O56. The model rounds the exact number of quanta by R48 (`roundQuanta_stochastic`), the neighbours lie on the
grid of encodings (`decode_quanta` in the binade of `exists_binade`), and every statement about F and t is one about
floors. -/
theorem stochasticRounding : Obligations.StochasticRounding := by
  unfold Obligations.StochasticRounding
  refine ⟨?floating, ?integer, ?draw⟩
  case floating =>
    intro c neg sat m e D _ hm hD
    set f := floatFmt c
    obtain ⟨E, hq, hhi, hlo⟩ := exists_binade f hm e
    have hround := roundQuanta_stochastic hD m e (f.quantum m e)
    have henc (k : ℕ) : ((f.quantum m e + f.p + f.bias - 1) * 2 ^ f.p + k).toNat = E * 2 ^ f.p + k := by
      rw [show f.quantum m e + f.p + f.bias - 1 = E by omega]
      exact Int.toNat_natCast (E * 2 ^ f.p + k)
    have hunit : (0 : ℚ) < 2 ^ f.quantum m e := by positivity
    have hy : (0 : ℚ) ≤ m * 2 ^ e / 2 ^ f.quantum m e := by positivity
    have hx : (m : ℚ) * 2 ^ e = m * 2 ^ e / 2 ^ f.quantum m e * 2 ^ f.quantum m e := (div_mul_cancel₀ _ hunit.ne').symm
    simp only [rat_floor_toNat, henc]
    generalize (m : ℚ) * 2 ^ e / 2 ^ f.quantum m e = y at *
    rw [hx]
    have htop : ⌊y⌋₊ + 1 ≤ 2 ^ (f.p + 1) := (Nat.floor_lt hy).mpr (mod_cast hhi)
    have hbottom : E = 0 ∨ 2 ^ f.p ≤ ⌊y⌋₊ := hlo.imp_right fun h => Nat.le_floor (by exact_mod_cast h)
    refine ⟨?below, ?above, fraction16_lt y, length_carrying_draws (fraction16_lt y), ?grid, ?result, ?representable⟩
    case below => gcongr; exact Nat.floor_le hy
    case above => gcongr; exact Nat.lt_floor_add_one y
    case grid =>
      intro k hk hk' hmax
      rw [hq]
      exact decode_quanta (floatFmt_eb_pos c) (hbottom.imp_right hk.trans') (hk'.trans htop) hmax
    case result => exact convert_fin_bits _ sat neg hm e (by rw [hround]; exact henc _)
    case representable =>
      intro h
      have hwhole : y = ⌊y⌋₊ := mul_right_cancel₀ hunit.ne' h
      exact ⟨(congrArg fraction16 hwhole).trans (fraction16_natCast _),
        (congrArg (stochasticQuanta D) hwhole).trans (stochasticQuanta_natCast hD _)⟩
  case integer =>
    rintro c w neg sat m e D hc hm hD
    have hround := roundQuanta_stochastic hD m e 0
    rw [zpow_zero, div_one] at hround
    simp only [rat_floor_toNat]
    intro hr
    have := convertInt_fin_bits (w := w) _ neg m e hround hr
    rcases hc with ⟨rfl, rfl⟩ | ⟨rfl, rfl⟩ <;> exact this
  case draw =>
    exact fun v seed stream at_ idx hv => ⟨Cvt.mode_of_stochastic hv _, rngDraw_lt ..⟩
end

section
/-! SUPPORT. The event log under an occurrence: which registers containment and announcing leave alone, what writing a
record and folding into one change, and the statement on folding (R440). -/

namespace Sys2Proof.Machine

variable {P : Nat → Prop} {r s t : State}

/-! ### Registers outside a set of keys keep their values -/

theorem State.RegsBut.refl (P : Nat → Prop) (s : State) : s.RegsBut P s := fun _ _ => rfl

theorem State.RegsBut.trans (h : r.RegsBut P s) (k : s.RegsBut P t) : r.RegsBut P t :=
  fun a ha => (k a ha).trans (h a ha)

/-- An update of other fields than the registers. -/
theorem State.RegsBut.of_regs (e : t.regs = s.regs) (h : r.RegsBut P s) : r.RegsBut P t :=
  h.trans fun a _ => congrArg (tabGet regReset · a) e

theorem State.RegsBut.evr {e : EvrSt} (h : r.RegsBut P s) : r.RegsBut P { s with evr := e } := .of_regs rfl h

theorem State.RegsBut.ite {p : Prop} [Decidable p] {a b : State} (ha : r.RegsBut P a) (hb : r.RegsBut P b) :
    r.RegsBut P (if p then a else b) := by split <;> assumption

theorem State.RegsBut.wr {a : Nat} {v : Word} (ha : P a) (h : r.RegsBut P s) : r.RegsBut P (s.wr a v) :=
  h.trans fun x hx => (s.rd_wr a v x).trans (if_neg fun e : x = a => hx (e ▸ ha))

theorem State.RegsBut.set {f : FRef} {v : Nat} (hf : P f.addr) (h : r.RegsBut P s) : r.RegsBut P (s.set f v) := h.wr hf

theorem State.RegsBut.forAll {α : Type} {l : List α} {f : α → State → State}
    (hf : ∀ x s, r.RegsBut P s → r.RegsBut P (f x s)) (h : r.RegsBut P s) : r.RegsBut P (forAll l f s) := by
  induction l generalizing s with
  | nil => exact h
  | cons x l ih => exact ih (hf x s h)

theorem State.RegsBut.get {f : FRef} (h : r.RegsBut P s) (hf : ¬ P f.addr) : s.get f = r.get f := by
  unfold State.get; rw [h _ hf]

/-! ### Keys outside the event log -/

/-- Every register but EVR_HEAD and those after it in the recorder's block, the ring's words among them. -/
def outsideLog (a : Nat) : Prop := a < aEVR_HEAD ∨ 0x300000 ≤ a

theorem not_outsideLog_head : ¬ outsideLog aEVR_HEAD := by unfold outsideLog aEVR_HEAD; decide

theorem not_outsideLog_rec {i w : Nat} (hi : i < 4096) (hw : w < 4) : ¬ outsideLog (aEVR_REC i w) := by
  unfold outsideLog aEVR_HEAD aEVR_REC; omega

theorem outsideLog_evrStat : outsideLog aEVR_STAT := .inl (by decide)
theorem outsideLog_planStat : outsideLog aPRT_PLANSTAT := .inr (by decide)
theorem outsideLog_mirUnmir : outsideLog aLPC_MIRUNMIR := .inr (by decide)
theorem outsideLog_msixPba (p w : Nat) : outsideLog (aMSIX_PBA p w) := by right; unfold aMSIX_PBA; omega
theorem outsideLog_whlStat (a : Nat) : outsideLog (aWHL_STAT a) := by right; unfold aWHL_STAT; omega
theorem outsideLog_whlFailrec (a : Nat) : outsideLog (aWHL_FAILREC a) := by right; unfold aWHL_FAILREC; omega
theorem outsideLog_mxeDgcnt (t m : Nat) : outsideLog (aMXE_DGCNT t m) := by right; unfold aMXE_DGCNT; omega
theorem outsideLog_mxeStat (t m : Nat) : outsideLog (aMXE_STAT t m) := by right; unfold aMXE_STAT; omega
theorem outsideLog_eleStat (t : Nat) : outsideLog (aELE_STAT t) := by right; unfold aELE_STAT; omega
theorem outsideLog_eleAbortrec (t : Nat) : outsideLog (aELE_ABORTREC t) := by right; unfold aELE_ABORTREC; omega
theorem outsideLog_flmStat (t f : Nat) : outsideLog (aFLM_STAT t f) := by right; unfold aFLM_STAT; omega
theorem outsideLog_flmAbortrec (t f : Nat) : outsideLog (aFLM_ABORTREC t f) := by right; unfold aFLM_ABORTREC; omega

/-- The blocks of the queues lie on both sides of the recorder's. -/
theorem outsideLog_queBase (q : Nat) {o : Nat} (ho : o < 0x10000) : outsideLog (queBase q + o) := by
  unfold outsideLog aEVR_HEAD queBase; split_ifs <;> omega

theorem outsideLog_queStat (q : Nat) : outsideLog (aQUE_STAT q) := outsideLog_queBase q (by decide)
theorem outsideLog_queFreezerec (q : Nat) : outsideLog (aQUE_FREEZEREC q) := outsideLog_queBase q (by decide)

theorem outsideLog_bvalRef (k : Nat) : outsideLog (bvalRef k).addr := by
  right
  unfold bvalRef aMXE_BVAL0 aMXE_BVAL1
  extract_lets t m g
  split_ifs <;> simp only <;> omega

/-! ### Containment leaves the log alone (R426) -/

theorem grind_outsideLog {t m n : Nat} (h : r.RegsBut outsideLog s) : r.RegsBut outsideLog (grind t m n s) :=
  .of_regs rfl (.set (outsideLog_mxeDgcnt t m) h)

theorem releaseEngine_outsideLog {t m : Nat} (h : r.RegsBut outsideLog s) : r.RegsBut outsideLog (releaseEngine t m s) := by
  have hstat := outsideLog_mxeStat t m
  unfold releaseEngine
  exact .ite h (.of_regs (State.setMxe_regs ..) (.set hstat (.set hstat (grind_outsideLog h))))

theorem releasePreWake_outsideLog {q : Nat} {tiles : List Nat} (h : r.RegsBut outsideLog s) :
    r.RegsBut outsideLog (releasePreWake q tiles s) :=
  .forAll (fun _ _ h => .ite h (.forAll (fun _ _ => releaseEngine_outsideLog) h)) (.of_regs rfl h)

theorem discardSluice_outsideLog {q : Nat} (h : r.RegsBut outsideLog s) : r.RegsBut outsideLog (discardSluice q s) :=
  .ite h (releasePreWake_outsideLog (.of_regs rfl h))

theorem freezeQueue_outsideLog {q code resume cmd flag : Nat} (h : r.RegsBut outsideLog s) :
    r.RegsBut outsideLog (freezeQueue q code resume cmd flag s) :=
  have hrec := outsideLog_queFreezerec q
  have hfrozen := .set (outsideLog_queStat q) (discardSluice_outsideLog h)
  .ite hfrozen (.set hrec (.set hrec (.set hrec (.set hrec (.set hrec (.set hrec (.set hrec (.wr hrec hfrozen))))))))

theorem markAbort_outsideLog {q cmd : Nat} (h : r.RegsBut outsideLog s) : r.RegsBut outsideLog (markAbort q cmd s) :=
  have hele := outsideLog_eleAbortrec (q / 5)
  have hflm := outsideLog_flmAbortrec (q / 5) (q % 5 - 3)
  have hele' := .set (outsideLog_eleStat (q / 5)) h
  have hflm' := .set (outsideLog_flmStat (q / 5) (q % 5 - 3)) h
  .ite h (.ite (.set (outsideLog_mxeStat _ _) h) (.ite (.ite hele' (.set hele (.set hele (.set hele hele'))))
    (.ite hflm' (.set hflm (.set hflm (.set hflm hflm'))))))

theorem poisonLines_outsideLog {ls : List (Nat × Bool × List Byte)} (h : r.RegsBut outsideLog s) :
    r.RegsBut outsideLog (poisonLines ls s) := .forAll (fun _ _ => .of_regs rfl) h

theorem invalidateGroups_outsideLog {gs : List (Nat × Bool × List (BitVec 32))} (h : r.RegsBut outsideLog s) :
    r.RegsBut outsideLog (invalidateGroups gs s) := .forAll (fun _ _ => .set (outsideLog_bvalRef _)) h

theorem showEngine_outsideLog {q : Nat} (h : r.RegsBut outsideLog s) : r.RegsBut outsideLog (showEngine q s) :=
  have hflm := outsideLog_flmStat (q / 5) (q % 5 - 3)
  .ite h (.ite (.set (outsideLog_eleStat _) h) (.ite (.set hflm (.set hflm h)) (.ite (.set (outsideLog_mxeStat _ _) h) h)))

theorem abortIssued_outsideLog {q : Nat} (h : r.RegsBut outsideLog s) : r.RegsBut outsideLog (abortIssued q s) :=
  have hmarked := .forAll (fun _ _ h => markAbort_outsideLog (invalidateGroups_outsideLog (poisonLines_outsideLog h))) h
  showEngine_outsideLog (.of_regs rfl hmarked)

theorem collFailed_outsideLog {a status pos : Nat} {c : Coll} (h : r.RegsBut outsideLog s) :
    r.RegsBut outsideLog (collFailed a c status pos s) :=
  have hrec := outsideLog_whlFailrec a
  have hstat := outsideLog_whlStat a
  have hshown := .set hstat (.set hstat h)
  .of_regs rfl (.ite hshown (.set hrec (.set hrec (.set hrec (.set hrec (.set hrec hshown))))))

theorem setBytes_regs (s : State) (a : Nat) (l : List Byte) : (s.setBytes a l).regs = s.regs := by
  rw [State.setBytes_eq]

theorem scramble_regs (s : State) (a n : Nat) : (s.scramble a n).regs = s.regs := setBytes_regs ..

theorem countUnmirrored_outsideLog {a n : Nat} (h : r.RegsBut outsideLog s) : r.RegsBut outsideLog (countUnmirrored a n s) :=
  .ite h (.set outsideLog_mirUnmir h)

theorem containWheel_outsideLog {a : Nat} (h : r.RegsBut outsideLog s) : r.RegsBut outsideLog (containWheel a s) := by
  unfold containWheel
  split
  · exact h
  next c _ =>
    extract_lets n ls s1 d s2
    have hpoisoned : r.RegsBut outsideLog s1 := .ite (.forAll (fun _ _ => .of_regs rfl) (.of_regs (scramble_regs ..) h)) h
    have hdescribed : r.RegsBut outsideLog s2 := .ite (countUnmirrored_outsideLog (.of_regs (setBytes_regs ..) hpoisoned)) hpoisoned
    exact collFailed_outsideLog hdescribed

theorem contain_outsideLog {code : Nat} (h : r.RegsBut outsideLog s) : r.RegsBut outsideLog (contain code s) :=
  have hqueues := .forAll (fun _ _ h => .of_regs rfl (freezeQueue_outsideLog (abortIssued_outsideLog h))) h
  .set outsideLog_evrStat (.set outsideLog_planStat (.forAll (fun _ _ => containWheel_outsideLog) hqueues))

/-! ### Announcing a record leaves the log alone (R423) -/

theorem raiseVector_outsideLog {p v : Nat} (h : r.RegsBut outsideLog s) : r.RegsBut outsideLog (raiseVector p v s) :=
  have hpend := .set (outsideLog_msixPba p (v / 64)) h
  .ite (.of_regs rfl hpend) (.ite h (.ite hpend (.of_regs rfl h)))

theorem raiseBoth_outsideLog {v : Nat} (h : r.RegsBut outsideLog s) : r.RegsBut outsideLog (raiseBoth v s) :=
  raiseVector_outsideLog (raiseVector_outsideLog h)

theorem sendPlatformEvent_regs (code sev : Nat) (d : Word) (s : State) : (sendPlatformEvent code sev d s).regs = s.regs := by
  unfold sendPlatformEvent
  split
  · split <;> rfl
  · rfl

theorem announce_outsideLog {code sev : Nat} {d : Word} (h : r.RegsBut outsideLog s) :
    r.RegsBut outsideLog (announce code sev d s) := by
  have hsent : r.RegsBut outsideLog (sendPlatformEvent code sev d s) := .of_regs (sendPlatformEvent_regs ..) h
  have hamber := raiseBoth_outsideLog (v := 32) hsent
  have hred := State.RegsBut.set (f := EVR_STAT_FAULT) (v := 1) outsideLog_evrStat (raiseBoth_outsideLog (v := 33) hsent)
  exact .ite (.ite (.set outsideLog_evrStat hamber) hamber)
    (.ite (.ite (.of_regs rfl hred) (contain_outsideLog (.of_regs rfl hred))) hsent)

/-! ### Writing a record (R435, R437) -/

theorem get_with_evr (e : EvrSt) (f : FRef) : State.get { s with evr := e } f = s.get f := rfl

theorem State.newest_lt (s : State) : s.newest < 4096 := Nat.mod_lt _ (by decide)

/-- The number the next record gets. -/
def State.nextSeq (s : State) : Nat := if s.isSet EVR_STAT_ANY then (s.get EVR_HEAD_SEQ + 1) % 2 ^ 32 else 0

theorem State.nextSeq_of_any (hany : s.isSet EVR_STAT_ANY = true) : s.nextSeq = (s.get EVR_HEAD_SEQ + 1) % 2 ^ 32 := if_pos hany

theorem State.nextSeq_lt (s : State) : s.nextSeq < 2 ^ 32 := by
  unfold State.nextSeq
  split
  · exact Nat.mod_lt _ (by decide)
  · decide

/-- The record after the newest one takes another slot of the ring. -/
theorem State.nextSeq_slot_ne_newest (hany : s.isSet EVR_STAT_ANY = true) : s.nextSeq % 4096 ≠ s.newest := by
  rw [State.nextSeq_of_any hany]
  unfold State.newest
  omega

/-- The registers that writing record `seq` changes: its slot's words, EVR_HEAD and EVR_STAT. -/
def recordKey (seq a : Nat) : Prop := (∃ w < 4, a = aEVR_REC (seq % 4096) w) ∨ a = aEVR_HEAD ∨ a = aEVR_STAT

theorem writeRecord_regsBut (code src sev : Nat) (d : Word) (drop : Bool) (s : State) :
    s.RegsBut (recordKey s.nextSeq) (writeRecord code src sev d drop s) := by
  unfold writeRecord State.nextSeq
  extract_lets seq i d' flags s1 s2 s3 e
  change s.RegsBut (recordKey seq) _
  have hword (w : Nat) (hw : w < 4) : recordKey seq (aEVR_REC i w) := .inl ⟨w, hw, rfl⟩
  have h1 : s.RegsBut (recordKey seq) s1 := .wr (hword 1 (by decide)) (.wr (hword 0 (by decide)) (.refl _ s))
  have h2 : s.RegsBut (recordKey seq) s2 := .wr (hword 3 (by decide)) (.wr (hword 2 (by decide)) h1)
  have h3 : s.RegsBut (recordKey seq) s3 := .set (.inr (.inr rfl)) (.set (.inr (.inl rfl)) h2)
  exact .evr h3

theorem rd_writeRecord_newest {code src sev w : Nat} {d : Word} {drop : Bool} (hany : s.isSet EVR_STAT_ANY = true) (hw : w < 4) :
    (writeRecord code src sev d drop s).rd (aEVR_REC s.newest w) = s.rd (aEVR_REC s.newest w) := by
  have hslot := State.nextSeq_slot_ne_newest hany
  refine writeRecord_regsBut code src sev d drop s _ ?_
  unfold recordKey aEVR_REC aEVR_HEAD aEVR_STAT
  omega

theorem get_writeRecord_seq (code src sev : Nat) (d : Word) (drop : Bool) (s : State) :
    (writeRecord code src sev d drop s).get EVR_HEAD_SEQ = s.nextSeq := by
  have hlt := s.nextSeq_lt
  unfold State.nextSeq at hlt ⊢
  unfold writeRecord
  extract_lets seq i d' flags s1 s2 s3 e
  change seq < 2 ^ 32 at hlt
  change _ = seq
  calc _ = s3.get EVR_HEAD_SEQ := get_with_evr ..
    _ = (s2.set EVR_HEAD_SEQ seq).get EVR_HEAD_SEQ := State.get_set_other _ _ (by decide)
    _ = seq % 2 ^ 32 := State.get_set_same _ _ (by decide)
    _ = seq := Nat.mod_eq_of_lt hlt

/-- A record that is written and announced takes the next number and leaves the newest one before it alone. -/
theorem announce_writeRecord {code src sev : Nat} {d : Word} {drop : Bool} {e : EvrSt} (hany : s.isSet EVR_STAT_ANY = true) :
    (∀ w < 4, (announce code sev d { writeRecord code src sev d drop s with evr := e }).rd (aEVR_REC s.newest w) = s.rd (aEVR_REC s.newest w)) ∧
      (announce code sev d { writeRecord code src sev d drop s with evr := e }).get EVR_HEAD_SEQ = s.nextSeq := by
  have hlog := announce_outsideLog (code := code) (sev := sev) (d := d) (.evr (e := e) (.refl _ (writeRecord code src sev d drop s)))
  exact ⟨fun w hw => (hlog _ (not_outsideLog_rec s.newest_lt hw)).trans (rd_writeRecord_newest hany hw),
    (hlog.get not_outsideLog_head).trans (get_writeRecord_seq ..)⟩

/-! ### What an occurrence does at the recorder (R440, R441) -/

/-- The count of dropped occurrences of a severity that is not red. -/
def dropCount (sev : Nat) : FRef := if sev = 1 then EVR_DROPCNT_AMBER else EVR_DROPCNT_GREY

theorem get_incSat_same {f : FRef} (n : Nat) (h : f.lo + f.width ≤ 64) :
    (s.incSat f n).get f = min (s.get f + n) (2 ^ f.width - 1) := by
  have hpos := Nat.two_pow_pos f.width
  rw [State.incSat, State.get_set_same _ _ h, Nat.mod_eq_of_lt (by omega)]

/-- A REPEAT below its top counts up within its 16 bits. -/
theorem rd_inc_repeat {a : Nat} (h : (s.rd a).toNat % 65536 < 65535) :
    ((s.inc ⟨a, 0, 16⟩ 1).rd a).toNat = (s.rd a).toNat + 1 := by
  have hword := (s.rd a).isLt
  rw [State.inc, State.rd_set, if_pos rfl, BitVec.toNat_ofNat]
  simp only [State.get, putBits, getBits]
  omega

/-- An event's command, but for the ring record that the recorder voids (R430). -/
theorem exec_eventRecord {code source : BitVec 16} {detail : Word} (h : ¬ (code = 0x500E ∧ source.toNat = srcRecorder)) :
    exec (.eventRecord code source detail) s =
      .next (recordEvent code.toNat source.toNat detail (unitEffect code.toNat source.toNat detail s)) :=
  congrArg Host.Outcome.next (if_neg h)

/-- With a newest record, whether an occurrence folds into it, in the bits of its words. -/
theorem foldsInto_iff {code src sev : Nat} (hcode : code < 2 ^ 16) (hany : s.isSet EVR_STAT_ANY = true) :
    foldsInto code src sev s = true ↔
      (s.rd (aEVR_REC s.newest 1)).toNat / 2 ^ 32 = code + 65536 * src ∧ (s.rd (aEVR_REC s.newest 2)).toNat / 65536 % 256 = sev ∧
        s.evr.lastFold.getD (s.rd (aEVR_REC s.newest 0)).toNat ≤ s.now ∧
        s.now < s.evr.lastFold.getD (s.rd (aEVR_REC s.newest 0)).toNat + 4000000 ∧
        (s.rd (aEVR_REC s.newest 2)).toNat % 65536 < 65535 := by
  have hword := (s.rd (aEVR_REC s.newest 1)).isLt
  simp only [foldsInto, hany, getBits, Bool.and_eq_true, beq_iff_eq, decide_eq_true_eq, true_and, Nat.reducePow, Nat.div_one]
  omega

theorem recordEvent_of_folds {code src : Nat} {d : Word} (h : foldsInto code src (sevOf code (s.degraded src)).num s = true) :
    recordEvent code src d s =
      { s.inc ⟨aEVR_REC s.newest 2, 0, 16⟩ 1 with evr := { s.evr with lastFold := some s.now } } := if_pos h

/-- An occurrence that does not fold is written and announced, or finds no token and is counted as dropped. -/
theorem recordEvent_cases {code src sev : Nat} {d : Word} (hsev : (sevOf code (s.degraded src)).num = sev)
    (h : foldsInto code src sev s = false) :
    (∃ drop e, recordEvent code src d s = announce code sev d { writeRecord code src sev d drop s with evr := e }) ∨
      sev ≠ 2 ∧ recordEvent code src d s = { s.incSat (dropCount sev) 1 with
        evr := { s.evr with dropped := tabPut (fun _ => false) s.evr.dropped code true } } := by
  subst hsev
  have hnew := ne_true_of_eq_false h
  by_cases hred : (sevOf code (s.degraded src)).num = 2
  · exact .inl ⟨_, _, (if_neg hnew).trans (if_pos hred)⟩
  by_cases htoken : tabGet (fun _ => 0) s.evr.spent (2 * code + (sevOf code (s.degraded src)).num) <
      burst (sevOf code (s.degraded src)).num s
  · exact .inl ⟨_, _, (if_neg hnew).trans ((if_neg hred).trans (if_pos htoken))⟩
  · refine .inr ⟨hred, (if_neg hnew).trans ((if_neg hred).trans ((if_neg htoken).trans ?_))⟩
    unfold dropCount
    split <;> rfl

theorem dropCount_addr (sev : Nat) : (dropCount sev).addr = aEVR_DROPCNT := by unfold dropCount; split <;> rfl

theorem rec_ne_dropCount (i w sev : Nat) : aEVR_REC i w ≠ (dropCount sev).addr := by
  rw [dropCount_addr]; unfold aEVR_REC aEVR_DROPCNT; omega

theorem Sev.num_lt (v : Sev) : v.num < 3 := by cases v <;> decide

/-- Counting an occurrence that is dropped leaves the ring alone. -/
theorem incSat_dropCount_frame (sev : Nat) :
    (∀ i w, (s.incSat (dropCount sev) 1).rd (aEVR_REC i w) = s.rd (aEVR_REC i w)) ∧
      (s.incSat (dropCount sev) 1).get EVR_HEAD_SEQ = s.get EVR_HEAD_SEQ := by
  refine ⟨fun i w => (State.rd_set ..).trans (if_neg (rec_ne_dropCount i w sev)), State.get_set_other _ _ ?_⟩
  rw [dropCount_addr]
  decide

/-- A severity that is not red has its own count, which stops at its top. -/
theorem incSat_dropCount_counts {sev : Nat} (hsev : sev < 3) (hred : sev ≠ 2) :
    sev = 1 ∧ (s.incSat (dropCount sev) 1).get EVR_DROPCNT_AMBER =
        min (s.get EVR_DROPCNT_AMBER + 1) (2 ^ EVR_DROPCNT_AMBER.width - 1) ∨
      sev = 0 ∧ (s.incSat (dropCount sev) 1).get EVR_DROPCNT_GREY =
        min (s.get EVR_DROPCNT_GREY + 1) (2 ^ EVR_DROPCNT_GREY.width - 1) := by
  rcases (show sev = 1 ∨ sev = 0 by omega) with rfl | rfl
  · exact .inl ⟨rfl, get_incSat_same (f := EVR_DROPCNT_AMBER) 1 (by decide)⟩
  · exact .inr ⟨rfl, get_incSat_same (f := EVR_DROPCNT_GREY) 1 (by decide)⟩

end Sys2Proof.Machine

open Sys2Proof Sys2Proof.Machine

/-- Settles O52. The obligation's condition is the recorder's own test (`foldsInto_iff`). An occurrence that meets it counts up
REPEAT, which carries into no other field. Any other one leaves the newest record alone: a new record takes the next slot of
the ring, announcing it writes nothing of the log even where it contains the device (`announce_outsideLog`), and a dropped
occurrence changes only its count. -/
theorem occurrencesFold : Obligations.OccurrencesFold := by
  unfold Obligations.OccurrencesFold
  intro code source detail s0 hring s hany i sev ref folds
  have hexec : exec (.eventRecord code source detail) s0 = .next (recordEvent code.toNat source.toNat detail s) :=
    exec_eventRecord hring
  have hfolds : foldsInto code.toNat source.toNat sev s = true ↔ folds := by
    have href : ref = s.evr.lastFold.getD (s.rd (aEVR_REC i 0)).toNat := by
      simp only [ref]
      cases s.evr.lastFold <;> rfl
    simp only [folds, href]
    exact foldsInto_iff code.isLt hany
  refine ⟨fun h => ⟨_, hexec, ?_⟩, fun h => ⟨_, hexec, ?_⟩⟩
  · have ⟨_, _, _, _, hrepeat⟩ := h
    rw [recordEvent_of_folds (hfolds.mpr h)]
    refine ⟨rd_inc_repeat hrepeat, ?_, rfl, rfl, ?_⟩
    · exact .evr (.set (f := ⟨aEVR_REC i 2, 0, 16⟩) rfl (.refl _ s))
    · exact .same (State.inc_keeps (.refl s))
  · rcases recordEvent_cases (d := detail) rfl (eq_false_of_ne_true fun k => h (hfolds.mp k)) with ⟨drop, e, ht⟩ | ⟨hred, ht⟩
    · rw [ht]
      obtain ⟨hrec, hseq⟩ := announce_writeRecord (e := e) hany
      exact ⟨hrec, .inl (hseq.trans (State.nextSeq_of_any hany))⟩
    · rw [ht]
      obtain ⟨hrec, hseq⟩ := incSat_dropCount_frame (s := s) sev
      have hcount := incSat_dropCount_counts (s := s) (Sev.num_lt _) hred
      exact ⟨fun w _ => hrec i w, .inr ⟨hseq, tabGet_put_same .., hcount⟩⟩
end
